-- ==== Sys2Proof/Word.lean ====
section
/-! DEFINITION. The word of the channel paths and of sector data, and the count of the controller clock. -/

namespace Sys2Proof

/-- A 16-bit unit; bit 0 is the least significant (00_scope, Terms). -/
abbrev Word := BitVec 16

/-- A reading of the controller clock: a count of milliseconds, 0 to 4,294,967,295 (R94). -/
abbrev Millis := BitVec 32

end Sys2Proof
end

