-- ==== Sys2Proof/Syntax.lean ====
section
/-! DEFINITION. The commands the controller takes: one constructor of `Instr` for each row of spec/opcode_table.json, and the
types of their operands. The table gives no row any operand fields; the operands are what the rule of the row says arrives. -/

namespace Sys2Proof

/-- One of the two sides of the controller (00_scope, Terms). -/
inductive Channel where
  | A
  | B
  deriving DecidableEq, Repr

/-- The channel that is not this one. -/
def Channel.other : Channel → Channel
  | .A => .B
  | .B => .A

/-- The slot number that names an extent, 0 to 31 (R12). -/
abbrev Slot := Fin 32

/-- The target of a claim: the controller, or an extent slot (R33). -/
inductive ClaimTarget where
  | controller
  | extent (slot : Slot)
  deriving DecidableEq, Repr

/-- The six reported lines, in the order of R137, which is the bit order of R185. -/
inductive Line where
  | ready
  | door
  | protect
  | unload
  | fault
  | power
  deriving DecidableEq, Repr

/-- A set of reported lines, one bit for each, bits 0 to 5 in the order of `Line` (R185). -/
abbrev LineSet := BitVec 6

/-- Who takes a change of a reported line: the line monitor, or the block that acts on the line, each as an event of its own (R137);
or the two of them one after the other, with nothing between (log 9). -/
inductive Taker where
  | monitor
  | owner
  | both
  deriving DecidableEq, Repr

/-- The state recorded in a sector's header (R5). -/
inductive HeaderState where
  | blank
  | written
  | void
  deriving DecidableEq, Repr

/-- A header as the serial read data gave it: address, state and the check word recorded after them (R5, R6). -/
structure HeaderImage where
  cylinder : Word
  head : Word
  sector : Word
  state : HeaderState
  check : Word
  deriving DecidableEq, Repr

/-- An extent definition as its six field words stand in a MAP-LOAD body (R187) or in a map image slot (R10). -/
structure RawDefinition where
  first : Word
  last : Word
  kind : Word
  rights : Word
  cls : Word
  options : Word
  deriving DecidableEq, Repr

/-- A defect image entry of a label (R10): cause 0 READ, 1 WRITE, 2 HEADER as R187 numbers them. -/
structure RawDefect where
  cylinder : Nat
  head : Nat
  sector : Nat
  cause : Nat
  firstSeen : Millis
  count : Nat
  deriving DecidableEq, Repr

/-- The named contents of a label sector's data field (R10). -/
structure Label where
  version : Nat
  serial : BitVec 32
  map : Vector (Option RawDefinition) 32
  defects : List RawDefect
  marker : Bool
  deriving DecidableEq, Repr

/-- A data field as the serial read data gave it: 256 words and the check word recorded after them (R6). `contents` is what the
words hold when the sector is the label sector; R10 gives no layout, so what the words hold comes with them (log 6). -/
structure FieldImage where
  data : Vector Word 256
  check : Word
  contents : Option Label
  deriving DecidableEq, Repr

/-- The commands, in the order of the rows of spec/opcode_table.json. -/
inductive Instr where
  /-- POWER_ON_RESET (R137): the six levels as sampled. -/
  | powerOnReset (levels : LineSet)
  /-- CHANNEL_RESET (R184). -/
  | channelReset (ch : Channel)
  /-- RESET_RELEASE (R184). -/
  | resetRelease (ch : Channel)
  /-- CLOCK_TICK (R94). -/
  | clockTick
  /-- INBOUND_WORD (R175): the word offered with FRAME active. -/
  | inboundWord (ch : Channel) (w : Word)
  /-- FRAME_EARLY_END (R176). -/
  | frameEarlyEnd (ch : Channel)
  /-- RESERVATION_MADE (R97). -/
  | reservationMade (ch : Channel)
  /-- OUTBOUND_WORD_TAKEN (R178). -/
  | outboundWordTaken (ch : Channel)
  /-- ATTENTION_DELAY_EXPIRY (R180). -/
  | attentionDelayExpiry (ch : Channel)
  /-- READ (R54): admission takes the READ in the channel's stage. -/
  | read (ch : Channel)
  /-- WRITE (R55). -/
  | write (ch : Channel)
  /-- APPEND (R56). -/
  | append (ch : Channel)
  /-- FLUSH (R58). -/
  | flush (ch : Channel)
  /-- CANCEL (R87). -/
  | cancel (ch : Channel)
  /-- CLAIM (R36). -/
  | claim (ch : Channel)
  /-- MAP_READ (R28). -/
  | mapRead (ch : Channel)
  /-- MAP_LOAD (R31). -/
  | mapLoad (ch : Channel)
  /-- MAP_STORE (R61). -/
  | mapStore (ch : Channel)
  /-- DEFECT_READ (R61). -/
  | defectRead (ch : Channel)
  /-- CLEAR (R164). -/
  | clear (ch : Channel)
  /-- SCAN (R164). -/
  | scan (ch : Channel)
  /-- SWEEP_HALT (R171). -/
  | sweepHalt (ch : Channel)
  /-- CONTEXT (R64). -/
  | context (ch : Channel)
  /-- SETTINGS_LOAD (R66). -/
  | settingsLoad (ch : Channel)
  /-- STATUS (R182). -/
  | status (ch : Channel)
  /-- EVENT_ACK (R181). -/
  | eventAck (ch : Channel)
  /-- FAULT_READ (R107). -/
  | faultRead (ch : Channel)
  /-- TIME_SET (R183). -/
  | timeSet (ch : Channel)
  /-- REQUEST_RETAKE (R48). -/
  | requestRetake (ch : Channel)
  /-- LEASE_EXPIRY (R37): the record whose lease expires. -/
  | leaseExpiry (target : ClaimTarget)
  /-- DEADLINE_EXPIRY (R85): the entry, named by its channel and tag (R71). -/
  | deadlineExpiry (ch : Channel) (tag : Nat)
  /-- COLLECTION_WINDOW_EXPIRY (R166). -/
  | collectionWindowExpiry
  /-- ARBITER_CHOICE (R81). -/
  | arbiterChoice
  /-- SEEK_DONE_INACTIVE (R112). -/
  | seekDoneInactive
  /-- SEEK_DONE (R112). -/
  | seekDone
  /-- SEEK_TIMEOUT (R117). -/
  | seekTimeout
  /-- RESTORE_TIMEOUT (R118). -/
  | restoreTimeout
  /-- SECTOR_PULSE (R119): whether the index pulse came with it. -/
  | sectorPulse (index : Bool)
  /-- HEADER_READ_COMPLETE (R122): the header as read. -/
  | headerReadComplete (h : HeaderImage)
  /-- HEADER_PHASE_COMPLETE (R8). -/
  | headerPhaseComplete
  /-- DATA_PHASE_COMPLETE (R8). -/
  | dataPhaseComplete
  /-- DATA_READ_COMPLETE (R124): the data field as read. -/
  | dataReadComplete (f : FieldImage)
  /-- READ_BACK_COMPLETE (R128): the header and the data field as read back. -/
  | readBackComplete (h : HeaderImage) (f : FieldImage)
  /-- READY_ACTIVE (R150). -/
  | readyActive
  /-- READY_INACTIVE (R155). -/
  | readyInactive
  /-- DOOR_OPEN (R155). -/
  | doorOpen
  /-- DOOR_CLOSE (R138). -/
  | doorClose
  /-- UNLOAD_PRESSED (R157). -/
  | unloadPressed
  /-- UNLOAD_RELEASED (R138). -/
  | unloadReleased
  /-- PROTECT_ACTIVE (R146). -/
  | protectActive
  /-- PROTECT_INACTIVE (R146). -/
  | protectInactive
  /-- FAULT_ACTIVE (R140). -/
  | faultActive
  /-- FAULT_INACTIVE (R142). -/
  | faultInactive
  /-- FAULT_PERSISTENCE_EXPIRY (R142). -/
  | faultPersistenceExpiry
  /-- POWER_ACTIVE (R143). -/
  | powerActive
  /-- POWER_INACTIVE (R143). -/
  | powerInactive
  /-- DRAIN_TIMER_EXPIRY (R158). -/
  | drainTimerExpiry
  /-- STORE_BEGIN (R159). -/
  | storeBegin
  /-- FRAME_INACTIVE (R175). -/
  | frameInactive (ch : Channel)
  deriving DecidableEq, Repr

end Sys2Proof
end

