-- ==== Sys2Proof/Decode.lean ====
section
/-! DEFINITION. The command a word spells by the bits of spec/opcode_table.json. No row of the table gives bits ("fields" is empty
in every row and none has "fixed"), so no word spells a command. -/

namespace Sys2Proof

/-- The command spelled by `w`, an instruction of `nbits` bits as the table numbers them: none, since the table gives no bits. -/
def decodeTableWord (_nbits _w : Nat) : Option Instr := none

end Sys2Proof
end

