-- ==== Sys2Proof/Config.lean ====
section
/-! DEFINITION. What the spec leaves to the implementation: the one free value of the model. -/

namespace Sys2Proof

/-- The 256 words in which the label's named contents stand in the label sector's data field. R10 names the contents and gives
no layout, so nothing constrains the words (log 6). -/
opaque Config.labelWords : Label → Vector Word 256

end Sys2Proof
end

