-- ==== Sys2Proof/Machine/State.lean ====
section
/-! DEFINITION. Everything the spec gives the controller, as plain data; the reasons a step can stop; and the state after reset. -/

namespace Sys2Proof.Machine

/-! ## Reasons to stop -/

/-- The machine raises no fault: every error of the spec is a refusal completion, an ending, a result or an event, and each of
these is a next state (log 1). -/
inductive Fault where
  deriving DecidableEq, Repr

/-- Why a step has no meaning to give. -/
inductive Refusal where
  /-- Raised by an arm of `exec` whose command has no meaning yet; no arm raises it. Safe: the model stops where the controller
  goes on. -/
  | notModelled (mnemonic : String)
  deriving DecidableEq, Repr

/-! ## Shared vocabulary -/

/-- One value for each channel. -/
structure PerChannel (α : Type) where
  a : α
  b : α
  deriving DecidableEq, Repr

/-- The value of a channel. -/
def PerChannel.get {α : Type} (p : PerChannel α) : Channel → α
  | .A => p.a
  | .B => p.b

/-- The pair with one channel's value replaced. -/
def PerChannel.set {α : Type} (p : PerChannel α) (ch : Channel) (v : α) : PerChannel α :=
  match ch with
  | .A => { p with a := v }
  | .B => { p with b := v }

/-- The seven kinds of event, in the order of R179, which is their bit order (R185). -/
inductive EventKind where
  | replyDelivered
  | postedFault
  | volumeChange
  | claimChange
  | sweepEnd
  | lineChange
  | late
  deriving DecidableEq, Repr

/-- A set of event kinds: bit k for the k-th kind of `EventKind` (R179, R185). -/
abbrev EventSet := BitVec 7

/-- The request kinds (chapter 4, first table; kind codes R185). -/
inductive ReqKind where
  | read | write | append | flush | cancel | claim | mapRead | mapLoad | mapStore | defectRead
  | clear | scan | sweepHalt | context | settingsLoad | status | eventAck | faultRead | timeSet
  deriving DecidableEq, Repr

/-- The outcome codes (the table before R70's example; codes R186). -/
inductive Code where
  | done | posted | joined
  | blank | void | checkMismatch | mediumError | torn
  | badRequest | duplicateTag | badContext | badSettings | quotaInUse | notMounted | staleVolume | volumeLeaving
  | noExtent | outOfExtent | noRight | claimRequired | appendOnly | extentFull | fillUnknown | extentClearing
  | extentBusy | defectiveSector | writeProtected | sweepBusy | sweepFull | badMap | notFound | tooLate
  | cancelled | deadlineAbandoned | claimLost | claimMismatch | volumeGone | writeFault | seekError | faulted
  deriving DecidableEq, Repr

/-- The conditions of a condition list (R68). -/
inductive Condition where
  | blank | void | checkMismatch | mediumError | torn
  deriving DecidableEq, Repr

/-- The classes, highest first (R81). -/
inductive WorkClass where
  | urgent | setup | log | bulk
  deriving DecidableEq, Repr

/-- The request flags (R57). -/
structure Flags where
  quiet : Bool
  medium : Bool
  urgent : Bool
  force : Bool
  deriving DecidableEq, Repr

/-- A check span: start and end of the words summed and the word the sum stands in (R63). -/
structure CheckSpan where
  first : Nat
  last : Nat
  insert : Nat
  deriving DecidableEq, Repr

/-! ## Extents (chapter 2) -/

/-- Extent kinds (R14). -/
inductive ExtentKind where
  | opn | append | guarded
  deriving DecidableEq, Repr

/-- A well-formed extent definition (R14). -/
structure Definition where
  first : Nat
  last : Nat
  kind : ExtentKind
  readA : Bool
  writeA : Bool
  readB : Bool
  writeB : Bool
  cls : WorkClass
  urgentAllowed : Bool
  posting : Bool
  deriving DecidableEq, Repr

/-- Whether the fill mark is trusted (R23). -/
inductive FillState where
  | known | unknown
  deriving DecidableEq, Repr

/-- The runtime fields of an APPEND extent (R21). -/
structure Fill where
  mark : Nat
  state : FillState
  pending : Nat
  deriving DecidableEq, Repr

/-- A present slot: definition and runtime fields; `fill` is present for APPEND extents alone (R21). -/
structure Extent where
  defn : Definition
  fill : Option Fill
  clearing : Bool
  deriving DecidableEq, Repr

/-! ## Claims (chapter 3) -/

/-- A claim record; `none` is the holder NONE, and `remaining` is 0 while the lease is 0 (R33). -/
structure ClaimRecord where
  holder : Option Channel
  token : Nat
  lease : Nat
  remaining : Nat
  deriving DecidableEq, Repr

/-- NONE/0 with lease 0 (R33). -/
def ClaimRecord.free : ClaimRecord := { holder := none, token := 0, lease := 0, remaining := 0 }

/-! ## Context and settings (chapter 4) -/

/-- A standing context (R63). -/
structure Context where
  expectedGen : Nat
  span : Option CheckSpan
  verify : Bool
  attnMask : EventSet
  attnDelay : Nat
  lineMask : LineSet
  deriving DecidableEq, Repr

/-- The default context (R63). -/
def Context.default : Context :=
  { expectedGen := 0, span := none, verify := false, attnMask := 0, attnDelay := 0, lineMask := 0 }

/-- What a deadline's expiry does (R85). -/
inductive LateAction where
  | mark | abandon
  deriving DecidableEq, Repr

/-- What POWER becoming active does to a write in progress (R144, R145). -/
inductive ShutdownMode where
  | sectorEnd | immediate
  deriving DecidableEq, Repr

/-- A row of the class table (R65). -/
structure ClassRow where
  deadline : Nat
  lateAction : LateAction
  readRetries : Nat
  writeRetries : Nat
  yields : Bool
  deriving DecidableEq, Repr

/-- The settings record (R65). -/
structure Settings where
  urgent : ClassRow
  setup : ClassRow
  log : ClassRow
  bulk : ClassRow
  quotaA : Nat
  quotaB : Nat
  drainTimeout : Nat
  storeOnUnload : Bool
  powerMode : ShutdownMode
  deriving DecidableEq, Repr

/-- The default settings (R65). -/
def Settings.default : Settings :=
  { urgent := { deadline := 250, lateAction := .mark, readRetries := 2, writeRetries := 2, yields := false }
    setup := { deadline := 800, lateAction := .abandon, readRetries := 4, writeRetries := 2, yields := true }
    log := { deadline := 2000, lateAction := .mark, readRetries := 4, writeRetries := 2, yields := true }
    bulk := { deadline := 0, lateAction := .mark, readRetries := 4, writeRetries := 2, yields := true }
    quotaA := 12
    quotaB := 12
    drainTimeout := 8000
    storeOnUnload := false
    powerMode := .sectorEnd }

/-! ## Defects and posted faults (chapters 7 and 6) -/

/-- The cause of a defect list entry (R134). -/
inductive DefectCause where
  | read | write | header
  deriving DecidableEq, Repr

/-- An entry of the defect list (R134). -/
structure Defect where
  cylinder : Nat
  head : Nat
  sector : Nat
  cause : DefectCause
  firstSeen : Millis
  count : Nat
  deriving DecidableEq, Repr

/-- An entry of a posted fault log (R106). -/
structure FaultEntry where
  tag : Nat
  slot : Slot
  first : Option Nat
  count : Nat
  committed : Nat
  cause : Code
  generation : Nat
  clock : Millis
  deriving DecidableEq, Repr

/-- A channel's posted fault log: up to 4 entries, oldest first, and the overflow count (R106). -/
structure FaultLog where
  entries : List FaultEntry
  overflow : Nat
  deriving DecidableEq, Repr

/-! ## Replies (chapters 4 and 11) -/

/-- Result of one extent of a sweep (R69). -/
inductive SweepResult where
  | done | partly | prot | failedSectors | volumeGone
  deriving DecidableEq, Repr

/-- The volume manager's states, in the order of R148's table. -/
inductive VolumeState where
  | absent | mounting | mounted | draining | storing | releasing
  deriving DecidableEq, Repr

/-- Label state when a label has been tested (R147). -/
inductive LabelState where
  | valid | unlabelled
  deriving DecidableEq, Repr

/-- The sequencer's states, in the order of R114's table. -/
inductive SeqState where
  | noCartridge | restoring | idle | seeking | searching | transferring | notSafe | stopping | offline
  deriving DecidableEq, Repr

/-- The sector phases, in the order of R121's table. -/
inductive Phase where
  | headerCheck | header | data | dataRead | readBack | none
  deriving DecidableEq, Repr

/-- The elevator's direction (R82). -/
inductive Direction where
  | inward | outward
  deriving DecidableEq, Repr

/-- The sweep phases as STATUS reports them, in the order of R182. -/
inductive SweepPhase where
  | none | collecting | running | suspended | ended
  deriving DecidableEq, Repr

/-- Numbers of work entries in each state (R182). -/
structure WorkCounts where
  queued : Nat
  active : Nat
  parked : Nat
  watching : Nat
  finished : Nat
  deriving DecidableEq, Repr

/-- The status record (R182). -/
structure StatusRecord where
  volume : VolumeState
  generation : Nat
  label : Option LabelState
  serial : Option (BitVec 32)
  mapModified : Bool
  sequencer : SeqState
  cylinder : Option Nat
  phase : Phase
  direction : Direction
  overflow : Bool
  work : PerChannel WorkCounts
  posted : Nat
  holdingA : Nat
  holdingB : Nat
  sweepPhase : SweepPhase
  sweepSlot : Option Slot
  sweepSector : Option Nat
  levels : LineSet
  events : EventSet
  changed : LineSet
  claim : ClaimRecord
  clock : Millis
  deriving DecidableEq, Repr

/-- An entry of a MAP-READ completion (R28). -/
structure MapEntry where
  slot : Slot
  extent : Extent
  holder : Option Channel
  deriving DecidableEq, Repr

/-- The kind-specific body of a completion (R69). -/
inductive Body where
  | none
  | read (sectors : List (List Word))
  | append (start : Option Nat)
  | claim (value : ClaimRecord)
  | map (generation : Nat) (modified : Bool) (entries : List MapEntry)
  | defects (entries : List Defect) (overflow : Bool)
  | sweep (results : List (Slot × SweepResult))
  | status (record : StatusRecord)
  | faultRead (entry : Option FaultEntry) (overflow : Nat)
  deriving DecidableEq, Repr

/-- A completion, a refusal included (R68). -/
structure Completion where
  tag : Nat
  kind : ReqKind
  outcome : Code
  late : Bool
  sectorsDone : Nat
  conditions : List (Nat × Condition)
  body : Body
  deriving DecidableEq, Repr

/-- Why a frame was discarded (R176). -/
inductive LinkReason where
  | check | length | kind
  deriving DecidableEq, Repr

/-- What a reply queue holds: completions and LINK-REJECTs (R176, R177). -/
inductive Reply where
  | completion (c : Completion)
  | linkReject (tag : Nat) (reason : LinkReason) (taken : Nat)
  deriving DecidableEq, Repr

/-! ## Ports (chapter 11) -/

/-- A request in an admission stage: its body words other than sector data, the length word of its frame, its complete write
data buffers, and the reserved or incomplete buffers it still holds (R47, R97). -/
structure Request where
  kind : ReqKind
  tag : Nat
  length : Nat
  body : List Word
  buffers : List (List Word)
  reserved : Nat
  deriving DecidableEq, Repr

/-- How far the reservation of an arriving WRITE or APPEND frame has come (R97). -/
inductive Reservation where
  | none
  | wanted (n : Nat)
  | made (n : Nat)
  deriving DecidableEq, Repr

/-- A frame being received (R175, R97). `length` is absent until the length word has been taken; `filling` is the write data
buffer not yet complete; `reserved` counts the buffers reserved and not yet turned into write data buffers. -/
structure Frame where
  kind : ReqKind
  tag : Nat
  taken : Nat
  length : Option Nat
  body : List Word
  check : Word
  reservation : Reservation
  reserved : Nat
  buffers : List (List Word)
  filling : List Word
  deriving DecidableEq, Repr

/-- The inbound path: idle, receiving a frame, or dropping words until FRAME is inactive (R175, R176). -/
inductive Receiver where
  | idle
  | receiving (f : Frame)
  | dropping
  deriving DecidableEq, Repr

/-- The admission stage: one thing at a time (R47). A waiting request is due to be taken afresh when a place has become free
since it was last taken (R48, log 13). -/
inductive Stage where
  | empty
  | request (r : Request)
  | waiting (r : Request) (due : Bool)
  | reply (r : Reply)
  deriving DecidableEq, Repr

/-- A member of a due list (R177): the stage's reply, the completion of the FINISHED entry with an admission order, or the
completion of a sweep's opening request. -/
inductive Due where
  | stage
  | entry (order : Nat)
  | sweep (c : Completion)
  deriving DecidableEq, Repr

/-- A channel port (chapter 11) with its standing context (R63). -/
structure Port where
  receiver : Receiver
  stage : Stage
  queue : List Reply
  due : List Due
  outTaken : Nat
  events : EventSet
  changed : LineSet
  context : Context
  attnTimer : Option Nat
  resetActive : Bool
  deriving DecidableEq, Repr

/-- A port after power-on: idle and empty, its context the default (R184). -/
def Port.reset : Port :=
  { receiver := .idle, stage := .empty, queue := [], due := [], outTaken := 0, events := 0, changed := 0,
    context := Context.default, attnTimer := none, resetActive := false }

/-! ## Work list and posted list (chapters 5 and 6) -/

/-- The kinds of work entry (R72). -/
inductive WorkKind where
  | read | write | append | flush | mapStore
  deriving DecidableEq, Repr

/-- The states of a work entry (R73). -/
inductive EntryState where
  | queued | active | parked | watching | finished
  deriving DecidableEq, Repr

/-- A work entry (R72). `slot`, `base` and `size` are the extent and the copies of its bounds made at admission (R27).
`allocated` counts read run buffers of the current run not yet filled and `reserved` the reservation of a started READ (R98).
`run` is the current run, its first relative sector and its length, absent for a MAP-STORE (log 45). `tornNext` says that the next sector of
a parked WRITE was torn (R127). -/
structure Entry where
  channel : Channel
  tag : Nat
  kind : WorkKind
  cls : Option WorkClass
  slot : Option Slot
  base : Nat
  size : Nat
  first : Nat
  count : Nat
  done : Nat
  state : EntryState
  order : Nat
  deadline : Option Nat
  late : Bool
  span : Option CheckSpan
  verify : Bool
  flags : Flags
  token : Option Nat
  writeBuffers : List (List Word)
  readBuffers : List (List Word)
  allocated : Nat
  reserved : Nat
  conditions : List (Nat × Condition)
  appendStart : Option Nat
  run : Option (Nat × Nat)
  watched : List Nat
  faultSeen : Bool
  outcome : Option Code
  discard : Bool
  serial : BitVec 32
  tornNext : Bool
  deriving DecidableEq, Repr

/-- The kind of a posted write (R102). -/
inductive PostedKind where
  | write | append
  deriving DecidableEq, Repr

/-- A posted write (R102). `base` and `size` are the copies of its extent's bounds (R27). -/
structure Posted where
  channel : Channel
  tag : Nat
  kind : PostedKind
  slot : Slot
  base : Nat
  size : Nat
  first : Option Nat
  count : Nat
  committed : Nat
  torn : Bool
  order : Nat
  cls : WorkClass
  generation : Nat
  span : Option CheckSpan
  verify : Bool
  token : Option Nat
  force : Bool
  buffers : List (List Word)
  committing : Bool
  tornNext : Bool
  deriving DecidableEq, Repr

/-! ## Sweep (chapter 10) -/

/-- An item of a sweep's extent list (R163). -/
structure SweepItem where
  slot : Slot
  order : Nat
  token : Option Nat
  top : Option Nat
  failed : Bool
  result : Option SweepResult
  deriving DecidableEq, Repr

/-- Sweep kinds (R163). -/
inductive SweepKind where
  | clear | scan
  deriving DecidableEq, Repr

/-- Why a sweep was stopped (R163). -/
inductive StopCause where
  | halt | protect | departure
  deriving DecidableEq, Repr

/-- The sweep that has not ended (R163). `window` is present while COLLECTING; RUNNING and SUSPENDED follow from who owns the
drive (log 26). `cause` is set while a stop waits for the step in progress. `discard` says that the opening channel has been reset
(R174). -/
structure Sweep where
  kind : SweepKind
  channel : Channel
  tag : Nat
  verify : Bool
  items : List SweepItem
  window : Option Nat
  current : Option Nat
  sector : Option Nat
  halt : Bool
  cause : Option StopCause
  discard : Bool
  deriving DecidableEq, Repr

/-! ## Drive sequencer (chapter 7) -/

/-- Whose work the sequencer is doing (R115): a work entry's or posted write's by admission order, the sweep's, or one of the
volume manager's accesses. -/
inductive Owner where
  | entry (order : Nat)
  | posted (order : Nat)
  | sweep
  | volume
  deriving DecidableEq, Repr

/-- The kinds of access (R115). -/
inductive AccessKind where
  | readRun | writeRun | appendRun | labelWrite | clearStep | scanStep | labelRead | probe
  deriving DecidableEq, Repr

/-- What the next passage of the current sector is for: its own work, the read-back of R128, or one of the two passages of a
VOID marking (R131). -/
inductive Pass where
  | work | readBack | marking | markCheck
  deriving DecidableEq, Repr

/-- A stop or cut that an access has yet to take (R133, R144, R145, R146). -/
inductive Stop where
  | power | cut | protect
  deriving DecidableEq, Repr

/-- The access in progress (R115). `base` is the first cylinder of its extent (0 for the label), `sector` the relative sector
worked on, `runEnd` the relative sector after its run, `size` the extent's size, `done` the sectors counted in this run. `restored` says that
a restore has been made for the sector, `further` that the attempt now to be made at its write is the one further attempt for which the
address check failed in the last allowed one has called (R129). -/
structure Access where
  owner : Owner
  kind : AccessKind
  cls : Option WorkClass
  verify : Bool
  slot : Option Slot
  base : Nat
  sector : Nat
  runEnd : Nat
  size : Nat
  done : Nat
  pass : Pass
  failed : Nat
  checkPassed : Bool
  tornResume : Bool
  restored : Bool
  further : Bool
  underWay : Bool
  stops : List Stop
  unsync : Nat
  mapLoadSeen : Bool
  deriving DecidableEq, Repr

/-- The drive sequencer (R113), its timers (R95) and the cylinder of the outstanding SEEK (R111). -/
structure Sequencer where
  state : SeqState
  cylinder : Option Nat
  head : Nat
  counter : Option Nat
  target : Option Nat
  gate : Bool
  accepted : Bool
  phase : Phase
  seekTimeouts : Nat
  mismatches : Nat
  seekTo : Nat
  seekTimer : Option Nat
  restoreTimer : Option Nat
  faultTimer : Option Nat
  access : Option Access
  defects : List Defect
  overflow : Bool
  deriving DecidableEq, Repr

/-- The sequencer after power-on with READY inactive (R113). -/
def Sequencer.reset : Sequencer :=
  { state := .noCartridge, cylinder := none, head := 0, counter := none, target := none, gate := false, accepted := false,
    phase := .none, seekTimeouts := 0, mismatches := 0, seekTo := 0, seekTimer := none, restoreTimer := none,
    faultTimer := none, access := none, defects := [], overflow := false }

/-- What the controller buffer holds (R100). -/
inductive ControllerBuffer where
  | free
  | labelIn
  | label (l : Label)
  | zeros
  | scanned
  deriving DecidableEq, Repr

/-! ## Volume manager (chapter 9) -/

/-- How far a mount has come: the restore, the label read, or the fill search of a slot between two bounds (R150-R152). -/
inductive MountStage where
  | none
  | restore
  | label
  | search (slot : Slot) (lower upper : Nat)
  deriving DecidableEq, Repr

/-- The volume manager (R147), its place in a mount and whether its drain timer has expired with an access still to be stopped
(R158). -/
structure Volume where
  state : VolumeState
  generation : Nat
  label : Option LabelState
  serial : Option (BitVec 32)
  mapModified : Bool
  drainTimer : Option Nat
  mount : MountStage
  drainExpired : Bool
  deriving DecidableEq, Repr

/-- The volume manager after power-on (R147). -/
def Volume.reset : Volume :=
  { state := .absent, generation := 0, label := none, serial := none, mapModified := false, drainTimer := none,
    mount := .none, drainExpired := false }

/-! ## The medium (chapter 1) -/

/-- What stands in a sector's header after the write gate touched it (R8, R9): torn, or the address, the state and the check word placed
after them (R5, R6). -/
inductive HeaderRecord where
  | torn
  | whole (header : HeaderImage)
  deriving DecidableEq, Repr

/-- What stands in a sector's data field after the write gate touched the sector (R8, R9): as it was, torn, or the words and the check
word placed after them (R6). -/
inductive DataRecord where
  | untouched
  | torn
  | whole (words : List Word) (check : Word)
  deriving DecidableEq, Repr

/-- What the controller left on one sector of the cartridge (R9). -/
structure SectorRecord where
  header : HeaderRecord
  data : DataRecord
  deriving DecidableEq, Repr

/-! ## The state -/

structure State where
  /-- The two channel ports (chapter 11). -/
  ports : PerChannel Port
  /-- The two posted fault logs (R106). -/
  logs : PerChannel FaultLog
  /-- The settings record (R65). -/
  settings : Settings
  /-- The extent table (R12). -/
  extents : Vector (Option Extent) 32
  /-- The controller claim (R33). -/
  ctlClaim : ClaimRecord
  /-- The extent claims (R33). -/
  extClaims : Vector ClaimRecord 32
  /-- The work list, oldest admission first (R71). -/
  work : List Entry
  /-- The posted list, in admission order (R103). -/
  posted : List Posted
  /-- The admission order the next admitted request takes (R50). -/
  nextOrder : Nat
  /-- The elevator's direction (R82). -/
  direction : Direction
  /-- The drive sequencer (R113). -/
  seq : Sequencer
  /-- The controller buffer (R100). -/
  ctlBuffer : ControllerBuffer
  /-- The volume manager (R147). -/
  volume : Volume
  /-- The sweep that has not ended (R163). -/
  sweep : Option Sweep
  /-- Whether a sweep has ended since power-on: the phase with no sweep is then ENDED, else NONE (R163). -/
  sweepSeen : Bool
  /-- The levels of the six reported lines as the line monitor keeps them: the set of ACTIVE ones (R137). -/
  levels : LineSet
  /-- The levels as the blocks that act on the lines have taken them, each change being an event of their own (R137, log 9). -/
  acted : LineSet
  /-- The period of POWER activity and the mode it began with (R143). -/
  powerPeriod : Option ShutdownMode
  /-- The mode under which the sequencer has taken POWER as ACTIVE, until it takes it as INACTIVE (R121, R137, log 9). -/
  powerTaken : Option ShutdownMode
  /-- The modes of the periods of POWER activity that the line monitor has begun and the sequencer has still to take, oldest first (R137, R143,
  log 9). -/
  powerOwed : List ShutdownMode
  /-- How many beginnings of POWER activity the sequencer has taken that the line monitor has still to take (R137, R143, log 9). -/
  powerEarly : Nat
  /-- The controller clock (R94). -/
  clock : Millis
  /-- What the write gate left on the cartridge, by disk order (R2, R9, log 7). -/
  medium : List (Nat × SectorRecord)
  /-- The commands that wait, first in first out. -/
  pending : List Instr
  /-- The model's own, from outside like `pending`: who takes each of the next line changes in its step, the line monitor, the blocks that
  act on the line, or both (R137, log 9). -/
  takers : List Taker
  deriving DecidableEq, Repr

/-- The machine right after power-on with every reported line INACTIVE (R137 samples the lines: log 4). -/
def State.reset : State :=
  { ports := { a := Port.reset, b := Port.reset }
    logs := { a := { entries := [], overflow := 0 }, b := { entries := [], overflow := 0 } }
    settings := Settings.default
    extents := Vector.replicate 32 none
    ctlClaim := ClaimRecord.free
    extClaims := Vector.replicate 32 ClaimRecord.free
    work := []
    posted := []
    nextOrder := 0
    direction := .inward
    seq := Sequencer.reset
    ctlBuffer := .free
    volume := Volume.reset
    sweep := none
    sweepSeen := false
    levels := 0
    acted := 0
    powerPeriod := none
    powerTaken := none
    powerOwed := []
    powerEarly := 0
    clock := 0
    medium := []
    pending := []
    takers := [] }

end Sys2Proof.Machine
end

