-- ==== Sys2Proof/Machine/Codes.lean ====
section
/-! DEFINITION. Check words (R6, R176), the span sum (R101), the bit-field helpers, and the words in which replies leave on the
outbound path (R185 to R187). -/

namespace Sys2Proof.Machine

/-! ## Check words and sums -/

/-- One bit into the cyclic check with generator x^16+x^15+x^2+1 (R6). -/
def crcBit (c : Word) (b : Bool) : Word :=
  if c.msb != b then (c <<< 1) ^^^ 0x8005#16 else c <<< 1

/-- The `n` low bits of a word into the check, most significant of them first (R176). -/
def crcBits : Nat → Word → Word → Word
  | 0, _, c => c
  | n + 1, w, c => crcBits n w (crcBit c (w.getLsbD n))

/-- One word into the check, most significant bit first (R176). -/
def crcWord (c w : Word) : Word := crcBits 16 w c

/-- The check over words in order, initial value 0 (R6, R176). -/
def crc (ws : List Word) : Word := ws.foldl crcWord 0#16

/-- The word a header state stands for in the header check: its place in R5's list (log 5). -/
def headerStateCode : HeaderState → Word
  | .blank => 0
  | .written => 1
  | .void => 2

/-- The header check word: over cylinder, head, sector and state, in that order (R6), a word for each (log 5). -/
def headerCheck (cylinder head sector : Word) (st : HeaderState) : Word :=
  crc [cylinder, head, sector, headerStateCode st]

/-- A header is readable when its recorded check word is the computed one (R6). -/
def headerReadable (h : HeaderImage) : Bool :=
  h.check == headerCheck h.cylinder h.head h.sector h.state

/-- A data field is good when its recorded check word is the computed one (R6). Each data word enters the check most significant bit first,
the model's choice: R6 names no bit order (log 5). -/
def fieldGood (f : FieldImage) : Bool :=
  f.check == crc f.data.toList

/-- One word into a ones'-complement sum (R101). -/
def onesAdd (total w : Nat) : Nat :=
  if total + w > 65535 then total + w - 65535 else total + w

/-- The 16-bit ones'-complement sum of the words at positions `first` to `last` (R101). -/
def spanSum (sp : CheckSpan) (ws : List Word) : Word :=
  BitVec.ofNat 16 (((ws.drop sp.first).take (sp.last + 1 - sp.first)).foldl (fun t w => onesAdd t w.toNat) 0)

/-- A sector with its check span inserted (R101); unchanged when the span is absent. -/
def insertSpan (sp : Option CheckSpan) (ws : List Word) : List Word :=
  match sp with
  | none => ws
  | some sp => ws.set sp.insert (spanSum sp ws)

/-- A sector read passes its check span when the sum stands in the insert word (R126). -/
def spanHolds (sp : Option CheckSpan) (ws : List Word) : Bool :=
  match sp with
  | none => true
  | some sp => ws[sp.insert]? == some (spanSum sp ws)

/-- 256 zero words: the data of a BLANK, VOID or failed sector (R7, R125) and of a CLEAR or VOID write (R5). -/
def zeroSector : Vector Word 256 := Vector.replicate 256 0

/-! ## Fields of words -/

/-- A number as a word. -/
def word (n : Nat) : Word := BitVec.ofNat 16 n

/-- Bits 15-8 of a word. -/
def highByte (w : Word) : Nat := (w >>> 8).toNat

/-- Bits 7-0 of a word. -/
def lowByte (w : Word) : Nat := (w &&& 0x00FF#16).toNat

/-- yes/no, set/clear and ON/OFF as 1/0 (R185). -/
def boolWord (b : Bool) : Word := if b then 1 else 0

/-- A 32-bit number as two words, more significant first (R185). -/
def longWords (v : BitVec 32) : List Word := [(v >>> 16).setWidth 16, v.setWidth 16]

/-- Two words, more significant first, as a 32-bit number (R185). -/
def longOf (hi lo : Word) : BitVec 32 := hi ++ lo

/-- An absent field: a presence word, then the field's words when it is present (R185). -/
def presence {α : Type} (f : α → List Word) : Option α → List Word
  | none => [0]
  | some v => 1 :: f v

/-! ## Codes (R185, R186) -/

/-- Kind codes (R185). -/
def ReqKind.code : ReqKind → Nat
  | .read => 0x10 | .write => 0x11 | .append => 0x12 | .flush => 0x13 | .cancel => 0x14
  | .claim => 0x20
  | .mapRead => 0x30 | .mapLoad => 0x31 | .mapStore => 0x32 | .defectRead => 0x33
  | .clear => 0x40 | .scan => 0x41 | .sweepHalt => 0x42
  | .context => 0x50 | .settingsLoad => 0x51
  | .status => 0x60 | .eventAck => 0x61 | .faultRead => 0x62 | .timeSet => 0x63

/-- Every request kind, in the order of the kind code table (R185). -/
def ReqKind.all : List ReqKind :=
  [.read, .write, .append, .flush, .cancel, .claim, .mapRead, .mapLoad, .mapStore, .defectRead, .clear, .scan, .sweepHalt,
   .context, .settingsLoad, .status, .eventAck, .faultRead, .timeSet]

/-- The request kind of a kind byte; none when the byte is no request kind of the table (R176). -/
def ReqKind.ofCode (n : Nat) : Option ReqKind := ReqKind.all.find? (fun k => k.code == n)

/-- Outcome codes (R186). -/
def Code.code : Code → Nat
  | .done => 0x00 | .posted => 0x01 | .joined => 0x02
  | .blank => 0x08 | .void => 0x09 | .checkMismatch => 0x0A | .mediumError => 0x0B | .torn => 0x0C
  | .badRequest => 0x10 | .duplicateTag => 0x11 | .badContext => 0x12 | .badSettings => 0x13 | .quotaInUse => 0x14
  | .notMounted => 0x15 | .staleVolume => 0x16 | .volumeLeaving => 0x17 | .noExtent => 0x18 | .outOfExtent => 0x19
  | .noRight => 0x1A | .claimRequired => 0x1B | .appendOnly => 0x1C | .extentFull => 0x1D | .fillUnknown => 0x1E
  | .extentClearing => 0x1F | .extentBusy => 0x20 | .defectiveSector => 0x21 | .writeProtected => 0x22
  | .sweepBusy => 0x23 | .sweepFull => 0x24 | .badMap => 0x25 | .notFound => 0x26 | .tooLate => 0x27
  | .cancelled => 0x30 | .deadlineAbandoned => 0x31 | .claimLost => 0x32 | .claimMismatch => 0x33
  | .volumeGone => 0x34 | .writeFault => 0x35 | .seekError => 0x36 | .faulted => 0x37

/-- A condition's code is the outcome code of the same name (R186). -/
def Condition.toCode : Condition → Code
  | .blank => .blank
  | .void => .void
  | .checkMismatch => .checkMismatch
  | .mediumError => .mediumError
  | .torn => .torn

/-- Holder NONE 0, A 1, B 2 (R185). -/
def holderCode : Option Channel → Nat
  | none => 0
  | some .A => 1
  | some .B => 2

/-- The holder a word names; none when it names none of the three (R185). -/
def holderOf (w : Word) : Option (Option Channel) :=
  if w = 0 then some none else if w = 1 then some (some .A) else if w = 2 then some (some .B) else none

/-- Extent kinds OPEN 0, APPEND 1, GUARDED 2 (R185). -/
def ExtentKind.code : ExtentKind → Nat
  | .opn => 0
  | .append => 1
  | .guarded => 2

/-- Classes URGENT 0, SETUP 1, LOG 2, BULK 3 (R185). -/
def WorkClass.code : WorkClass → Nat
  | .urgent => 0
  | .setup => 1
  | .log => 2
  | .bulk => 3

/-- Fill state KNOWN 0, UNKNOWN 1 (R185). -/
def FillState.code : FillState → Nat
  | .known => 0
  | .unknown => 1

/-- Elevator direction INWARD 0, OUTWARD 1 (R185). -/
def Direction.code : Direction → Nat
  | .inward => 0
  | .outward => 1

/-- A volume manager state by its place in R148's table (R187). -/
def VolumeState.code : VolumeState → Nat
  | .absent => 0 | .mounting => 1 | .mounted => 2 | .draining => 3 | .storing => 4 | .releasing => 5

/-- Label state by its place in R147's values (log 12). -/
def LabelState.code : LabelState → Nat
  | .valid => 0
  | .unlabelled => 1

/-- A sequencer state by its place in R114's table (R187). -/
def SeqState.code : SeqState → Nat
  | .noCartridge => 0 | .restoring => 1 | .idle => 2 | .seeking => 3 | .searching => 4 | .transferring => 5
  | .notSafe => 6 | .stopping => 7 | .offline => 8

/-- A sector phase by its place in R121's table (R187). -/
def Phase.code : Phase → Nat
  | .headerCheck => 0 | .header => 1 | .data => 2 | .dataRead => 3 | .readBack => 4 | .none => 5

/-- A sweep phase by its place in R182's list (log 12). -/
def SweepPhase.code : SweepPhase → Nat
  | .none => 0 | .collecting => 1 | .running => 2 | .suspended => 3 | .ended => 4

/-- Defect causes READ 0, WRITE 1, HEADER 2 (R187). -/
def DefectCause.code : DefectCause → Nat
  | .read => 0
  | .write => 1
  | .header => 2

/-- Sweep results DONE 0, PARTIAL 1, PROTECTED 2, FAILED-SECTORS 3, VOLUME-GONE 4 (R187). -/
def SweepResult.code : SweepResult → Nat
  | .done => 0
  | .partly => 1
  | .prot => 2
  | .failedSectors => 3
  | .volumeGone => 4

/-- LINK-REJECT reasons 1 CHECK, 2 LENGTH, 3 KIND (R186). -/
def LinkReason.code : LinkReason → Nat
  | .check => 1
  | .length => 2
  | .kind => 3

/-! ## Extent definitions as words (R187) -/

/-- The rights word: bit 0 read A, 1 write A, 2 read B, 3 write B (R187). -/
def Definition.rightsWord (d : Definition) : Word :=
  word ((if d.readA then 1 else 0) + (if d.writeA then 2 else 0) + (if d.readB then 4 else 0) + (if d.writeB then 8 else 0))

/-- The options word: bit 0 urgent allowed, bit 1 posting (R187). -/
def Definition.optionsWord (d : Definition) : Word :=
  word ((if d.urgentAllowed then 1 else 0) + (if d.posting then 2 else 0))

/-- A definition as its six field words (R187). -/
def Definition.raw (d : Definition) : RawDefinition :=
  { first := word d.first, last := word d.last, kind := word d.kind.code, rights := d.rightsWord, cls := word d.cls.code,
    options := d.optionsWord }

/-- The six field words in order (R187). -/
def rawWords (r : RawDefinition) : List Word := [r.first, r.last, r.kind, r.rights, r.cls, r.options]

/-- The kind a word names (R185). -/
def kindOf (w : Word) : Option ExtentKind :=
  if w = 0 then some .opn else if w = 1 then some .append else if w = 2 then some .guarded else none

/-- The class a word names (R185). -/
def classOf (w : Word) : Option WorkClass :=
  if w = 0 then some .urgent else if w = 1 then some .setup else if w = 2 then some .log else if w = 3 then some .bulk else none

/-- The definition that field words hold, when it is well formed (R14): every field one of its named values and
1 ≤ first ≤ last ≤ 319. -/
def wellFormedDefinition (r : RawDefinition) : Option Definition :=
  match kindOf r.kind, classOf r.cls with
  | some k, some c =>
    if r.rights < 16 ∧ r.options < 4 ∧ 1 ≤ r.first.toNat ∧ r.first.toNat ≤ r.last.toNat ∧ r.last.toNat ≤ 319 then
      some { first := r.first.toNat, last := r.last.toNat, kind := k,
             readA := r.rights.getLsbD 0, writeA := r.rights.getLsbD 1, readB := r.rights.getLsbD 2,
             writeB := r.rights.getLsbD 3, cls := c, urgentAllowed := r.options.getLsbD 0, posting := r.options.getLsbD 1 }
    else none
  | _, _ => none

/-! ## Replies as words (R185 to R187) -/

/-- A claim value: holder, token, lease, remaining (R33, R187). -/
def ClaimRecord.words (c : ClaimRecord) : List Word :=
  [word (holderCode c.holder), word c.token, word c.lease, word c.remaining]

/-- A defect list entry (R187). -/
def Defect.words (d : Defect) : List Word :=
  [word d.cylinder, word d.head, word d.sector, word d.cause.code] ++ longWords d.firstSeen ++ [word d.count]

/-- A MAP-READ entry (R187). -/
def MapEntry.words (m : MapEntry) : List Word :=
  word m.slot.val :: rawWords m.extent.defn.raw
    ++ presence (fun f : Fill => [word f.mark, word f.state.code]) m.extent.fill
    ++ presence (fun f : Fill => [word f.pending]) m.extent.fill
    ++ [boolWord m.extent.clearing, word (holderCode m.holder)]

/-- A posted fault log entry (R187). -/
def FaultEntry.words (e : FaultEntry) : List Word :=
  [word e.tag, word e.slot.val] ++ presence (fun n => [word n]) e.first
    ++ [word e.count, word e.committed, word e.cause.code, word e.generation] ++ longWords e.clock

/-- Five counts, in the order of the states (R187). -/
def WorkCounts.words (c : WorkCounts) : List Word :=
  [word c.queued, word c.active, word c.parked, word c.watching, word c.finished]

/-- The six levels, a word each, 1 for ACTIVE (log 12). -/
def levelWords (l : LineSet) : List Word :=
  [boolWord (l.getLsbD 0), boolWord (l.getLsbD 1), boolWord (l.getLsbD 2), boolWord (l.getLsbD 3), boolWord (l.getLsbD 4),
   boolWord (l.getLsbD 5)]

/-- The status record: the fields of R182 in table order (R187). -/
def StatusRecord.words (r : StatusRecord) : List Word :=
  [word r.volume.code, word r.generation] ++ presence (fun l : LabelState => [word l.code]) r.label
    ++ presence longWords r.serial ++ [boolWord r.mapModified]
    ++ [word r.sequencer.code, word (r.cylinder.getD 0xFFFF), word r.phase.code, word r.direction.code, boolWord r.overflow]
    ++ r.work.a.words ++ r.work.b.words ++ [word r.posted]
    ++ [word r.holdingA, word r.holdingB]
    ++ [word r.sweepPhase.code] ++ presence (fun k : Slot => [word k.val]) r.sweepSlot
    ++ presence (fun n => [word n]) r.sweepSector
    ++ levelWords r.levels ++ [r.events.setWidth 16, r.changed.setWidth 16]
    ++ r.claim.words ++ longWords r.clock

/-- The kind-specific body of a completion (R187). -/
def Body.words : Body → List Word
  | .none => []
  | .read sectors => sectors.flatten
  | .append start => presence (fun n => [word n]) start
  | .claim v => v.words
  | .map g m es => [word g, boolWord m, word es.length] ++ (es.map MapEntry.words).flatten
  | .defects es o => word es.length :: (es.map Defect.words).flatten ++ [boolWord o]
  | .sweep rs => word rs.length :: (rs.map (fun r => [word r.1.val, word r.2.code])).flatten
  | .status r => r.words
  | .faultRead e o => presence FaultEntry.words e ++ [word o]

/-- A condition entry: sector index in bits 15-8, condition code in bits 7-0 (R186). -/
def conditionWord (c : Nat × Condition) : Word := word (c.1 * 256 + c.2.toCode.code)

/-- The body of a completion: its header, its conditions, its kind-specific body (R186). -/
def Completion.words (c : Completion) : List Word :=
  [word (c.kind.code * 256 + c.outcome.code),
   word ((if c.late then 0x8000 else 0) + c.conditions.length * 16 + c.sectorsDone)]
    ++ c.conditions.map conditionWord ++ c.body.words

/-- A frame: header word, length word, body, check word (R185). -/
def frameWords (kind tag : Nat) (body : List Word) : List Word :=
  let front := word (kind * 256 + tag) :: word body.length :: body
  front ++ [crc front]

/-- The words in which a reply leaves (R178, R185, R186). -/
def Reply.words : Reply → List Word
  | .completion c => frameWords 0xA0 c.tag c.words
  | .linkReject tag reason taken => frameWords 0xA1 tag [word reason.code, word taken]

/-- How many words a reply has: its body and the three words around it (R185). -/
def Reply.size : Reply → Nat
  | .completion c => c.words.length + 3
  | .linkReject _ _ _ => 5

end Sys2Proof.Machine
end

