-- ==== Sys2Proof/Machine/Flags.lean ====
section
/-! DEFINITION. Event sets and ATTENTION (R179, R180), the reported lines and changed-line sets (R137, R138). -/

namespace Sys2Proof.Machine

/-- The bit number of an event kind (R179, R185). -/
def EventKind.index : EventKind → Nat
  | .replyDelivered => 0
  | .postedFault => 1
  | .volumeChange => 2
  | .claimChange => 3
  | .sweepEnd => 4
  | .lineChange => 5
  | .late => 6

/-- The event set that holds one kind. -/
def EventKind.bit (k : EventKind) : EventSet := BitVec.ofNat 7 (2 ^ k.index)

/-- Whether an event set holds a kind. -/
def hasEvent (es : EventSet) (k : EventKind) : Bool := es.getLsbD k.index

/-- The bit number of a reported line (R185). -/
def lineIndex : Line → Nat
  | .ready => 0
  | .door => 1
  | .protect => 2
  | .unload => 3
  | .fault => 4
  | .power => 5

/-- The set that holds one line. -/
def lineBit (l : Line) : LineSet := BitVec.ofNat 6 (2 ^ lineIndex l)

/-- Whether a set of lines holds a line. -/
def hasLine (ls : LineSet) (l : Line) : Bool := ls.getLsbD (lineIndex l)

/-- ATTENTION is active while the event set and the attention mask share a kind (R179). -/
def Port.attention (p : Port) : Bool := (p.events &&& p.context.attnMask) != 0

/-- Adding a kind to a port's event set; a kind already present leaves it as it is (R179). -/
def Port.raise (p : Port) (k : EventKind) : Port := { p with events := p.events ||| k.bit }

/-- Removing kinds from the event set; LINE-CHANGE among them empties the changed-line set too (R181). -/
def Port.acknowledge (p : Port) (es : EventSet) : Port :=
  { p with events := p.events &&& ~~~es, changed := if hasEvent es .lineChange then 0 else p.changed }

/-- A change of a reported line at one port: joined to the changed-line set with LINE-CHANGE when the line mask includes it (R138). -/
def Port.reportLine (p : Port) (l : Line) : Port :=
  if hasLine p.context.lineMask l then { p with changed := p.changed ||| lineBit l, events := p.events ||| EventKind.lineChange.bit }
  else p

/-- The word a port offers on its outbound path: the next word of its oldest reply; none while its queue is empty or RESET is
active (R178, R184). Outbound FRAME is taken as active exactly while a word is offered, so no state stands for the moment between two
replies in which R178 has it inactive: the model's choice (log 40). -/
def Port.offered (p : Port) : Option Word :=
  if p.resetActive then none else p.queue.head?.bind (fun r => r.words[p.outTaken]?)

/-- How a delivered reply bears on REPLY-DELIVERED (R180): at once for a LINK-REJECT and for an outcome other than DONE and
POSTED. -/
def Reply.alarming : Reply → Bool
  | .linkReject _ _ _ => true
  | .completion c => c.outcome != .done && c.outcome != .posted

/-- The port once a reply has been delivered: REPLY-DELIVERED set at once with the timer stopped for an alarming reply, set at once
for a delay of 0, and otherwise left to the timer, started afresh (R180). -/
def Port.delivered (p : Port) (r : Reply) : Port :=
  if r.alarming then { p.raise .replyDelivered with attnTimer := none }
  else if p.context.attnDelay = 0 then p.raise .replyDelivered
  else { p with attnTimer := some p.context.attnDelay }

/-- The port under a context just loaded (R64, R180): a delay of 0 stops a running timer and sets REPLY-DELIVERED. -/
def Port.loadContext (p : Port) (c : Context) : Port :=
  if c.attnDelay = 0 ∧ p.attnTimer.isSome then { p.raise .replyDelivered with context := c, attnTimer := none }
  else { p with context := c }

end Sys2Proof.Machine
end

