-- ==== Sys2Proof/Machine/Operands.lean ====
section
/-! DEFINITION. The operand forms of the request kinds: a body's words read by the layouts of R186 and R187, with the form check
of R52. A body that fails the form check reads as none. -/

namespace Sys2Proof.Machine

/-- The slot a number names, 0 to 31; none above (R52). -/
def slotOf (n : Nat) : Option Slot := if h : n < 32 then some ⟨n, h⟩ else none

/-- The flags of body word 0: bit 15 FORCE, 14 URGENT, 13 MEDIUM, 12 QUIET (R186). -/
def flagsOf (w : Word) : Flags :=
  { quiet := w.getLsbD 12, medium := w.getLsbD 13, urgent := w.getLsbD 14, force := w.getLsbD 15 }

/-- Body word 0 of a READ, WRITE or APPEND: the slot in bits 7-0, bits 11-8 zero (R186; a word with any of them set is a fault
of form, log 11). -/
def headSlot (w : Word) : Option Slot :=
  if (w &&& 0x0F00#16) = 0 then slotOf (lowByte w) else none

/-- The operands of a READ, WRITE or APPEND; `first` is 0 for an APPEND, which names no sector. -/
structure DataOperands where
  slot : Slot
  first : Nat
  count : Nat
  flags : Flags
  deriving DecidableEq, Repr

/-- READ (R54): length 3, slot 0-31, count 1-8, first 0-7655, no flag but URGENT (R57). -/
def readOperands (r : Request) : Option DataOperands :=
  match r.body with
  | [w, c, f] =>
    match headSlot w with
    | some k =>
      if r.length = 3 ∧ 1 ≤ c.toNat ∧ c.toNat ≤ 8 ∧ f.toNat ≤ 7655 ∧ (flagsOf w).quiet = false ∧ (flagsOf w).medium = false
          ∧ (flagsOf w).force = false then
        some { slot := k, first := f.toNat, count := c.toNat, flags := flagsOf w }
      else none
    | none => none
  | _ => none

/-- WRITE (R55): as a READ, any flags, and exactly count × 256 data words. -/
def writeOperands (r : Request) : Option DataOperands :=
  match r.body with
  | [w, c, f] =>
    match headSlot w with
    | some k =>
      if 1 ≤ c.toNat ∧ c.toNat ≤ 8 ∧ r.length = 3 + 256 * c.toNat ∧ f.toNat ≤ 7655 then
        some { slot := k, first := f.toNat, count := c.toNat, flags := flagsOf w }
      else none
    | none => none
  | _ => none

/-- APPEND (R56): slot, count 1-8, exactly count × 256 data words, and not the FORCE flag. -/
def appendOperands (r : Request) : Option DataOperands :=
  match r.body with
  | [w, c] =>
    match headSlot w with
    | some k =>
      if 1 ≤ c.toNat ∧ c.toNat ≤ 8 ∧ r.length = 2 + 256 * c.toNat ∧ (flagsOf w).force = false then
        some { slot := k, first := 0, count := c.toNat, flags := flagsOf w }
      else none
    | none => none
  | _ => none

/-- A request with no body fields: FLUSH, MAP-READ, DEFECT-READ, SWEEP-HALT, STATUS, FAULT-READ (R187). -/
def emptyOperands (r : Request) : Option Unit := if r.length = 0 then some () else none

/-- CANCEL (R58): the target tag, 0 to 255. -/
def cancelOperands (r : Request) : Option Nat :=
  match r.body with
  | [t] => if t.toNat ≤ 255 then some t.toNat else none
  | _ => none

/-- The operands of a CLAIM: target, expected pair, new pair, lease. -/
structure ClaimOperands where
  target : ClaimTarget
  expHolder : Option Channel
  expToken : Nat
  newHolder : Option Channel
  newToken : Nat
  lease : Nat
  deriving DecidableEq, Repr

/-- The target a word names: 0-31 a slot, 32 CONTROLLER (R187). -/
def claimTargetOf (w : Word) : Option ClaimTarget :=
  if w = 32 then some .controller else (slotOf w.toNat).map ClaimTarget.extent

/-- A pair keeps the law of R33: the holder is NONE exactly when the token is 0. -/
def pairLawful (holder : Option Channel) (token : Nat) : Bool := holder.isNone == (token == 0)

/-- CLAIM: the form of R187 and checks 1 to 4 of R35, all of which give BAD-REQUEST. -/
def claimOperands (ch : Channel) (r : Request) : Option ClaimOperands :=
  match r.body with
  | [t, eh, et, nh, nt, le] =>
    match claimTargetOf t, holderOf eh, holderOf nh with
    | some target, some expHolder, some newHolder =>
      if (newHolder = none ∨ newHolder = some ch) ∧ pairLawful expHolder et.toNat = true
          ∧ pairLawful newHolder nt.toNat = true
          ∧ (le.toNat = 0 ∨ (100 ≤ le.toNat ∧ le.toNat ≤ 60000)) ∧ (newHolder = none → le.toNat = 0) then
        some { target := target, expHolder := expHolder, expToken := et.toNat, newHolder := newHolder, newToken := nt.toNat,
               lease := le.toNat }
      else none
    | _, _, _ => none
  | _ => none

/-- A change of a MAP-LOAD: a slot word and a definition, or ABSENT (R29). -/
structure Change where
  slot : Nat
  defn : Option RawDefinition
  deriving DecidableEq, Repr

/-- `n` changes from the front of the words, and what is left; none when the words run out, or a presence word is neither 0 nor 1
(log 11). -/
def changesOf : Nat → List Word → Option (List Change × List Word)
  | 0, ws => some ([], ws)
  | n + 1, k :: p :: ws =>
    if p = 0 then
      match changesOf n ws with
      | some (cs, rest) => some ({ slot := k.toNat, defn := none } :: cs, rest)
      | none => none
    else if p = 1 then
      match ws with
      | f :: l :: kd :: ri :: cl :: op :: ws =>
        match changesOf n ws with
        | some (cs, rest) =>
          some ({ slot := k.toNat,
                  defn := some { first := f, last := l, kind := kd, rights := ri, cls := cl, options := op } } :: cs, rest)
        | none => none
      | _ => none
    else none
  | _ + 1, _ => none

/-- MAP-LOAD: its length alone (R52), and check 1 of R29: 1 to 32 changes. -/
def mapLoadOperands (r : Request) : Option (List Change) :=
  match r.body with
  | n :: ws =>
    if 1 ≤ n.toNat ∧ n.toNat ≤ 32 then
      match changesOf n.toNat ws with
      | some (cs, []) => some cs
      | _ => none
    else none
  | [] => none

/-- MAP-STORE (R61): the volume serial, 2 words. -/
def mapStoreOperands (r : Request) : Option (BitVec 32) :=
  match r.body with
  | [hi, lo] => some (longOf hi lo)
  | _ => none

/-- TIME-SET (R62): the clock value, 2 words. -/
def timeSetOperands (r : Request) : Option Millis :=
  match r.body with
  | [hi, lo] => some (longOf hi lo)
  | _ => none

/-- The slots of words; none when one is above 31. -/
def slotsOf : List Word → Option (List Slot)
  | [] => some []
  | w :: ws =>
    match slotOf w.toNat, slotsOf ws with
    | some k, some ks => some (k :: ks)
    | _, _ => none

/-- A slot named more than once is kept once, at its first place (R59, R164). -/
def dedupFirst : List Slot → List Slot
  | [] => []
  | k :: ks => k :: (dedupFirst ks).filter (fun j => j ≠ k)

/-- CLEAR and SCAN (R59): 1 to 8 slots, each 0-31. -/
def sweepOperands (r : Request) : Option (List Slot) :=
  match r.body with
  | n :: ws => if 1 ≤ n.toNat ∧ n.toNat ≤ 8 ∧ ws.length = n.toNat then (slotsOf ws).map dedupFirst else none
  | [] => none

/-- EVENT-ACK (R62): a set of the seven event kinds. -/
def eventAckOperands (r : Request) : Option EventSet :=
  match r.body with
  | [w] => if w < 128 then some (w.setWidth 7) else none
  | _ => none

/-- The field words of a CONTEXT, by length alone (R52). -/
structure RawContext where
  gen : Word
  span : Option (Word × Word × Word)
  verify : Word
  attnMask : Word
  delay : Word
  lineMask : Word
  deriving DecidableEq, Repr

/-- CONTEXT: its body's length alone (R52); a presence word that is neither 0 nor 1 fits no length (log 11). -/
def contextOperands (r : Request) : Option RawContext :=
  match r.body with
  | [g, p, v, m, d, l] =>
    if p = 0 then some { gen := g, span := none, verify := v, attnMask := m, delay := d, lineMask := l } else none
  | [g, p, s, e, i, v, m, d, l] =>
    if p = 1 then some { gen := g, span := some (s, e, i), verify := v, attnMask := m, delay := d, lineMask := l } else none
  | _ => none

/-- A check span in range: word numbers 0-255, start ≤ end, the insert word outside start to end (R63, R64). -/
def spanOk (s e i : Nat) : Bool :=
  decide (s ≤ 255 ∧ e ≤ 255 ∧ i ≤ 255 ∧ s ≤ e ∧ (i < s ∨ e < i))

/-- The context the words hold when R64 finds nothing wrong with them; none is BAD-CONTEXT. -/
def contextOf (c : RawContext) : Option Context :=
  if c.gen.toNat ≤ 255 ∧ (c.verify = 0 ∨ c.verify = 1) ∧ c.attnMask < 128 ∧ c.delay.toNat ≤ 15 ∧ c.lineMask < 64 then
    match c.span with
    | none =>
      some { expectedGen := c.gen.toNat, span := none, verify := c.verify == 1, attnMask := c.attnMask.setWidth 7,
             attnDelay := c.delay.toNat, lineMask := c.lineMask.setWidth 6 }
    | some (s, e, i) =>
      if spanOk s.toNat e.toNat i.toNat then
        some { expectedGen := c.gen.toNat, span := some { first := s.toNat, last := e.toNat, insert := i.toNat },
               verify := c.verify == 1, attnMask := c.attnMask.setWidth 7, attnDelay := c.delay.toNat,
               lineMask := c.lineMask.setWidth 6 }
      else none
  else none

/-- A row of the class table from its five words, in the ranges of R65. -/
def classRowOf : List Word → Option ClassRow
  | [d, l, r, w, y] =>
    if d.toNat ≤ 5000 ∧ (l = 0 ∨ l = 1) ∧ r.toNat ≤ 7 ∧ w.toNat ≤ 7 ∧ (y = 0 ∨ y = 1) then
      some { deadline := d.toNat, lateAction := if l = 0 then .mark else .abandon, readRetries := r.toNat,
             writeRetries := w.toNat, yields := y == 1 }
    else none
  | _ => none

/-- SETTINGS-LOAD: its body's length alone (R52, R187). -/
def settingsOperands (r : Request) : Option (List Word) := if r.body.length = 25 then some r.body else none

/-- The settings that 25 words hold when check 2 of R66 finds nothing wrong with them; none is BAD-SETTINGS. -/
def settingsOf (ws : List Word) : Option Settings :=
  match classRowOf (ws.take 5), classRowOf ((ws.drop 5).take 5), classRowOf ((ws.drop 10).take 5),
      classRowOf ((ws.drop 15).take 5), ws.drop 20 with
  | some u, some s, some l, some b, [qa, qb, dt, so, pm] =>
    if 8 ≤ qa.toNat ∧ qa.toNat ≤ 16 ∧ 8 ≤ qb.toNat ∧ qb.toNat ≤ 16 ∧ qa.toNat + qb.toNat ≤ 24
        ∧ 1000 ≤ dt.toNat ∧ dt.toNat ≤ 30000 ∧ (so = 0 ∨ so = 1) ∧ (pm = 0 ∨ pm = 1) then
      some { urgent := u, setup := s, log := l, bulk := b, quotaA := qa.toNat, quotaB := qb.toNat, drainTimeout := dt.toNat,
             storeOnUnload := so == 1, powerMode := if pm = 0 then .sectorEnd else .immediate }
    else none
  | _, _, _, _, _ => none

end Sys2Proof.Machine
end

