-- ==== Sys2Proof/Machine/Ops.lean ====
section
/-! DEFINITION. The named operations over the controller's tables, shared by the meanings of the commands: ports and logs, extents,
claims, the buffer pool, the work list and the posted list, the defect list, the medium, and what ends a drain. -/

namespace Sys2Proof.Machine

/-! ## Ports, logs, lines -/

/-- The port of a channel. -/
def State.port (s : State) (ch : Channel) : Port := s.ports.get ch

/-- The state with one port changed. -/
def State.updPort (s : State) (ch : Channel) (f : Port → Port) : State :=
  { s with ports := s.ports.set ch (f (s.ports.get ch)) }

/-- A kind joins one port's event set (R179). -/
def raise (ch : Channel) (k : EventKind) (s : State) : State := s.updPort ch (fun p => p.raise k)

/-- A kind joins both ports' event sets. -/
def raiseBoth (k : EventKind) (s : State) : State :=
  { s with ports := { a := s.ports.a.raise k, b := s.ports.b.raise k } }

/-- Whether a reported line is ACTIVE by the line monitor's level (R137). -/
def State.lineActive (s : State) (l : Line) : Bool := hasLine s.levels l

/-- Whether a reported line is ACTIVE for the blocks that act on it (R137, log 9). -/
def State.ownerActive (s : State) (l : Line) : Bool := hasLine s.acted l

/-- A set of lines with one line put in it or taken out. -/
def setLine (l : Line) (active : Bool) (ls : LineSet) : LineSet := if active then ls ||| lineBit l else ls &&& ~~~(lineBit l)

/-- The line monitor takes a change of a line: its level changes, and each port whose mask includes it is told (R137, R138). -/
def takeLine (l : Line) (active : Bool) (s : State) : State :=
  { s with
    levels := setLine l active s.levels
    ports := { a := s.ports.a.reportLine l, b := s.ports.b.reportLine l } }

/-- A write hold is in force for the whole of a period of POWER activity (R79, R143). -/
def State.writeHold (s : State) : Bool := s.powerPeriod.isSome

/-- A work-list or posted-list place has become free: a waiting request is due to be taken afresh (R48). -/
def Stage.placeFreed : Stage → Stage
  | .waiting r _ => .waiting r true
  | st => st

/-- A place has become free: the waiting requests of both stages are due (R48). -/
def placeFreed (s : State) : State :=
  { s with ports := { a := { s.ports.a with stage := s.ports.a.stage.placeFreed }
                      b := { s.ports.b with stage := s.ports.b.stage.placeFreed } } }

/-! ## Geometry (R1 to R4) -/

/-- The cylinder of a relative sector of an extent whose first cylinder is `base` (R3). -/
def cylinderOf (base m : Nat) : Nat := base + m / 24

/-- The head of a relative sector (R3). -/
def headOf (m : Nat) : Nat := m % 24 / 12

/-- The sector number of a relative sector (R3). -/
def sectorOf (m : Nat) : Nat := m % 12

/-- The place in disk order of a relative sector (R2). -/
def diskOrder (base m : Nat) : Nat := base * 24 + m

/-- The size of an extent (R3). -/
def Definition.size (d : Definition) : Nat := (d.last - d.first + 1) * 24

/-- How many sectors the run from relative sector `n` with `k` remaining holds (R4). -/
def runLength (n k : Nat) : Nat := min k (24 - n % 24)

/-! ## Extents (chapter 2) -/

/-- The extent in a slot. -/
def State.extent (s : State) (k : Slot) : Option Extent := s.extents.get k

/-- The state with the extent in a slot changed, when it is present. -/
def updExtent (k : Slot) (f : Extent → Extent) (s : State) : State :=
  { s with extents := s.extents.set k.val ((s.extents.get k).map f) k.isLt }

/-- The state with the runtime fill fields of a slot changed, when it has them. -/
def updFill (k : Slot) (f : Fill → Fill) (s : State) : State :=
  updExtent k (fun e => { e with fill := e.fill.map f }) s

/-- The fill fields of a slot; none for an absent slot and for OPEN and GUARDED extents. -/
def State.fill (s : State) (k : Slot) : Option Fill := (s.extent k).bind (fun e => e.fill)

/-- The fill mark of a slot, 0 where it has none. -/
def State.fillMark (s : State) (k : Slot) : Nat := ((s.fill k).map (fun f => f.mark)).getD 0

/-- Whether a definition gives a channel read right (R18). -/
def Definition.mayRead (d : Definition) : Channel → Bool
  | .A => d.readA
  | .B => d.readB

/-- Whether a definition gives a channel write right (R18). -/
def Definition.mayWrite (d : Definition) : Channel → Bool
  | .A => d.writeA
  | .B => d.writeB

/-- The class of a request's work (R19). -/
def classFor (d : Definition) (urgent : Bool) : WorkClass := if urgent && d.urgentAllowed then .urgent else d.cls

/-- The class table row of a class (R65). -/
def Settings.row (t : Settings) : WorkClass → ClassRow
  | .urgent => t.urgent
  | .setup => t.setup
  | .log => t.log
  | .bulk => t.bulk

/-- Appends pending falls by the sectors that will not be, or have been, appended (R25). -/
def lowerPending (k : Slot) (n : Nat) (s : State) : State := updFill k (fun f => { f with pending := f.pending - n }) s

/-! ## Claims (chapter 3) -/

/-- A claim record. -/
def State.claim (s : State) : ClaimTarget → ClaimRecord
  | .controller => s.ctlClaim
  | .extent k => s.extClaims.get k

/-- The state with one claim record replaced. -/
def setClaim (t : ClaimTarget) (c : ClaimRecord) (s : State) : State :=
  match t with
  | .controller => { s with ctlClaim := c }
  | .extent k => { s with extClaims := s.extClaims.set k.val c k.isLt }

/-- Whether a channel holds the controller claim (R45). -/
def State.holdsController (s : State) (ch : Channel) : Bool := s.ctlClaim.holder == some ch

/-- Whether an extent's claim is held for a piece of work by a channel with an admission token (R40). -/
def State.claimHeld (s : State) (k : Slot) (ch : Channel) (token : Nat) : Bool :=
  (s.claim (.extent k)).holder == some ch && (s.claim (.extent k)).token == token

/-- Work with no admission token meets no claim check; work with one must hold its extent's claim (R40, R41). -/
def State.mayWriteNow (s : State) (k : Slot) (ch : Channel) (token : Option Nat) : Bool :=
  match token with
  | none => true
  | some t => s.claimHeld k ch t

/-! ## The buffer pool (R96 to R99) -/

/-- Buffers held by a frame arriving: its reservation and its write data buffers (R97). -/
def Frame.holding (f : Frame) : Nat := f.reserved + f.buffers.length + (if f.filling.isEmpty then 0 else 1)

/-- Buffers held by what the inbound path is doing. -/
def Receiver.holding : Receiver → Nat
  | .receiving f => f.holding
  | _ => 0

/-- Buffers held by a request in a stage (R48). -/
def Request.holding (r : Request) : Nat := r.buffers.length + r.reserved

/-- Read run buffers held by a reply until it is delivered or discarded (R98). -/
def Reply.holding : Reply → Nat
  | .completion c => match c.body with | .read sectors => sectors.length | _ => 0
  | .linkReject _ _ _ => 0

/-- Buffers held by the admission stage. -/
def Stage.holding : Stage → Nat
  | .empty => 0
  | .request r => r.holding
  | .waiting r _ => r.holding
  | .reply r => r.holding

/-- Buffers held by a port: the frame arriving, the stage, and the replies in the queue. -/
def Port.holding (p : Port) : Nat := p.receiver.holding + p.stage.holding + (p.queue.map Reply.holding).sum

/-- Buffers and reservations charged to a work entry (R72). -/
def Entry.holding (e : Entry) : Nat := e.writeBuffers.length + e.readBuffers.length + e.allocated + e.reserved

/-- The holding of a channel, reservations included (R96). -/
def State.holding (s : State) (ch : Channel) : Nat :=
  (s.port ch).holding + ((s.work.filter (fun e => e.channel = ch)).map Entry.holding).sum
    + ((s.posted.filter (fun p => p.channel = ch)).map (fun p => p.buffers.length)).sum

/-- The quota of a channel (R65). -/
def Settings.quota (t : Settings) : Channel → Nat
  | .A => t.quotaA
  | .B => t.quotaB

/-- A channel's quota less its holding (R96). -/
def State.unused (s : State) (ch : Channel) : Nat := s.settings.quota ch - s.holding ch

/-! ## The work list (chapter 5) -/

/-- The entry with an admission order. -/
def State.entry (s : State) (n : Nat) : Option Entry := s.work.find? (fun e => e.order = n)

/-- The state with the entry of an admission order changed. -/
def updEntry (n : Nat) (f : Entry → Entry) (s : State) : State :=
  { s with work := s.work.map (fun e => if e.order = n then f e else e) }

/-- An entry leaves the list, and a place is free (R71). -/
def dropEntry (n : Nat) (s : State) : State := placeFreed { s with work := s.work.filter (fun e => e.order ≠ n) }

/-- The posted write with an admission order. -/
def State.postedWrite (s : State) (n : Nat) : Option Posted := s.posted.find? (fun p => p.order = n)

/-- The state with the posted write of an admission order changed. -/
def updPosted (n : Nat) (f : Posted → Posted) (s : State) : State :=
  { s with posted := s.posted.map (fun p => if p.order = n then f p else p) }

/-- An entry is unfinished while it is QUEUED, ACTIVE, PARKED or WATCHING (R73). -/
def Entry.unfinished (e : Entry) : Bool := e.state != .finished

/-- QUEUED, ACTIVE and PARKED entries wait for or hold the drive; these are volume work (R157). -/
def Entry.live (e : Entry) : Bool := e.state == .queued || e.state == .active || e.state == .parked

/-- Whether the work list has a place for a channel: fewer than 16 entries in all and fewer than 10 of the channel (R48, R71). -/
def State.hasPlace (s : State) (ch : Channel) : Bool :=
  decide (s.work.length < 16 ∧ (s.work.filter (fun e => e.channel = ch)).length < 10)

/-- The next sector of an entry's next run (R4): for an APPEND the extent's fill mark. -/
def State.nextSector (s : State) (e : Entry) : Nat :=
  match e.kind, e.slot with
  | .append, some k => s.fillMark k
  | _, _ => e.first + e.done

/-- The sectors an entry has still to read, write or append (R4). -/
def Entry.remaining (e : Entry) : Nat := e.count - e.done

/-- A report of a sector's condition enters the list at its index, in ascending index, replacing an earlier one (R89). -/
def addCondition (i : Nat) (c : Condition) : List (Nat × Condition) → List (Nat × Condition)
  | [] => [(i, c)]
  | (j, d) :: rest =>
    if i < j then (i, c) :: (j, d) :: rest
    else if i = j then (i, c) :: rest
    else (j, d) :: addCondition i c rest

/-- A report to an entry (R89). -/
def reportCondition (n i : Nat) (c : Condition) (s : State) : State :=
  updEntry n (fun e => { e with conditions := addCondition i c e.conditions }) s

/-- The highest-ranked condition of a READ, in the order MEDIUM-ERROR, CHECK-MISMATCH, VOID, BLANK; DONE when there is none (R90). -/
def readOutcome (cs : List (Nat × Condition)) : Code :=
  if cs.any (fun c => c.2 = .mediumError) then .mediumError
  else if cs.any (fun c => c.2 = .checkMismatch) then .checkMismatch
  else if cs.any (fun c => c.2 = .void) then .void
  else if cs.any (fun c => c.2 = .blank) then .blank
  else .done

/-- The outcome of an entry with no sectors remaining and no ending reported (R90). -/
def Entry.normalOutcome (e : Entry) : Code :=
  match e.kind with
  | .read => readOutcome e.conditions
  | _ => .done

/-- The request kind an entry came from. -/
def WorkKind.request : WorkKind → ReqKind
  | .read => .read
  | .write => .write
  | .append => .append
  | .flush => .flush
  | .mapStore => .mapStore

/-- The kind-specific body of an entry's completion (R69). -/
def Entry.body (e : Entry) : Body :=
  match e.kind with
  | .read => .read e.readBuffers
  | .append => .append e.appendStart
  | _ => .none

/-- The completion of a FINISHED entry (R68, R90): the late flag only on DONE. -/
def Entry.completion (e : Entry) : Completion :=
  { tag := e.tag, kind := e.kind.request, outcome := e.outcome.getD .done, late := e.late && e.outcome == some .done,
    sectorsDone := e.done, conditions := e.conditions, body := e.body }

/-! ## Replies and the due list (R177) -/

/-- One member of a due list joins the reply queue: the stage empties, or the entry leaves the work list (R177). -/
def placeReply (ch : Channel) (d : Due) (s : State) : State :=
  match d with
  | .stage =>
    match (s.port ch).stage with
    | .reply r => s.updPort ch (fun p => { p with stage := .empty, queue := p.queue ++ [r] })
    | _ => s
  | .entry n =>
    match s.entry n with
    | some e => dropEntry n (s.updPort ch (fun p => { p with queue := p.queue ++ [.completion e.completion] }))
    | none => s
  | .sweep c => s.updPort ch (fun p => { p with queue := p.queue ++ [.completion c] })

/-- The due list's oldest members join the queue while it holds fewer than 4 replies (R177). -/
def placeList (ch : Channel) : List Due → State → State
  | [], s => s.updPort ch (fun p => { p with due := [] })
  | d :: ds, s =>
    if (s.port ch).queue.length < 4 then placeList ch ds (placeReply ch d s)
    else s.updPort ch (fun p => { p with due := d :: ds })

/-- A channel's due list gives the queue what it has room for (R177). -/
def placeDue (ch : Channel) (s : State) : State := placeList ch (s.port ch).due s

/-- Both channels' due lists. -/
def placeBoth (s : State) : State := placeDue .B (placeDue .A s)

/-- A reply becomes due (R177). -/
def addDue (ch : Channel) (d : Due) (s : State) : State := s.updPort ch (fun p => { p with due := p.due ++ [d] })

/-- A reply is formed in the stage, becomes due, and moves to the queue if it has room (R47, R177). -/
def formReply (ch : Channel) (r : Reply) (s : State) : State :=
  placeDue ch (addDue ch .stage (s.updPort ch (fun p => { p with stage := .reply r })))

/-- The completion of an immediate request (R47, R68). -/
def Request.completion (r : Request) (outcome : Code) (body : Body) : Completion :=
  { tag := r.tag, kind := r.kind, outcome := outcome, late := false, sectorsDone := 0, conditions := [], body := body }

/-- An admitted request whose effect is complete takes its place in the admission order, and its completion is formed in the
stage (R47, R50). -/
def complete (ch : Channel) (r : Request) (outcome : Code) (body : Body) (s : State) : State :=
  formReply ch (.completion (r.completion outcome body)) { s with nextOrder := s.nextOrder + 1 }

/-! ## Read reservations (R98) -/

/-- The length of the run that follows the one a started READ is in or will start next: what its reservation aims at (R98, log 18). -/
def Entry.reservationGoal (e : Entry) : Nat :=
  match e.state, e.run with
  | .active, some (start, len) => runLength (start + len) (e.first + e.count - (start + len))
  | .parked, _ => runLength (e.first + e.done) e.remaining
  | _, _ => 0

/-- One started READ's short reservation is topped up from the unused quota (R98). -/
def topUpOne (ch : Channel) (s : State) (e : Entry) : State :=
  if e.channel = ch ∧ e.kind = .read ∧ e.reserved < e.reservationGoal then
    updEntry e.order (fun x => { x with reserved := x.reserved + min (e.reservationGoal - e.reserved) (s.unused ch) }) s
  else s

/-- Room freed in a channel's quota goes first to its started READs whose reservations are short, oldest admission first (R98). -/
def topUp (ch : Channel) (s : State) : State := s.work.foldl (topUpOne ch) s

/-- Both channels. -/
def topUpBoth (s : State) : State := topUp .B (topUp .A s)

/-- A refusal: its completion is formed in the stage and the request's buffers are released (R47). -/
def refuse (ch : Channel) (r : Request) (code : Code) (s : State) : State :=
  topUp ch (formReply ch (.completion (r.completion code .none)) s)

/-! ## Endings of work (R90, R91, R104, R108) -/

/-- An entry's outcome is fixed (R90): an APPEND's unappended sectors leave appends pending, write data buffers, reservations and
unread run buffers are released, and the entry leaves the list (discard mark, or a clean QUIET DONE) or becomes FINISHED and
due (R70, R91, R92). -/
def endEntry (n : Nat) (code : Code) (s : State) : State :=
  match s.entry n with
  | none => s
  | some e =>
    let s := match e.kind, e.slot with
      | .append, some k => lowerPending k e.remaining s
      | _, _ => s
    if e.discard || (e.flags.quiet && code == .done && !e.late && e.conditions.isEmpty) then dropEntry n s
    else
      addDue e.channel (.entry n)
        (updEntry n (fun e => { e with state := .finished, outcome := some code, writeBuffers := [], allocated := 0,
                                        reserved := 0, run := none, deadline := none }) s)

/-- Entries end one after another, in the order given. -/
def endEntries (ns : List Nat) (code : Code) (s : State) : State := ns.foldl (fun s n => endEntry n code s) s

/-- A posted write's end is told to the FLUSH entries that watch it (R108). -/
def Entry.sawEnd (n : Nat) (fault : Bool) (e : Entry) : Entry :=
  if e.state = .watching ∧ n ∈ e.watched then
    { e with watched := e.watched.filter (fun m => m ≠ n), faultSeen := e.faultSeen || fault }
  else e

/-- A WATCHING entry whose watched set is empty ends DONE or FAULTED (R108). -/
def endFlush (s : State) (e : Entry) : State :=
  if e.state = .watching ∧ e.watched = [] then endEntry e.order (if e.faultSeen then .faulted else .done) s else s

/-- A posted write leaves the list: a place is free and the FLUSH entries watching it learn its end (R103, R108). -/
def postedLeaves (n : Nat) (fault : Bool) (s : State) : State :=
  let s := placeFreed { s with posted := s.posted.filter (fun p => p.order ≠ n), work := s.work.map (Entry.sawEnd n fault) }
  s.work.foldl endFlush s

/-- A posted write commits (R104). -/
def commitPosted (n : Nat) (s : State) : State := postedLeaves n false s

/-- An entry joins a posted fault log as its youngest, or is counted when the log holds 4 (R106). -/
def FaultLog.record (l : FaultLog) (e : FaultEntry) : FaultLog :=
  if l.entries.length < 4 then { l with entries := l.entries ++ [e] }
  else { l with overflow := min 255 (l.overflow + 1) }

/-- The log entry of a posted write that faults (R106). -/
def Posted.faultEntry (p : Posted) (cause : Code) (clock : Millis) : FaultEntry :=
  { tag := p.tag, slot := p.slot, first := p.first, count := p.count, committed := p.committed, cause := cause,
    generation := p.generation, clock := clock }

/-- A posted write's fault is recorded in its channel's log, or counted there (R106). -/
def logFault (cause : Code) (s : State) (p : Posted) : State :=
  { s with logs := s.logs.set p.channel ((s.logs.get p.channel).record (p.faultEntry cause s.clock)) }

/-- What a fault does besides its log entry (R104): an APPEND's unappended sectors leave appends pending, POSTED-FAULT is set, and the
posted write leaves the list with its buffers. -/
def leaveFaulted (p : Posted) (s : State) : State :=
  let s := if p.kind = .append then lowerPending p.slot p.buffers.length s else s
  postedLeaves p.order true (raise p.channel .postedFault s)

/-- One posted write faults (R104, R106). -/
def faultOne (n : Nat) (cause : Code) (s : State) : State :=
  match s.postedWrite n with
  | none => s
  | some p => leaveFaulted p (logFault cause s p)

/-- Posted writes fault one after another, in the order given. -/
def faultAll (ns : List Nat) (cause : Code) (s : State) : State := ns.foldl (fun s n => faultOne n cause s) s

/-- An expired drain timer waits for the access in progress to stop; in the step in which it has stopped every remaining posted write
faults (R158). -/
def State.drainEnding (s : State) : Bool := s.volume.state == .draining && s.volume.drainExpired

/-- The posted writes older than an admission order, in admission order. -/
def State.postedBefore (s : State) (n : Nat) : List Nat := (s.posted.filter (fun p => p.order < n)).map (fun p => p.order)

/-- A posted write faults with a cause of its own. Faults of one step are logged in admission order (R106), so where the step also ends
a drain whose timer has expired, the older posted writes fault VOLUME-GONE before it (R158). -/
def faultPosted (n : Nat) (cause : Code) (s : State) : State :=
  faultOne n cause (if s.drainEnding then faultAll (s.postedBefore n) .volumeGone s else s)

/-- An extent's fill state becomes UNKNOWN: every other unfinished APPEND on it ends FILL-UNKNOWN (R23). The APPEND whose own sector
is the cause has ended before, being older than all of them (R78), so the posted writes among them are logged in admission order (R106).
That work entries become due in admission order, before the FLUSHes that the faults end, is the model's choice (log 30). -/
def fillBecomesUnknown (k : Slot) (s : State) : State :=
  let s := updFill k (fun f => { f with state := .unknown }) s
  let es := s.work.filter (fun e => e.kind = .append ∧ e.slot = some k ∧ (e.state = .queued ∨ e.state = .parked))
  let ps := s.posted.filter (fun p => p.kind = .append ∧ p.slot = k ∧ p.committing = false)
  ps.foldl (fun s p => faultPosted p.order .fillUnknown s) (endEntries (es.map (fun e => e.order)) .fillUnknown s)

/-! ## The defect list (R134 to R136) -/

/-- Whether a defect entry carries an address. -/
def Defect.atAddress (d : Defect) (c h n : Nat) : Bool := decide (d.cylinder = c ∧ d.head = h ∧ d.sector = n)

/-- A failed sector is recorded (R135); sectors of cylinder 0 are not, and above cylinder 319 the cartridge has none (R1, R134). -/
def recordDefect (c h n : Nat) (cause : DefectCause) (s : State) : State :=
  if c = 0 ∨ 319 < c then s
  else if s.seq.defects.any (fun d => d.atAddress c h n) then
    { s with seq := { s.seq with defects := s.seq.defects.map (fun d =>
        if d.atAddress c h n then { d with cause := cause, count := min 255 (d.count + 1) } else d) } }
  else if s.seq.defects.length < 16 then
    { s with seq := { s.seq with defects := s.seq.defects ++
        [{ cylinder := c, head := h, sector := n, cause := cause, firstSeen := s.clock, count := 1 }] } }
  else { s with seq := { s.seq with overflow := true } }

/-- A listed sector is removed; the entries after it keep their order (R136). -/
def removeDefect (c h n : Nat) (s : State) : State :=
  { s with seq := { s.seq with defects := s.seq.defects.filter (fun d => !d.atAddress c h n) } }

/-- Whether a relative sector of an extent is listed (R55). -/
def State.listed (s : State) (base m : Nat) : Bool :=
  s.seq.defects.any (fun d => d.atAddress (cylinderOf base m) (headOf m) (sectorOf m))

/-! ## The medium (R8, R9) -/

/-- The record of a sector in a list kept in rising disk order. -/
def mediumAt (m : List (Nat × SectorRecord)) (a : Nat) : Option SectorRecord := (m.find? (fun x => x.1 = a)).map (fun x => x.2)

/-- The list with one sector's record put in its place. -/
def mediumSet (a : Nat) (r : SectorRecord) : List (Nat × SectorRecord) → List (Nat × SectorRecord)
  | [] => [(a, r)]
  | (b, q) :: rest =>
    if a < b then (a, r) :: (b, q) :: rest
    else if a = b then (a, r) :: rest
    else (b, q) :: mediumSet a r rest

/-- The record's form: places strictly rising and on the cartridge (R2). -/
def mediumWf (m : List (Nat × SectorRecord)) : Bool :=
  decide ((m.map (fun x => x.1)).Pairwise (· < ·)) && m.all (fun x => decide (x.1 < 7680))

/-- The header that the controller writes on the sector at a place in disk order (R5): the sector's own address, a state, and the check
word over them (R6). -/
def headerFor (a : Nat) (st : HeaderState) : HeaderImage :=
  { cylinder := word (a / 24), head := word (a % 24 / 12), sector := word (a % 12), state := st,
    check := headerCheck (word (a / 24)) (word (a % 24 / 12)) (word (a % 12)) st }

/-- The data field that the controller writes: the words and the check word over them (R5, R6). -/
def dataFor (ws : List Word) : DataRecord := .whole ws (crc ws)

/-- What the record of one sector keeps to: a whole header carries the sector's address and its check word, a whole data field its check
word (R5, R6). -/
def SectorRecord.sound (a : Nat) (r : SectorRecord) : Bool :=
  (match r.header with | .torn => true | .whole h => h == headerFor a h.state)
    && (match r.data with | .whole ws c => c == crc ws | _ => true)

/-- The data record a sector has before a write reaches its data field. -/
def State.oldData (s : State) (a : Nat) : DataRecord :=
  match mediumAt s.medium a with
  | some r => r.data
  | none => .untouched

/-- A header stands on the medium, whole or torn; the data field keeps what it held (R8, R9). -/
def putHeader (a : Nat) (h : HeaderRecord) (s : State) : State :=
  if a < 7680 then { s with medium := mediumSet a { header := h, data := s.oldData a } s.medium } else s

/-- A data field stands on the medium under a header just written, whole or torn (R8, R9). -/
def putData (a : Nat) (st : HeaderState) (d : DataRecord) (s : State) : State :=
  if a < 7680 then { s with medium := mediumSet a { header := .whole (headerFor a st), data := d } s.medium } else s

/-! ## The end of a drain (R157) and STOP (R160) -/

/-- The drive is free when it has no owner and the sequencer is IDLE (R115). -/
def State.driveFree (s : State) : Bool := s.seq.access.isNone && s.seq.state == .idle

/-- Volume work: live entries, posted writes and an unended sweep (R157). -/
def State.hasVolumeWork (s : State) : Bool := s.work.any Entry.live || !s.posted.isEmpty || s.sweep.isSome

/-- The sequencer issues STOP and enters STOPPING (R114). -/
def issueStop (s : State) : State :=
  { s with seq := { s.seq with state := .stopping, target := none, phase := .none, gate := false, accepted := false,
                               seekTimer := none, restoreTimer := none, faultTimer := none } }

/-- In RELEASING, STOP is issued once the sequencer is IDLE with no access (R160). -/
def releaseStop (s : State) : State := if s.volume.state = .releasing ∧ s.driveFree then issueStop s else s

/-- RELEASING is entered; the STOP that follows once the sequencer is IDLE is made as the step settles (R160). -/
def enterReleasing (s : State) : State := { s with volume := { s.volume with state := .releasing } }

/-- At the end of a drain: STORING when the map is modified, store on unload is YES and the label is VALID, else RELEASING (R157). -/
def drainEnds (s : State) : State :=
  let s := { s with volume := { s.volume with drainTimer := none, drainExpired := false } }
  if s.volume.mapModified && s.settings.storeOnUnload && s.volume.label == some .valid then
    { s with volume := { s.volume with state := .storing } }
  else enterReleasing s

end Sys2Proof.Machine
end

