-- ==== Sys2Proof/Machine/SweepUnit.lean ====
section
/-! DEFINITION. The sweep unit's own bookkeeping: phases, opening and joining, taking each extent, stopping and ending (chapter 10). -/

namespace Sys2Proof.Machine

/-- Whether a step of the sweep owns the drive (R168). -/
def State.stepInProgress (s : State) : Bool :=
  match s.seq.access with
  | some a => a.owner == .sweep
  | none => false

/-- Whether a run of a work entry or a commit run owns the drive (R163). -/
def State.runOwnsDrive (s : State) : Bool :=
  match s.seq.access with
  | some a => match a.owner with | .entry _ => true | .posted _ => true | _ => false
  | none => false

/-- The phase the sweep unit reports (R163): SUSPENDED while a run owns the drive, past the window (log 26). -/
def State.sweepPhase (s : State) : SweepPhase :=
  match s.sweep with
  | none => if s.sweepSeen then .ended else .none
  | some sw => if sw.window.isSome then .collecting else if s.runOwnsDrive then .suspended else .running

/-- An item joins an extent list with its added order and, for a GUARDED extent of a CLEAR, the claim's token (R163, R164). -/
def State.newItem (s : State) (kind : SweepKind) (order : Nat) (k : Slot) : SweepItem :=
  { slot := k, order := order,
    token := match kind, s.extent k with
      | .clear, some e => if e.defn.kind = .guarded then some (s.claim (.extent k)).token else none
      | _, _ => none,
    top := none, failed := false, result := none }

/-- Clearing marks of slots, set or cleared (R26). -/
def markSlots (on : Bool) (ks : List Slot) (s : State) : State :=
  ks.foldl (fun s k => updExtent k (fun e => { e with clearing := on }) s) s

/-- The item a sweep is working on (R163). -/
def Sweep.currentItem (sw : Sweep) : Option SweepItem := sw.current.bind (fun i => sw.items[i]?)

/-- The sweep with its current item changed. -/
def Sweep.updCurrent (sw : Sweep) (f : SweepItem → SweepItem) : Sweep :=
  match sw.current with
  | none => sw
  | some i => { sw with items := sw.items.modify i f }

/-- The results an ending gives to items that have none: PARTIAL at a halt, VOLUME-GONE at a departure, and at PROTECT PROTECTED
for the current item (the first one in COLLECTING) and PARTIAL for the later ones (R171 to R173). -/
def Sweep.fillResults (sw : Sweep) (cause : Option StopCause) : List (Slot × SweepResult) :=
  sw.items.mapIdx (fun i it =>
    (it.slot,
      match it.result, cause with
      | some r, _ => r
      | none, some .protect => if i = sw.current.getD 0 then .prot else .partly
      | none, some .departure => .volumeGone
      | none, _ => .partly))

/-- The outcome of the opening request's completion (R173). -/
def sweepOutcome : Option StopCause → Code
  | some .departure => .volumeGone
  | some .protect => .writeProtected
  | _ => .done

/-- The completion of the opening request (R173). -/
def Sweep.completion (sw : Sweep) (cause : Option StopCause) : Completion :=
  { tag := sw.tag, kind := match sw.kind with | .clear => .clear | .scan => .scan, outcome := sweepOutcome cause, late := false,
    sectorsDone := 0, conditions := [], body := .sweep (sw.fillResults cause) }

/-- The sweep ends (R173): marks cleared, SWEEP-END at both ports, the completion due to the opening channel unless it has been reset
(R174). -/
def endSweep (cause : Option StopCause) (s : State) : State :=
  match s.sweep with
  | none => s
  | some sw =>
    let s := markSlots false (sw.items.map (fun it => it.slot)) s
    let s := raiseBoth .sweepEnd { s with sweep := none, sweepSeen := true }
    if sw.discard then s else addDue sw.channel (.sweep (sw.completion cause)) s

/-- A halt is taken (R171): at once without a step in progress, else pending until the step ends. That a halt after a waiting PROTECT stop
leaves that stop's cause is the model's choice (log 36). -/
def haltSweep (s : State) : State :=
  match s.sweep with
  | none => s
  | some sw =>
    if s.stepInProgress then
      { s with sweep := some { sw with halt := true, cause := some (sw.cause.getD .halt) } }
    else endSweep (some .halt) s

/-- The item after the current one becomes current; after the last one the sweep ends complete (R167, R173). -/
def nextItem (s : State) : State :=
  match s.sweep with
  | none => s
  | some sw =>
    match sw.current with
    | none => s
    | some i =>
      if i + 1 < sw.items.length then { s with sweep := some { sw with current := some (i + 1), sector := none } }
      else endSweep none s

/-- The current item is given its result, and the next becomes current (R167). -/
def giveResult (r : SweepResult) (s : State) : State :=
  match s.sweep with
  | none => s
  | some sw => nextItem { s with sweep := some (sw.updCurrent (fun it => { it with result := some r })) }

/-- A stop waits for the step's end (R171, R172). The step in progress has ended: the current item keeps the result its last step
gave it only when it is the last item (log 19), and the sweep ends. That its completion becomes due before those of the entries that an
expired drain timer ends in the same step is the model's choice (log 30), and so is that the last item of a halted CLEAR that meets PROTECT
keeps that result too, where R172 also calls the current item PARTIAL (log 47). -/
def stopAfterStep (r : Option SweepResult) (s : State) : State :=
  match s.sweep with
  | none => s
  | some sw =>
    match r with
    | some res =>
      if sw.current = some (sw.items.length - 1) then
        endSweep sw.cause { s with sweep := some (sw.updCurrent (fun it => { it with result := some res })) }
      else endSweep sw.cause s
    | none => endSweep sw.cause s

/-- A step has ended and its item is finished, with a result, or not: a stop that waits is taken, else the sweep goes on. -/
def stepEnded (r : Option SweepResult) (s : State) : State :=
  match s.sweep with
  | none => s
  | some sw =>
    if sw.cause.isSome then stopAfterStep r s
    else match r with
      | some res => giveResult res s
      | none => s

/-- The result of an item whose pass is complete (R169). -/
def SweepItem.passResult (it : SweepItem) : SweepResult := if it.failed then .failedSectors else .done

/-- The sweep with its current sector replaced. -/
def setSweepSector (m : Nat) (s : State) : State := { s with sweep := s.sweep.map (fun sw => { sw with sector := some m }) }

/-- The current item's failed field is set (R170). -/
def failItem (s : State) : State :=
  { s with sweep := s.sweep.map (fun sw => sw.updCurrent (fun it => { it with failed := true })) }

/-- The result the current item's pass would give (R169). -/
def State.passResult (s : State) : SweepResult := ((s.sweep.bind Sweep.currentItem).map SweepItem.passResult).getD .done

/-- The pass of a CLEAR item is complete at relative sector 0: an APPEND extent takes fill mark 0 and KNOWN (R24, R169). -/
def passComplete (k : Slot) (s : State) : State := updFill k (fun f => { f with mark := 0, state := .known }) s

/-- A clearing step on sector `m` is done (R169); the defect list entry has been removed by the write. -/
def clearingStepDone (k : Slot) (m : Nat) (s : State) : State :=
  if m = 0 then
    let s := passComplete k s
    stepEnded (some s.passResult) s
  else stepEnded none (setSweepSector (m - 1) s)

/-- A clearing step on sector `m` has failed (R170): on an APPEND extent the clear stops above it, else it goes on below. -/
def clearingStepFailed (k : Slot) (m : Nat) (s : State) : State :=
  let s := failItem s
  match s.fill k with
  | some _ => stepEnded (some .failedSectors) (updFill k (fun f => { f with mark := m + 1 }) s)
  | none => if m = 0 then stepEnded (some .failedSectors) s else stepEnded none (setSweepSector (m - 1) s)

/-- A scanning step on sector `m` of an extent of `size` sectors has ended, scanned or failed (R169, R170). -/
def scanningStepEnded (m size : Nat) (failed : Bool) (s : State) : State :=
  let s := if failed then failItem s else s
  if m + 1 < size then stepEnded none (setSweepSector (m + 1) s) else stepEnded (some s.passResult) s

/-- The fill mark of a KNOWN APPEND extent as the last done step left it, just above the sector `m` whose clearing step was not done (R170):
raised again where a HEADER phase on that sector has lowered it. That it is raised also where that phase was of an earlier attempt, cut in
its DATA phase, and that a fill state which a cut made UNKNOWN stays so, is how the model reads the rule (log 41). -/
def fillAsLastDone (m : Nat) (k : Slot) (s : State) : State :=
  updFill k (fun f => if f.state = .known ∧ f.mark = m then { f with mark := m + 1 } else f) s

/-- A step ended by a second seek timeout (R170): its item is PARTIAL. Under a stop that waits the sweep ends with the results of that stop,
since only a last step that ends done or failed gives its item a result of its own (R171, R172). -/
def stepSeekError (s : State) : State :=
  match s.sweep with
  | none => s
  | some sw => if sw.cause.isSome then stopAfterStep none s else giveResult .partly s

/-- A step ended without having been made: it is made again, unless a stop waits (R170, R171). -/
def stepUnmade (s : State) : State := stepEnded none s

/-- Older work on a sweep item's extent (R167): a live READ, WRITE or APPEND entry naming it, or a posted write on it, admitted
before the item was added. -/
def State.olderWorkOn (s : State) (it : SweepItem) : Bool :=
  s.work.any (fun e => e.live && e.slot == some it.slot && decide (e.order < it.order))
    || s.posted.any (fun p => p.slot == it.slot && decide (p.order < it.order))

end Sys2Proof.Machine
end

