-- ==== Sys2Proof/Machine/Settle.lean ====
section
/-! DEFINITION. What follows within a step once its own effect is made: the ends of a drain, short reservations, due replies and the
STOP of a release (R98, R157, R158, R160, R177). -/

namespace Sys2Proof.Machine

/-- Every remaining piece of volume work ends VOLUME-GONE: live entries, posted writes in admission order, and a sweep still ending its
halt (R158). -/
def endVolumeWork (s : State) : State :=
  let es := (s.work.filter Entry.live).map (fun e => e.order)
  let ps := s.posted.map (fun p => p.order)
  let s := faultAll ps .volumeGone (endEntries es .volumeGone s)
  match s.sweep with
  | some sw => endSweep (some (sw.cause.getD .halt)) s
  | none => s

/-- A drain timer that expired with an access in progress ends the volume work once that access has stopped (R158). -/
def drainExpiry (s : State) : State :=
  if s.volume.state = .draining ∧ s.volume.drainExpired ∧ s.seq.access = none then endVolumeWork s else s

/-- The drain ends in the step in which the last volume work ends (R157). -/
def drainCheck (s : State) : State := if s.volume.state = .draining ∧ s.hasVolumeWork = false then drainEnds s else s

/-- Freed room goes to short reservations, due replies join their queues, a drain with no work left ends, and a release stops the drive
(R98, R177, R157, R160). -/
def settle (s : State) : State := releaseStop (drainCheck (placeBoth (topUpBoth (drainExpiry s))))

end Sys2Proof.Machine
end

