-- ==== Sys2Proof/Machine/Admission.lean ====
section
/-! DEFINITION. Admission (chapter 4): the checks common to every request, and for each request kind its own checks and what
admitting it does. Each `admit…` is one taking of a request (R47): refused, admitted, or waiting. -/

namespace Sys2Proof.Machine

/-! ## Checks common to every request -/

/-- The first check that fails, in order, gives the outcome (R52). -/
def firstFail : List (Bool × Code) → Option Code
  | [] => none
  | (fails, code) :: rest => if fails then some code else firstFail rest

/-- Whether a due list holds a sweep completion with a tag. -/
def Due.isSweepTag (tag : Nat) : Due → Bool
  | .sweep c => c.tag == tag
  | _ => false

/-- Whether a tag is in use in a channel (R51): by an entry in the work list, or by a sweep the channel opened whose completion has
not been placed or discarded. -/
def State.tagInUse (s : State) (ch : Channel) (tag : Nat) : Bool :=
  s.work.any (fun e => decide (e.channel = ch ∧ e.tag = tag))
    || (match s.sweep with | some sw => decide (sw.channel = ch ∧ sw.tag = tag) | none => false)
    || (s.port ch).due.any (Due.isSweepTag tag)

/-- The tag check (R51). -/
def State.tagCheck (s : State) (ch : Channel) (r : Request) : Option Code :=
  firstFail [(s.tagInUse ch r.tag, .duplicateTag), (decide (r.tag = 255), .badRequest)]

/-- The expected generation of the channel's context against the volume's (R53). -/
def State.stale (s : State) (ch : Channel) : Bool :=
  let g := (s.port ch).context.expectedGen
  decide (g ≠ 0 ∧ g ≠ s.volume.generation)

/-- No volume in a usable state for a request: ABSENT or MOUNTING (R53). -/
def State.noVolume (s : State) : Bool := s.volume.state == .absent || s.volume.state == .mounting

/-- The volume is STORING or RELEASING (R53). -/
def State.volumeClosing (s : State) : Bool := s.volume.state == .storing || s.volume.state == .releasing

/-- The volume and generation checks of READ, WRITE, APPEND, CLEAR, SCAN, MAP-LOAD and MAP-STORE (R53, first row). -/
def State.transactionVolume (s : State) (ch : Channel) : Option Code :=
  firstFail [(s.noVolume, .notMounted), (s.volume.state == .draining || s.volumeClosing, .volumeLeaving), (s.stale ch, .staleVolume)]

/-- The volume and generation checks of MAP-READ and DEFECT-READ (R53, second row). -/
def State.tableReadVolume (s : State) (ch : Channel) : Option Code :=
  firstFail [(s.noVolume || s.volumeClosing, .notMounted), (s.stale ch, .staleVolume)]

/-- The volume and generation checks of a CLAIM on an extent (R53, third row; R35). -/
def State.claimVolume (s : State) (ch : Channel) : Option Code :=
  firstFail [(s.noVolume, .notMounted), (s.volumeClosing, .volumeLeaving), (s.stale ch, .staleVolume)]

/-! ## Waiting, work entries, posting -/

/-- A request whose checks pass waits for a place (R48). -/
def waitForPlace (ch : Channel) (r : Request) (s : State) : State :=
  s.updPort ch (fun p => { p with stage := .waiting r false })

/-- The deadline an entry of a class takes at admission: absent when the class has none (R85). -/
def State.deadlineFor (s : State) (c : WorkClass) : Option Nat :=
  let d := (s.settings.row c).deadline
  if d = 0 then none else some d

/-- A QUEUED entry as admission makes it: order, copied context, deadline (R50, R72, R85). -/
def State.newEntry (s : State) (ch : Channel) (r : Request) (kind : WorkKind) (cls : WorkClass) : Entry :=
  { channel := ch, tag := r.tag, kind := kind, cls := some cls, slot := none, base := 0, size := 0, first := 0, count := 0,
    done := 0, state := .queued, order := s.nextOrder, deadline := s.deadlineFor cls, late := false,
    span := (s.port ch).context.span, verify := (s.port ch).context.verify,
    flags := { quiet := false, medium := false, urgent := false, force := false }, token := none,
    writeBuffers := r.buffers, readBuffers := [], allocated := 0, reserved := 0, conditions := [], appendStart := none,
    run := none, watched := [], faultSeen := false, outcome := none, discard := false, serial := 0, tornNext := false }

/-- The entry of a data transaction: slot, bounds, sectors, flags (R72). -/
def State.dataEntry (s : State) (ch : Channel) (r : Request) (kind : WorkKind) (o : DataOperands) (d : Definition)
    (token : Option Nat) : Entry :=
  { s.newEntry ch r kind (classFor d o.flags.urgent) with
    slot := some o.slot, base := d.first, size := d.size, first := o.first, count := o.count, flags := o.flags, token := token }

/-- An entry joins the work list and the request leaves the stage (R47, R71). -/
def joinWork (ch : Channel) (e : Entry) (s : State) : State :=
  { s.updPort ch (fun p => { p with stage := .empty }) with work := s.work ++ [e], nextOrder := s.nextOrder + 1 }

/-- A request that needs a work-list entry gets it, or waits (R48). -/
def joinOrWait (ch : Channel) (r : Request) (e : Entry) (s : State) : State :=
  if s.hasPlace ch then joinWork ch e s else waitForPlace ch r s

/-- The posted write that a WRITE or APPEND becomes (R102). -/
def State.newPosted (s : State) (ch : Channel) (r : Request) (kind : PostedKind) (o : DataOperands) (d : Definition)
    (token : Option Nat) : Posted :=
  { channel := ch, tag := r.tag, kind := kind, slot := o.slot, base := d.first, size := d.size,
    first := match kind with | .write => some o.first | .append => none,
    count := o.count, committed := 0, torn := false, order := s.nextOrder, cls := classFor d o.flags.urgent,
    generation := s.volume.generation, span := (s.port ch).context.span, verify := (s.port ch).context.verify, token := token,
    force := o.flags.force, buffers := r.buffers, committing := false, tornNext := false }

/-- A WRITE or APPEND that has passed its checks is posted when the extent allows it, MEDIUM is clear and the posted list has a place
(R57, R102). -/
def State.mayPost (s : State) (d : Definition) (o : DataOperands) : Bool :=
  d.posting && !o.flags.medium && decide (s.posted.length < 4)

/-- Posting: the posted write joins the list and its completion POSTED is formed in the stage (R102). -/
def post (ch : Channel) (r : Request) (p : Posted) (s : State) : State :=
  complete ch r .posted (match p.kind with | .write => .none | .append => .append none) { s with posted := s.posted ++ [p] }

/-! ## READ, WRITE, APPEND, FLUSH, MAP-STORE: the requests that may wait -/

/-- READ (R54): steps 1, 2, 4 and 5 of the table. -/
def admitRead (ch : Channel) (r : Request) (s : State) : State :=
  match s.tagCheck ch r, readOperands r with
  | some c, _ => refuse ch r c s
  | none, none => refuse ch r .badRequest s
  | none, some o =>
    match s.transactionVolume ch, s.extent o.slot with
    | some c, _ => refuse ch r c s
    | none, none => refuse ch r .noExtent s
    | none, some e =>
      match firstFail [(decide (o.first + o.count > e.defn.size), .outOfExtent), (!e.defn.mayRead ch, .noRight),
                       (e.clearing, .extentClearing)] with
      | some c => refuse ch r c s
      | none => joinOrWait ch r (s.dataEntry ch r .read o e.defn none) s

/-- The checks of a WRITE on a present extent, in the order of R55. -/
def State.writeChecks (s : State) (ch : Channel) (o : DataOperands) (e : Extent) : Option Code :=
  firstFail [
    (decide (o.first + o.count > e.defn.size), .outOfExtent),
    (e.defn.kind == .append, .appendOnly),
    (!e.defn.mayWrite ch, .noRight),
    (e.clearing, .extentClearing),
    (e.defn.kind == .guarded && (s.claim (.extent o.slot)).holder != some ch, .claimRequired),
    (s.ownerActive .protect, .writeProtected),
    (!o.flags.force && (List.range o.count).any (fun i => s.listed e.defn.first (o.first + i)), .defectiveSector)]

/-- The admission token of a WRITE: the claim's token on a GUARDED extent (R40). -/
def State.admissionToken (s : State) (k : Slot) (e : Extent) : Option Nat :=
  if e.defn.kind = .guarded then some (s.claim (.extent k)).token else none

/-- WRITE (R55, R57). -/
def admitWrite (ch : Channel) (r : Request) (s : State) : State :=
  match s.tagCheck ch r, writeOperands r with
  | some c, _ => refuse ch r c s
  | none, none => refuse ch r .badRequest s
  | none, some o =>
    match s.transactionVolume ch, s.extent o.slot with
    | some c, _ => refuse ch r c s
    | none, none => refuse ch r .noExtent s
    | none, some e =>
      match s.writeChecks ch o e with
      | some c => refuse ch r c s
      | none =>
        if s.mayPost e.defn o then post ch r (s.newPosted ch r .write o e.defn (s.admissionToken o.slot e)) s
        else joinOrWait ch r (s.dataEntry ch r .write o e.defn (s.admissionToken o.slot e)) s

/-- The checks of an APPEND on a present extent, in the order of R56. -/
def State.appendChecks (s : State) (ch : Channel) (o : DataOperands) (e : Extent) : Option Code :=
  firstFail [
    (e.defn.kind != .append, .badRequest),
    (!e.defn.mayWrite ch, .noRight),
    (e.clearing, .extentClearing),
    (s.ownerActive .protect, .writeProtected),
    ((e.fill.map (fun f => f.state)) == some .unknown, .fillUnknown),
    (match e.fill with | some f => decide (f.mark + f.pending + o.count > e.defn.size) | none => true, .extentFull)]

/-- An admitted APPEND reserves its sectors (R25, R56). -/
def reserveAppend (k : Slot) (n : Nat) (s : State) : State := updFill k (fun f => { f with pending := f.pending + n }) s

/-- APPEND (R56, R57): one that must wait reserves nothing. -/
def admitAppend (ch : Channel) (r : Request) (s : State) : State :=
  match s.tagCheck ch r, appendOperands r with
  | some c, _ => refuse ch r c s
  | none, none => refuse ch r .badRequest s
  | none, some o =>
    match s.transactionVolume ch, s.extent o.slot with
    | some c, _ => refuse ch r c s
    | none, none => refuse ch r .noExtent s
    | none, some e =>
      match s.appendChecks ch o e with
      | some c => refuse ch r c s
      | none =>
        if s.mayPost e.defn o then
          post ch r (s.newPosted ch r .append o e.defn none) (reserveAppend o.slot o.count s)
        else if s.hasPlace ch then
          joinWork ch (s.dataEntry ch r .append o e.defn none) (reserveAppend o.slot o.count s)
        else waitForPlace ch r s

/-- The WATCHING entry of a FLUSH, with exactly the channel's posted writes as they stand (R108). -/
def State.flushEntry (s : State) (ch : Channel) (r : Request) : Entry :=
  { s.newEntry ch r .flush .setup with
    cls := none, deadline := none, state := .watching, writeBuffers := [],
    watched := (s.posted.filter (fun p => p.channel = ch)).map (fun p => p.order) }

/-- FLUSH (R58): DONE at once when the channel has no posted writes. -/
def admitFlush (ch : Channel) (r : Request) (s : State) : State :=
  match s.tagCheck ch r, emptyOperands r with
  | some c, _ => refuse ch r c s
  | none, none => refuse ch r .badRequest s
  | none, some _ =>
    if s.posted.any (fun p => p.channel = ch) then joinOrWait ch r (s.flushEntry ch r) s else complete ch r .done .none s

/-- MAP-STORE (R61): the controller claim, the volume and generation, PROTECT. -/
def admitMapStore (ch : Channel) (r : Request) (s : State) : State :=
  match s.tagCheck ch r, mapStoreOperands r with
  | some c, _ => refuse ch r c s
  | none, none => refuse ch r .badRequest s
  | none, some serial =>
    match firstFail [(!s.holdsController ch, .claimRequired)], s.transactionVolume ch with
    | some c, _ => refuse ch r c s
    | none, some c => refuse ch r c s
    | none, none =>
      if s.ownerActive .protect then refuse ch r .writeProtected s
      else joinOrWait ch r { s.newEntry ch r .mapStore .setup with serial := serial } s

/-! ## Requests whose effect is complete in the step -/

/-- What a CANCEL finds (R87): the channel's entry with the target tag. -/
def State.cancelTarget (s : State) (ch : Channel) (tag : Nat) : Option Entry :=
  s.work.find? (fun e => decide (e.channel = ch ∧ e.tag = tag))

/-- CANCEL (R58, R87): a QUEUED target ends CANCELLED, its completion due before the CANCEL's own (R177). -/
def admitCancel (ch : Channel) (r : Request) (s : State) : State :=
  match s.tagCheck ch r, cancelOperands r with
  | some c, _ => refuse ch r c s
  | none, none => refuse ch r .badRequest s
  | none, some target =>
    match s.cancelTarget ch target with
    | none => refuse ch r .notFound s
    | some e =>
      if e.state = .queued then settle (complete ch r .done .none (endEntry e.order .cancelled s))
      else refuse ch r .tooLate s

/-- The value a claim record reports (R33): remaining 0 when the lease is 0. -/
def ClaimRecord.value (c : ClaimRecord) : ClaimRecord := if c.lease = 0 then { c with remaining := 0 } else c

/-- The record a matching CLAIM leaves: the new pair and the lease started afresh (R36). -/
def ClaimOperands.record (o : ClaimOperands) : ClaimRecord :=
  { holder := o.newHolder, token := o.newToken, lease := o.lease, remaining := o.lease }

/-- Checks 5 to 7 of R35, for an extent target. -/
def State.claimTargetCheck (s : State) (ch : Channel) : ClaimTarget → Option Code
  | .controller => none
  | .extent k =>
    match s.claimVolume ch with
    | some c => some c
    | none => if (s.extent k).isNone then some .noExtent else none

/-- CLAIM (R35, R36, R38): compare and replace in one step. -/
def admitClaim (ch : Channel) (r : Request) (s : State) : State :=
  match s.tagCheck ch r, claimOperands ch r with
  | some c, _ => refuse ch r c s
  | none, none => refuse ch r .badRequest s
  | none, some o =>
    match s.claimTargetCheck ch o.target with
    | some c => refuse ch r c s
    | none =>
      let old := s.claim o.target
      if old.holder = o.expHolder ∧ old.token = o.expToken then
        let s := setClaim o.target o.record s
        let s := if o.newHolder ≠ old.holder then raise ch.other .claimChange s else s
        complete ch r .done (.claim old.value) s
      else complete ch r .claimMismatch (.claim old.value) s

/-- The entries of a MAP-READ: one for each present slot, in ascending slot number (R28). -/
def State.mapEntries (s : State) : List MapEntry :=
  (List.finRange 32).filterMap (fun k =>
    (s.extent k).map (fun e => { slot := k, extent := e, holder := (s.claim (.extent k)).holder }))

/-- MAP-READ (R28). -/
def admitMapRead (ch : Channel) (r : Request) (s : State) : State :=
  match s.tagCheck ch r, emptyOperands r with
  | some c, _ => refuse ch r c s
  | none, none => refuse ch r .badRequest s
  | none, some _ =>
    match s.tableReadVolume ch with
    | some c => refuse ch r c s
    | none => complete ch r .done (.map s.volume.generation s.volume.mapModified s.mapEntries) s

/-- The changes of a MAP-LOAD with their slots and definitions; none when a slot number is above 31 or a definition is not well
formed (R29, checks 5 and 6). -/
def goodChanges : List Change → Option (List (Slot × Option Definition))
  | [] => some []
  | c :: cs =>
    match slotOf c.slot, goodChanges cs with
    | some k, some gs =>
      match c.defn with
      | none => some ((k, none) :: gs)
      | some raw => (wellFormedDefinition raw).map (fun d => (k, some d) :: gs)
    | _, _ => none

/-- Two changes name the same slot (R29, check 5). -/
def repeatsSlot (gs : List (Slot × Option Definition)) : Bool := !decide ((gs.map (fun g => g.1)).Nodup)

/-- Two definitions share a cylinder (R12). -/
def Definition.overlaps (d e : Definition) : Bool := decide (d.first ≤ e.last ∧ e.first ≤ d.last)

/-- The definitions of the table that every change of a list would leave (R29, check 7). -/
def State.resulting (s : State) (gs : List (Slot × Option Definition)) (k : Slot) : Option Definition :=
  match gs.find? (fun g => g.1 = k) with
  | some g => g.2
  | none => (s.extent k).map (fun e => e.defn)

/-- Whether two present extents of the resulting table share a cylinder (R29, check 7). -/
def State.wouldOverlap (s : State) (gs : List (Slot × Option Definition)) : Bool :=
  (List.finRange 32).any (fun i => (List.finRange 32).any (fun j =>
    decide (i < j) &&
      match s.resulting gs i, s.resulting gs j with
      | some d, some e => d.overlaps e
      | _, _ => false))

/-- Whether a slot is busy for a MAP-LOAD from a channel (R30). -/
def State.slotBusy (s : State) (ch : Channel) (k : Slot) : Bool :=
  s.work.any (fun e => e.live && e.slot == some k)
    || s.posted.any (fun p => p.slot == k)
    || (match s.extent k with | some e => e.clearing | none => false)
    || (match s.sweep with | some sw => sw.items.any (fun it => it.slot == k) | none => false)
    || (s.claim (.extent k)).holder == some ch.other

/-- The extent a change leaves in a slot, from what the slot held before (R31). -/
def changedExtent (before : Option Extent) : Option Definition → Option Extent
  | none => none
  | some d =>
    some { defn := d, clearing := false,
           fill := if d.kind = .append then
               match before with
               | some e =>
                 if e.defn.kind = .append ∧ e.defn.first = d.first ∧ e.defn.last = d.last then
                   e.fill.map (fun f => { f with pending := 0 })
                 else some { mark := 0, state := .unknown, pending := 0 }
               | none => some { mark := 0, state := .unknown, pending := 0 }
             else none }

/-- One change is made: the slot, and its claim NONE/0 with CLAIM-CHANGE to the other channel when the requester held it (R31, R38,
R43). -/
def applyChange (ch : Channel) (s : State) (g : Slot × Option Definition) : State :=
  let held := (s.claim (.extent g.1)).holder == some ch
  let s := setClaim (.extent g.1) ClaimRecord.free
    { s with extents := s.extents.set g.1.val (changedExtent (s.extent g.1) g.2) g.1.isLt }
  if held then raise ch.other .claimChange s else s

/-- A MAP-LOAD that succeeds while a MAP-STORE's label write is in progress leaves the flag set at its end (R162). -/
def noteMapLoad (s : State) : State :=
  { s with seq := { s.seq with access := s.seq.access.map (fun a =>
      if a.kind = .labelWrite then { a with mapLoadSeen := true } else a) } }

/-- MAP-LOAD (R29, R31): every change in one step, or none. -/
def admitMapLoad (ch : Channel) (r : Request) (s : State) : State :=
  match s.tagCheck ch r, mapLoadOperands r with
  | some c, _ => refuse ch r c s
  | none, none => refuse ch r .badRequest s
  | none, some cs =>
    match firstFail [(!s.holdsController ch, .claimRequired)], s.transactionVolume ch with
    | some c, _ => refuse ch r c s
    | none, some c => refuse ch r c s
    | none, none =>
      match goodChanges cs with
      | none => refuse ch r .badMap s
      | some gs =>
        match firstFail [(repeatsSlot gs, .badMap), (s.wouldOverlap gs, .badMap),
                         (gs.any (fun g => s.slotBusy ch g.1), .extentBusy)] with
        | some c => refuse ch r c s
        | none =>
          let s := noteMapLoad (gs.foldl (applyChange ch) s)
          complete ch r .done .none { s with volume := { s.volume with mapModified := true } }

/-- DEFECT-READ (R61, R134). -/
def admitDefectRead (ch : Channel) (r : Request) (s : State) : State :=
  match s.tagCheck ch r, emptyOperands r with
  | some c, _ => refuse ch r c s
  | none, none => refuse ch r .badRequest s
  | none, some _ =>
    match s.tableReadVolume ch with
    | some c => refuse ch r c s
    | none => complete ch r .done (.defects s.seq.defects s.seq.overflow) s

/-- The checks of R59 on each slot of a CLEAR's or SCAN's list, in the order of the list. -/
def State.sweepSlotCheck (s : State) (ch : Channel) (kind : SweepKind) (k : Slot) : Option Code :=
  match s.extent k with
  | none => some .noExtent
  | some e =>
    match kind with
    | .scan => if e.defn.mayRead ch then none else some .noRight
    | .clear =>
      firstFail [(!e.defn.mayWrite ch, .noRight),
                 (e.defn.kind == .guarded && (s.claim (.extent k)).holder != some ch, .claimRequired)]

/-- The first slot that fails gives the outcome (R59). -/
def State.sweepListCheck (s : State) (ch : Channel) (kind : SweepKind) : List Slot → Option Code
  | [] => none
  | k :: ks =>
    match s.sweepSlotCheck ch kind k with
    | some c => some c
    | none => s.sweepListCheck ch kind ks

/-- A CLEAR or SCAN opens a sweep and leaves the stage as its opening request (R164): a CLEAR in COLLECTING for 400 ms with its
extents marked, a SCAN in RUNNING with its first item current. -/
def openSweep (ch : Channel) (r : Request) (kind : SweepKind) (ks : List Slot) (s : State) : State :=
  let sw : Sweep :=
    { kind := kind, channel := ch, tag := r.tag, verify := (s.port ch).context.verify,
      items := ks.map (s.newItem kind s.nextOrder),
      window := match kind with | .clear => some 400 | .scan => none,
      current := match kind with | .clear => none | .scan => some 0,
      sector := none, halt := false, cause := none, discard := false }
  let s := { s.updPort ch (fun p => { p with stage := .empty }) with sweep := some sw, nextOrder := s.nextOrder + 1 }
  match kind with
  | .clear => markSlots true ks s
  | .scan => s

/-- A CLEAR joins the open window, or is refused SWEEP-FULL (R165). -/
def joinSweep (ch : Channel) (r : Request) (sw : Sweep) (ks : List Slot) (s : State) : State :=
  let new := ks.filter (fun k => !sw.items.any (fun it => it.slot = k))
  if sw.items.length + new.length > 8 then refuse ch r .sweepFull s
  else
    let sw := { sw with items := sw.items ++ new.map (s.newItem .clear s.nextOrder) }
    complete ch r .joined .none (markSlots true new { s with sweep := some sw })

/-- CLEAR (R59, R164, R165). -/
def admitClear (ch : Channel) (r : Request) (s : State) : State :=
  match s.tagCheck ch r, sweepOperands r with
  | some c, _ => refuse ch r c s
  | none, none => refuse ch r .badRequest s
  | none, some ks =>
    match s.transactionVolume ch, s.sweepListCheck ch .clear ks with
    | some c, _ => refuse ch r c s
    | none, some c => refuse ch r c s
    | none, none =>
      if s.ownerActive .protect then refuse ch r .writeProtected s
      else match s.sweep with
        | none => openSweep ch r .clear ks s
        | some sw =>
          if sw.kind = .clear ∧ sw.window.isSome ∧ sw.channel = ch then joinSweep ch r sw ks s else refuse ch r .sweepBusy s

/-- SCAN (R59, R164, R165). -/
def admitScan (ch : Channel) (r : Request) (s : State) : State :=
  match s.tagCheck ch r, sweepOperands r with
  | some c, _ => refuse ch r c s
  | none, none => refuse ch r .badRequest s
  | none, some ks =>
    match s.transactionVolume ch, s.sweepListCheck ch .scan ks with
    | some c, _ => refuse ch r c s
    | none, some c => refuse ch r c s
    | none, none => if s.sweep.isSome then refuse ch r .sweepBusy s else openSweep ch r .scan ks s

/-- SWEEP-HALT (R60, R171). Where it ends a sweep of its own channel at once, the sweep's completion becomes due before its own: R177 orders
the two of a CANCEL only, so this order is the model's choice (log 30). -/
def admitSweepHalt (ch : Channel) (r : Request) (s : State) : State :=
  match s.tagCheck ch r, emptyOperands r with
  | some c, _ => refuse ch r c s
  | none, none => refuse ch r .badRequest s
  | none, some _ =>
    match s.sweep with
    | none => refuse ch r .notFound s
    | some sw =>
      if sw.channel ≠ ch ∧ s.holdsController ch = false then refuse ch r .claimRequired s
      else settle (complete ch r .done .none (haltSweep s))

/-- CONTEXT (R64): every field replaced, or none. -/
def admitContext (ch : Channel) (r : Request) (s : State) : State :=
  match s.tagCheck ch r, contextOperands r with
  | some c, _ => refuse ch r c s
  | none, none => refuse ch r .badRequest s
  | none, some raw =>
    match contextOf raw with
    | none => refuse ch r .badContext s
    | some c => complete ch r .done .none (s.updPort ch (fun p => p.loadContext c))

/-- SETTINGS-LOAD (R66): the whole record, or nothing; a raised quota goes first to short reservations (R98). -/
def admitSettingsLoad (ch : Channel) (r : Request) (s : State) : State :=
  match s.tagCheck ch r, settingsOperands r with
  | some c, _ => refuse ch r c s
  | none, none => refuse ch r .badRequest s
  | none, some ws =>
    if s.holdsController ch = false then refuse ch r .claimRequired s
    else match settingsOf ws with
      | none => refuse ch r .badSettings s
      | some t =>
        if s.holding .A > t.quotaA ∨ s.holding .B > t.quotaB then refuse ch r .quotaInUse s
        else topUpBoth (complete ch r .done .none { s with settings := t })

/-- The numbers of a channel's entries in each state (R182). -/
def State.countsOf (s : State) (ch : Channel) : WorkCounts :=
  let n (st : EntryState) := (s.work.filter (fun e => decide (e.channel = ch ∧ e.state = st))).length
  { queued := n .queued, active := n .active, parked := n .parked, watching := n .watching, finished := n .finished }

/-- The status record as it stands (R182). -/
def State.statusRecord (s : State) (ch : Channel) : StatusRecord :=
  { volume := s.volume.state, generation := s.volume.generation, label := s.volume.label, serial := s.volume.serial,
    mapModified := s.volume.mapModified, sequencer := s.seq.state, cylinder := s.seq.cylinder, phase := s.seq.phase,
    direction := s.direction, overflow := s.seq.overflow, work := { a := s.countsOf .A, b := s.countsOf .B },
    posted := s.posted.length, holdingA := s.holding .A, holdingB := s.holding .B, sweepPhase := s.sweepPhase,
    sweepSlot := (s.sweep.bind Sweep.currentItem).map (fun it => it.slot), sweepSector := s.sweep.bind (fun sw => sw.sector),
    levels := s.levels, events := (s.port ch).events, changed := (s.port ch).changed, claim := s.ctlClaim.value,
    clock := s.clock }

/-- STATUS (R182). -/
def admitStatus (ch : Channel) (r : Request) (s : State) : State :=
  match s.tagCheck ch r, emptyOperands r with
  | some c, _ => refuse ch r c s
  | none, none => refuse ch r .badRequest s
  | none, some _ => complete ch r .done (.status (s.statusRecord ch)) s

/-- EVENT-ACK (R181). -/
def admitEventAck (ch : Channel) (r : Request) (s : State) : State :=
  match s.tagCheck ch r, eventAckOperands r with
  | some c, _ => refuse ch r c s
  | none, none => refuse ch r .badRequest s
  | none, some es => complete ch r .done .none (s.updPort ch (fun p => p.acknowledge es))

/-- FAULT-READ (R107): the oldest entry and the overflow count, removed and zeroed. -/
def admitFaultRead (ch : Channel) (r : Request) (s : State) : State :=
  match s.tagCheck ch r, emptyOperands r with
  | some c, _ => refuse ch r c s
  | none, none => refuse ch r .badRequest s
  | none, some _ =>
    let l := s.logs.get ch
    complete ch r .done (.faultRead l.entries.head? l.overflow)
      { s with logs := s.logs.set ch { entries := l.entries.tail, overflow := 0 } }

/-- TIME-SET (R183). -/
def admitTimeSet (ch : Channel) (r : Request) (s : State) : State :=
  match s.tagCheck ch r, timeSetOperands r with
  | some c, _ => refuse ch r c s
  | none, none => refuse ch r .badRequest s
  | none, some v =>
    if s.holdsController ch = false then refuse ch r .claimRequired s
    else complete ch r .done .none { s with clock := v }

/-! ## Taking and retaking -/

/-- Admission takes the request of a kind that stands untaken in a channel's stage (R47); with none there, nothing is taken (log 1). -/
def takeRequest (kind : ReqKind) (f : Channel → Request → State → State) (ch : Channel) (s : State) : State :=
  match (s.port ch).stage with
  | .request r => if r.kind = kind then f ch r s else s
  | _ => s

/-- A waiting request is taken afresh, with every check repeated (R48); only these five kinds ever wait. -/
def retakeRequest (ch : Channel) (r : Request) (s : State) : State :=
  match r.kind with
  | .read => admitRead ch r s
  | .write => admitWrite ch r s
  | .append => admitAppend ch r s
  | .flush => admitFlush ch r s
  | .mapStore => admitMapStore ch r s
  | _ => s

/-- The waiting request of a stage is taken afresh, whatever its occasion (R48, R49). -/
def retakeStage (ch : Channel) (s : State) : State :=
  match (s.port ch).stage with
  | .waiting r _ => retakeRequest ch r s
  | _ => s

end Sys2Proof.Machine
end

