-- ==== Sys2Proof/Machine/Sequencer.lean ====
section
/-! DEFINITION. The drive sequencer's own movements: commands to the drive, beginning and ending an access, searching for a sector,
recalibrating (R111 to R122), and the cut of a transfer (R133). -/

namespace Sys2Proof.Machine

/-- The state with the sequencer changed. -/
def updSeq (f : Sequencer → Sequencer) (s : State) : State := { s with seq := f s.seq }

/-- The state with the access in progress changed. -/
def updAccess (f : Access → Access) (s : State) : State := updSeq (fun q => { q with access := q.access.map f }) s

/-- The cylinder an access needs. -/
def Access.cylinder (a : Access) : Nat := cylinderOf a.base a.sector

/-- The place in disk order of the sector an access works on. -/
def Access.address (a : Access) : Nat := diskOrder a.base a.sector

/-- Whether an access is a run of a work entry or of a posted write. -/
def Access.isRun (a : Access) : Bool := match a.owner with | .entry _ => true | .posted _ => true | _ => false

/-- Whether a PROTECT stop that waits in an access is taken before a POWER stop or cut that waits there (R146): PROTECT is taken as the line
changes and a POWER stop only at the access's next point (R144), so PROTECT goes before any POWER stop, and before a cut that came after
it (log 14). -/
def Access.protectFirst (a : Access) : Bool := (a.stops.takeWhile (fun c => c != .cut)).contains .protect

/-- The one of the stops that wait in an access that is taken at its next point (R144 to R146). -/
def Access.nextStop (a : Access) : Option Stop :=
  if a.protectFirst then some .protect else if a.stops.contains .cut then some .cut else a.stops.head?

/-- Whether an access writes the medium. -/
def AccessKind.writes : AccessKind → Bool
  | .writeRun | .appendRun | .labelWrite | .clearStep => true
  | .readRun | .scanStep | .labelRead | .probe => false

/-- The read retries of an access (R115): its class's, or 4 for the volume manager's reads; read when a decision is made (R67). -/
def State.readRetries (s : State) (a : Access) : Nat :=
  match a.cls with
  | some c => (s.settings.row c).readRetries
  | none => 4

/-- The write retries of an access (R115). -/
def State.writeRetries (s : State) (a : Access) : Nat :=
  match a.cls with
  | some c => (s.settings.row c).writeRetries
  | none => (s.settings.row .setup).writeRetries

/-! ## Commands to the drive (R111) -/

/-- SEEK to a cylinder: the seek timeout starts (R111, R116). -/
def issueSeek (c : Nat) (s : State) : State :=
  updSeq (fun q => { q with state := .seeking, seekTo := c, accepted := false, seekTimer := some 250, target := none,
                            phase := .none, gate := false }) s

/-- RESTORE: the restore timeout starts, the arm's position is unknown, a SEEK outstanding is superseded (R111, R118). For the access
in progress a restore has then been made for its sector (R129). -/
def issueRestore (s : State) : State :=
  updAccess (fun a => { a with restored := true })
    (updSeq (fun q => { q with state := .restoring, cylinder := none, accepted := false, seekTimer := none,
                               restoreTimer := some 600, target := none, phase := .none, gate := false }) s)

/-- FAULT-CLEAR: the FAULT persistence timer starts (R111, R140). -/
def issueFaultClear (s : State) : State := updSeq (fun q => { q with faultTimer := some 2000 }) s

/-! ## Finding a sector -/

/-- The head is selected and the target set; the sequencer is SEARCHING (R116, R120). -/
def startSearch (a : Access) (s : State) : State :=
  updAccess (fun a => { a with unsync := 0 })
    (updSeq (fun q => { q with state := .searching, head := headOf a.sector, target := some (sectorOf a.sector), phase := .none,
                               gate := false }) s)

/-- To the cylinder of the access: a SEEK when it differs from the current one, else straight to searching (R116). -/
def approach (s : State) : State :=
  match s.seq.access with
  | none => s
  | some a => if s.seq.cylinder = some a.cylinder then startSearch a s else issueSeek a.cylinder s

/-- A recalibration (R122): a restore, the seek after it, and the count of consecutive mismatches at 0. -/
def recalibrate (s : State) : State := issueRestore (updSeq (fun q => { q with mismatches := 0 }) s)

/-- The next attempt at the current sector: after two consecutive mismatches a recalibration first (R122), else its next passage. -/
def nextPassage (s : State) : State :=
  match s.seq.access with
  | none => s
  | some a =>
    if s.seq.mismatches ≥ 2 then recalibrate s else startSearch a s

/-- The sequencer turns to another sector of the run: nothing of the last one's attempts is kept (R123). -/
def turnTo (m : Nat) (s : State) : State :=
  nextPassage (updAccess (fun a => { a with sector := m, pass := .work, failed := 0, checkPassed := false, tornResume := false,
                                            restored := false, further := false, underWay := false }) s)

/-! ## Accesses (R115) -/

/-- An access as it begins: no attempt made, no stop pending. -/
def Access.begin (owner : Owner) (kind : AccessKind) (cls : Option WorkClass) (verify : Bool) (slot : Option Slot)
    (base sector runEnd size : Nat) : Access :=
  { owner := owner, kind := kind, cls := cls, verify := verify, slot := slot, base := base, sector := sector, runEnd := runEnd,
    size := size, done := 0, pass := .work, failed := 0, checkPassed := false, tornResume := false, restored := false,
    further := false, underWay := false, stops := [], unsync := 0, mapLoadSeen := false }

/-- An access begins: seek timeouts and mismatches are 0, and the sequencer goes to its cylinder (R115, R116). -/
def beginAccess (a : Access) (s : State) : State :=
  approach (updSeq (fun q => { q with access := some a, seekTimeouts := 0, mismatches := 0 }) s)

/-- An access ends: the sequencer is IDLE, the drive has no owner and the controller buffer is free (R100, R115). -/
def endAccess (s : State) : State :=
  { s with ctlBuffer := .free
           seq := { s.seq with access := none, state := .idle, target := none, phase := .none, gate := false } }

/-! ## The address check (R122) -/

/-- What the address check finds (R122). -/
inductive AddressCheck where
  | passed (st : HeaderState)
  | headerFailure
  | mismatch
  deriving DecidableEq, Repr

/-- The header of the sector passing against the run's cylinder, the selected head and the target sector (R122). -/
def checkAddress (a : Access) (h : HeaderImage) : AddressCheck :=
  if headerReadable h then
    if h.cylinder.toNat = a.cylinder ∧ h.head.toNat = headOf a.sector ∧ h.sector.toNat = sectorOf a.sector then .passed h.state
    else .mismatch
  else .headerFailure

/-- A passed check clears the consecutive mismatches, a mismatch adds one, a header failure leaves them (R122). A passed check is
noted for the sector (R127). -/
def noteCheck (r : AddressCheck) (s : State) : State :=
  match r with
  | .passed _ => updAccess (fun a => { a with checkPassed := true }) (updSeq (fun q => { q with mismatches := 0 }) s)
  | .mismatch => updSeq (fun q => { q with mismatches := min 2 (q.mismatches + 1) }) s
  | .headerFailure => s

/-- Whether a header failure is treated as passed at a write (R127): the check passed at an earlier passage of the run, the sector is
the torn one a resumed run begins with, or a clearing step or label write has made a restore for it. -/
def Access.waives (a : Access) : Bool :=
  a.checkPassed || a.tornResume || (a.restored && (a.kind == .clearStep || a.kind == .labelWrite))

/-- No sector write begins while FAULT is active, or POWER is active in IMMEDIATE mode, for the line monitor or for the sequencer (R121). -/
def State.gateAllowed (s : State) : Bool :=
  !s.lineActive .fault && !s.ownerActive .fault && s.powerPeriod != some .immediate && s.powerTaken != some .immediate

/-- The gate opens and the HEADER phase of a sector write begins; the sector is then under way (R8, R121, R144). Where no sector write may
begin, the passage is let go by and the sector sought again, with no attempt counted: R121 says only that no write begins, and what becomes
of the passage is the model's choice (log 37). -/
def openGate (a : Access) (s : State) : State :=
  if s.gateAllowed then
    updAccess (fun x => { x with underWay := true }) (updSeq (fun q => { q with gate := true, phase := .header }) s)
  else startSearch a s

/-! ## A transfer cut short (R9, R133) -/

/-- The header state an access writes on its sector (R5). -/
def Access.headerWritten (a : Access) : HeaderState :=
  if a.pass = .marking then .void else if a.kind = .clearStep then .blank else .written

/-- What a cut leaves on the medium: a torn header in the HEADER phase, a whole header over torn data in the DATA phase (R9). -/
def tear (s : State) : State :=
  match s.seq.access with
  | none => s
  | some a =>
    match s.seq.phase with
    | .header => putHeader a.address .torn s
    | .data => putData a.address a.headerWritten .torn s
    | _ => s

/-- FAULT becoming active: the gate closes, an outstanding command and its timer are abandoned, the position is unknown, the
sequencer is UNSAFE and issues FAULT-CLEAR (R140). -/
def enterNotSafe (s : State) : State :=
  issueFaultClear (updSeq (fun q => { q with state := .notSafe, cylinder := none, target := none, phase := .none, gate := false,
                                             accepted := false, seekTimer := none, restoreTimer := none }) s)

/-- READY becoming inactive: NO-CARTRIDGE from any state (R114). -/
def enterNoCartridge (s : State) : State :=
  updSeq (fun q => { q with state := .noCartridge, cylinder := none, counter := none, target := none, phase := .none, gate := false,
                            accepted := false, seekTimer := none, restoreTimer := none, faultTimer := none }) s

/-- Whether a SEEK or RESTORE is outstanding (R111). -/
def State.commandOutstanding (s : State) : Bool := s.seq.state == .seeking || s.seq.state == .restoring

end Sys2Proof.Machine
end

