-- ==== Sys2Proof/Machine/Arbiter.lean ====
section
/-! DEFINITION. Eligibility, the drive arbiter's choice, and the grant of a run (R75 to R84, R41, R42). -/

namespace Sys2Proof.Machine

/-! ## Overlap and eligibility -/

/-- The sectors a piece of work is taken to touch (R75): of an extent, or of the label (`slot` absent), from `lo` up to but not
including `hi`. -/
structure Touch where
  slot : Option Slot
  lo : Nat
  hi : Nat
  writes : Bool
  deriving DecidableEq, Repr

/-- Two pieces of work overlap when their sets share a sector and at least one of them writes (R75). -/
def Touch.overlaps (t u : Touch) : Bool :=
  decide (t.slot = u.slot ∧ t.lo < u.hi ∧ u.lo < t.hi ∧ t.lo < t.hi ∧ u.lo < u.hi) && (t.writes || u.writes)

/-- What an entry touches (R75); a FLUSH touches nothing. -/
def State.entryTouch (s : State) (e : Entry) : Option Touch :=
  match e.kind, e.slot with
  | .read, some k => some { slot := some k, lo := e.first, hi := e.first + e.count, writes := false }
  | .write, some k => some { slot := some k, lo := e.first, hi := e.first + e.count, writes := true }
  | .append, some k => some { slot := some k, lo := e.appendStart.getD (s.fillMark k), hi := e.size, writes := true }
  | .mapStore, _ => some { slot := none, lo := 0, hi := 1, writes := true }
  | _, _ => none

/-- What a posted write touches (R75). -/
def State.postedTouch (s : State) (p : Posted) : Touch :=
  match p.kind with
  | .write => { slot := some p.slot, lo := p.first.getD 0, hi := p.first.getD 0 + p.count, writes := true }
  | .append => { slot := some p.slot, lo := p.first.getD (s.fillMark p.slot), hi := p.size, writes := true }

/-- Older unfinished work overlaps (R76, second condition; R77). -/
def State.olderOverlap (s : State) (n : Nat) (t : Touch) : Bool :=
  s.work.any (fun e => e.live && decide (e.order < n) &&
      (match s.entryTouch e with | some u => t.overlaps u | none => false))
    || s.posted.any (fun p => decide (p.order < n) && t.overlaps (s.postedTouch p))

/-- An older unfinished APPEND stands on the extent (R76, third condition; R78). -/
def State.olderAppend (s : State) (n : Nat) (k : Slot) : Bool :=
  s.work.any (fun e => e.live && e.kind == .append && e.slot == some k && decide (e.order < n))
    || s.posted.any (fun p => p.kind == .append && p.slot == k && decide (p.order < n))

/-- The volume is usable by transactions (R76, first condition). -/
def State.volumeUsable (s : State) : Bool := s.volume.state == .mounted || s.volume.state == .draining

/-- A READ's unused quota, its own reservation counted, covers its next run (R76, fourth condition; R98). -/
def State.quotaCovers (s : State) (e : Entry) : Bool :=
  decide (runLength (s.nextSector e) e.remaining ≤ s.unused e.channel + e.reserved)

/-- The conditions of R76 that bear on an entry's kind and on the moment. -/
def State.mayRunNow (s : State) (e : Entry) : Bool :=
  match e.kind with
  | .read => s.quotaCovers e
  | .write => !s.writeHold
  | .append => !s.writeHold
  | .mapStore => !s.writeHold
  | .flush => false

/-- Nothing older holds an entry back (R77, R78). -/
def State.notHeldBack (s : State) (e : Entry) : Bool :=
  (match s.entryTouch e with | some t => !s.olderOverlap e.order t | none => true)
    && (match e.kind, e.slot with | .append, some k => !s.olderAppend e.order k | _, _ => true)

/-- An entry is eligible (R76). -/
def State.entryEligible (s : State) (e : Entry) : Bool :=
  (e.state == .queued || e.state == .parked) && s.volumeUsable && s.notHeldBack e && s.mayRunNow e

/-- A posted write is eligible for its commit (R76). -/
def State.postedEligible (s : State) (p : Posted) : Bool :=
  !p.committing && s.volumeUsable && !s.olderOverlap p.order (s.postedTouch p)
    && (p.kind != .append || !s.olderAppend p.order p.slot) && !s.writeHold

/-! ## The choice (R81, R82) -/

/-- A piece of eligible work as the arbiter sees it. -/
structure Candidate where
  owner : Owner
  cls : WorkClass
  cylinder : Nat
  order : Nat
  deriving DecidableEq, Repr

/-- The next-run cylinder of an APPEND: where the fill mark lies, or the extent's last cylinder when it is full (R72). -/
def appendCylinder (base size mark : Nat) : Nat := if mark ≥ size then cylinderOf base (size - 1) else cylinderOf base mark

/-- An entry's next-run cylinder (R72). -/
def State.entryCylinder (s : State) (e : Entry) : Nat :=
  match e.kind with
  | .append => appendCylinder e.base e.size (s.nextSector e)
  | .mapStore => 0
  | _ => cylinderOf e.base (s.nextSector e)

/-- The next sector of a posted write's next run (R103). -/
def State.postedNext (s : State) (p : Posted) : Nat :=
  match p.kind with
  | .write => p.first.getD 0 + p.committed
  | .append => s.fillMark p.slot

/-- A posted write's next-run cylinder. -/
def State.postedCylinder (s : State) (p : Posted) : Nat :=
  match p.kind with
  | .write => cylinderOf p.base (s.postedNext p)
  | .append => appendCylinder p.base p.size (s.postedNext p)

/-- Every eligible piece of work. -/
def State.candidates (s : State) : List Candidate :=
  (s.work.filter s.entryEligible).map (fun e =>
      { owner := .entry e.order, cls := e.cls.getD .bulk, cylinder := s.entryCylinder e, order := e.order })
    ++ (s.posted.filter s.postedEligible).map (fun p =>
      { owner := .posted p.order, cls := p.cls, cylinder := s.postedCylinder p, order := p.order })

/-- Keeps the better of two by a strict preference, the earlier when neither is preferred. -/
def better {α : Type} (pref : α → α → Bool) (x : α) : Option α → α
  | none => x
  | some y => if pref y x then y else x

/-- The most preferred member of a list. -/
def best {α : Type} (pref : α → α → Bool) : List α → Option α
  | [] => none
  | x :: xs => some (better pref x (best pref xs))

/-- The members of the highest class present (R81). -/
def highestClass (cs : List Candidate) : List Candidate :=
  cs.filter (fun c => cs.all (fun d => decide (c.cls.code ≤ d.cls.code)))

/-- How far a candidate's cylinder lies from the arm. -/
def Candidate.distance (c : Candidate) (arm : Nat) : Nat := (c.cylinder - arm) + (arm - c.cylinder)

/-- The nearest candidate, the older between two at one cylinder (R82). -/
def nearest (arm : Nat) (cs : List Candidate) : Option Candidate :=
  best (fun c d => decide (c.distance arm < d.distance arm ∨ (c.distance arm = d.distance arm ∧ c.order < d.order))) cs

/-- The candidates that lie in a direction from the arm, its own cylinder included (R82). -/
def inDirection (dir : Direction) (arm : Nat) (cs : List Candidate) : List Candidate :=
  cs.filter (fun c => match dir with | .inward => decide (arm ≤ c.cylinder) | .outward => decide (c.cylinder ≤ arm))

/-- The other direction. -/
def Direction.reverse : Direction → Direction
  | .inward => .outward
  | .outward => .inward

/-- The elevator's choice and the direction after it: it reverses when nothing lies ahead (R82). -/
def elevator (dir : Direction) (arm : Nat) (cs : List Candidate) : Option Candidate × Direction :=
  match nearest arm (inDirection dir arm cs) with
  | some c => (some c, dir)
  | none => (nearest arm (inDirection dir.reverse arm cs), if cs.isEmpty then dir else dir.reverse)

/-- The arbiter's choice: by class first, the oldest of URGENT, the elevator for the others (R81). -/
def choose (dir : Direction) (arm : Nat) (cs : List Candidate) : Option Candidate × Direction :=
  let top := highestClass cs
  match top with
  | [] => (none, dir)
  | c :: _ =>
    if c.cls = .urgent then (best (fun c d => decide (c.order < d.order)) top, dir) else elevator dir arm top

/-- Eligible work of a class strictly higher than this one exists (R84, second test). -/
def State.higherWaits (s : State) (c : WorkClass) : Bool := s.candidates.any (fun d => decide (d.cls.code < c.code))

/-! ## The label's contents (R10) -/

/-- A defect list entry as a defect image entry (R10). -/
def Defect.raw (d : Defect) : RawDefect :=
  { cylinder := d.cylinder, head := d.head, sector := d.sector, cause := d.cause.code, firstSeen := d.firstSeen, count := d.count }

/-- The label contents built from the state, with a serial (R10). -/
def State.buildLabel (s : State) (serial : BitVec 32) : Label :=
  { version := 1, serial := serial, map := s.extents.map (fun e => e.map (fun x => x.defn.raw)),
    defects := s.seq.defects.map Defect.raw, marker := true }

/-- A label write begins: its contents are built in the controller buffer, the sector is the label sector, the write is always read
back (R100, R115, R161). -/
def beginLabelWrite (owner : Owner) (serial : BitVec 32) (s : State) : State :=
  beginAccess (Access.begin owner .labelWrite (some .setup) true none 0 0 1 1) { s with ctlBuffer := .label (s.buildLabel serial) }

/-! ## The grant (R83) -/

/-- A READ's run: its buffers are allocated, the room left covers what it can of the next run's reservation, and the sequencer begins
(R83, R98). -/
def grantRead (e : Entry) (s : State) : State :=
  let m := e.first + e.done
  let len := runLength m e.remaining
  let room := s.unused e.channel + e.reserved - len
  let following := runLength (m + len) (e.remaining - len)
  let s := updEntry e.order (fun x => { x with allocated := len, reserved := min room following, run := some (m, len) }) s
  beginAccess (Access.begin (.entry e.order) .readRun e.cls false e.slot e.base m (m + len) e.size) s

/-- A WRITE's run, once its claim is held (R41, R83). -/
def grantWrite (e : Entry) (s : State) : State :=
  let m := e.first + e.done
  let len := runLength m e.remaining
  let s := updEntry e.order (fun x => { x with run := some (m, len), tornNext := false }) s
  beginAccess { Access.begin (.entry e.order) .writeRun e.cls e.verify e.slot e.base m (m + len) e.size with tornResume := e.tornNext } s

/-- An APPEND's run from the fill mark; the first one records the append start (R72, R83, R130). -/
def grantAppend (e : Entry) (mark : Nat) (s : State) : State :=
  let len := runLength mark e.remaining
  let s := updEntry e.order (fun x => { x with run := some (mark, len), appendStart := some (x.appendStart.getD mark) }) s
  beginAccess (Access.begin (.entry e.order) .appendRun e.cls e.verify e.slot e.base mark ((mark / 24 + 1) * 24) e.size) s

/-- A grant makes an entry ACTIVE and hands its next run to the sequencer, or ends it where it stands (R83). A MAP-STORE's label sector lies
outside every extent and has no relative sector number, so its current run has no value that R72 names; that the field is absent for it
while it is ACTIVE is the model's choice (log 45). -/
def grantEntry (n : Nat) (s : State) : State :=
  match s.entry n with
  | none => s
  | some e =>
    let s := updEntry n (fun x => { x with state := .active, deadline := none }) s
    match e.kind, e.slot with
    | .read, _ => grantRead e s
    | .write, some k =>
      if s.mayWriteNow k e.channel e.token then grantWrite e s else endEntry n .claimLost s
    | .append, some k =>
      if s.fillMark k ≥ e.size then endEntry n .extentFull s else grantAppend e (s.fillMark k) s
    | .mapStore, _ =>
      beginLabelWrite (.entry n) (if s.volume.label = some .valid then s.volume.serial.getD e.serial else e.serial) s
    | _, _ => s

/-- A posted write's commit run (R83, R103): COMMITTING, after its claim check (R42) or its full check (R22). -/
def grantPosted (n : Nat) (s : State) : State :=
  match s.postedWrite n with
  | none => s
  | some p =>
    let s := updPosted n (fun x => { x with committing := true, tornNext := false }) s
    match p.kind with
    | .write =>
      if s.mayWriteNow p.slot p.channel p.token then
        let m := p.first.getD 0 + p.committed
        let len := runLength m (p.count - p.committed)
        beginAccess { Access.begin (.posted n) .writeRun (some p.cls) p.verify (some p.slot) p.base m (m + len) p.size with
                        tornResume := p.tornNext } s
      else faultPosted n .claimLost s
    | .append =>
      let mark := s.fillMark p.slot
      if mark ≥ p.size then faultPosted n .mediumError s
      else
        let s := updPosted n (fun x => { x with first := some (x.first.getD mark) }) s
        beginAccess (Access.begin (.posted n) .appendRun (some p.cls) p.verify (some p.slot) p.base mark ((mark / 24 + 1) * 24)
          p.size) s

/-- Whether a chosen piece of work writes (R79). -/
def State.choiceWrites (s : State) : Owner → Bool
  | .entry n => match s.entry n with | some e => e.kind != .read | none => false
  | .posted _ => true
  | _ => false

/-- A write chosen while PROTECT is active ends WRITE-PROTECTED, or faults if posted, its log entry left to `logProtected` (R79). -/
def endProtected (o : Owner) (s : State) : State :=
  match o with
  | .entry n => endEntry n .writeProtected s
  | .posted n => match s.postedWrite n with | some p => leaveFaulted p s | none => s
  | _ => s

/-- The posted writes that have left since `before` are logged WRITE-PROTECTED, in admission order (R106). -/
def logProtected (before s : State) : State :=
  (before.posted.filter (fun p => (s.postedWrite p.order).isNone)).foldl (logFault .writeProtected) s

/-- A chosen piece of work is granted the drive (R83). -/
def grant (o : Owner) (s : State) : State :=
  match o with
  | .entry n => grantEntry n s
  | .posted n => grantPosted n s
  | _ => s

/-! ## Parking and run boundaries (R84) -/

/-- An entry is PARKED, or a posted write PENDING again, with its progress kept; a READ's unread run buffers are released (R84, R103,
R140). `torn` says that the sector its next run begins with was torn (R127). -/
def park (o : Owner) (torn : Bool) (s : State) : State :=
  match o with
  | .entry n => updEntry n (fun e => { e with state := .parked, run := none, allocated := 0, tornNext := torn }) s
  | .posted n => updPosted n (fun p => { p with committing := false, tornNext := torn }) s
  | _ => s

/-- The index, within its request, of the sector an entry's access works on (R68): of the data sector for an APPEND. -/
def State.sectorIndex (s : State) (a : Access) : Nat :=
  match a.owner with
  | .entry n =>
    match s.entry n with
    | some e =>
      match e.kind with
      | .append => e.count - e.writeBuffers.length
      | .mapStore => 0
      | _ => a.sector - e.first
    | none => 0
  | _ => 0

/-- A sector's condition is reported to the entry that owns the access (R89); a posted write and a sweep keep none. -/
def reportSector (a : Access) (c : Condition) (s : State) : State :=
  match a.owner with
  | .entry n => reportCondition n (s.sectorIndex a) c s
  | _ => s

/-- The sectors a run completed are added to the entry's sectors done (R84, R89). -/
def creditRun (a : Access) (s : State) : State :=
  match a.owner with
  | .entry n => updEntry n (fun e => { e with done := e.done + a.done }) s
  | _ => s

/-- An entry's run has ended with sectors remaining: the tests of R84 in order. A stop that waited in the run is taken here: that of PROTECT
ends a write even when PROTECT has become INACTIVE since (R146, log 14), that of POWER parks it (R144), and that of an expired drain timer
parks any, to be ended by the drain (R158). -/
def boundaryEntry (stop : Option Stop) (n : Nat) (s : State) : State :=
  match s.entry n with
  | none => s
  | some e =>
    if e.kind ≠ .read ∧ (stop = some .protect ∨ s.ownerActive .protect = true) then endEntry n .writeProtected s
    else if (e.kind ≠ .read ∧ stop.isSome = true) ∨ s.volume.drainExpired = true then park (.entry n) false s
    else if (s.settings.row (e.cls.getD .bulk)).yields && s.higherWaits (e.cls.getD .bulk) then park (.entry n) false s
    else if s.volumeUsable && s.mayRunNow e then grantEntry n s
    else park (.entry n) false s

/-- A commit run has ended with sectors remaining: the same tests (R103). -/
def boundaryPosted (stop : Option Stop) (n : Nat) (s : State) : State :=
  match s.postedWrite n with
  | none => s
  | some p =>
    if stop = some .protect ∨ s.ownerActive .protect = true then faultPosted n .writeProtected s
    else if stop.isSome = true ∨ s.volume.drainExpired = true then park (.posted n) false s
    else if (s.settings.row p.cls).yields && s.higherWaits p.cls then park (.posted n) false s
    else if s.volumeUsable && !s.writeHold then grantPosted n s
    else park (.posted n) false s

/-- A posted write has no sectors remaining: it commits, or faults MEDIUM-ERROR when one of them was torn (R104). -/
def finishPosted (n : Nat) (s : State) : State :=
  match s.postedWrite n with
  | none => s
  | some p => if p.torn then faultPosted n .mediumError s else commitPosted n s

/-- A run ends (R84, R103): its sectors are credited, and the work finishes or reaches a run boundary. The room of a buffer that its last
sector released goes to short reservations before the tests of the boundary are made, which count only what is left (R98). -/
def runEnds (a : Access) (s : State) : State :=
  let s := creditRun a (endAccess s)
  match a.owner with
  | .entry n =>
    match s.entry n with
    | none => s
    | some e => if e.remaining = 0 then endEntry n e.normalOutcome s else boundaryEntry a.nextStop n (topUpBoth s)
  | .posted n =>
    match s.postedWrite n with
    | none => s
    | some p => if p.buffers.isEmpty then finishPosted n s else boundaryPosted a.nextStop n (topUpBoth s)
  | _ => s

end Sys2Proof.Machine
end

