-- ==== Sys2Proof/Machine/VolumeUnit.lean ====
section
/-! DEFINITION. The volume manager's own work: the test and the loading of a label, the fill search, the completion of a mount, and
departure (R11, R44, R93, R110, R149 to R155). -/

namespace Sys2Proof.Machine

/-! ## The label's test (R11) -/

/-- The definitions of a map image; none when a present slot's definition is not well formed (R11, condition 5). -/
def mapDefinitions (m : Vector (Option RawDefinition) 32) : Option (Vector (Option Definition) 32) :=
  if m.toList.all (fun r => match r with | none => true | some raw => (wellFormedDefinition raw).isSome) then
    some (m.map (fun r => r.bind wellFormedDefinition))
  else none

/-- No two present slots include a common cylinder (R11, condition 6). -/
def disjointMap (m : Vector (Option Definition) 32) : Bool :=
  (List.finRange 32).all (fun i => (List.finRange 32).all (fun j =>
    decide (j ≤ i) || match m.get i, m.get j with | some d, some e => !d.overlaps e | _, _ => true))

/-- The cause a defect image entry names (R10). -/
def defectCauseOf : Nat → Option DefectCause
  | 0 => some .read
  | 1 => some .write
  | 2 => some .header
  | _ => none

/-- A defect image entry in range, as a defect list entry (R11, condition 7). -/
def defectOf (d : RawDefect) : Option Defect :=
  match defectCauseOf d.cause with
  | some c =>
    if 1 ≤ d.cylinder ∧ d.cylinder ≤ 319 ∧ d.head ≤ 1 ∧ d.sector ≤ 11 ∧ 1 ≤ d.count ∧ d.count ≤ 255 then
      some { cylinder := d.cylinder, head := d.head, sector := d.sector, cause := c, firstSeen := d.firstSeen, count := d.count }
    else none
  | none => none

/-- The defect list a defect image holds: 16 entries or fewer, each in range, no two at one address (R11, condition 7). -/
def defectsOf (ds : List RawDefect) : Option (List Defect) :=
  if ds.length ≤ 16 ∧ ds.all (fun d => (defectOf d).isSome) = true ∧ (ds.map (fun d => (d.cylinder, d.head, d.sector))).Nodup then
    some (ds.filterMap defectOf)
  else none

/-- Conditions 3 to 7 of R11 on a label's named contents; conditions 1 and 2 are the header and data checks of the read. -/
def testLabel (l : Label) : Option (Vector (Option Definition) 32 × List Defect) :=
  match mapDefinitions l.map, defectsOf l.defects with
  | some m, some ds => if l.marker = true ∧ l.version = 1 ∧ disjointMap m = true then some (m, ds) else none
  | _, _ => none

/-! ## The mount (R150 to R153) -/

/-- An extent as a mount makes it; an APPEND extent's fill fields are then set by the fill search (R21, R151). Until then they are mark 0,
UNKNOWN and pending 0: R21 gives no value for that time, in which no request can read them, and these are the model's choice (log 31). -/
def mountedExtent (d : Definition) : Extent :=
  { defn := d, fill := if d.kind = .append then some { mark := 0, state := .unknown, pending := 0 } else none, clearing := false }

/-- The mount stage changed. -/
def setMount (m : MountStage) (s : State) : State := { s with volume := { s.volume with mount := m } }

/-- The mount completes (R153): MOUNTED, map-modified clear, extent claims NONE/0 (R34), VOLUME-CHANGE at both ports. -/
def mountComplete (s : State) : State :=
  raiseBoth .volumeChange
    { s with volume := { s.volume with state := .mounted, mapModified := false, mount := .none }
             extClaims := Vector.replicate 32 ClaimRecord.free }

/-- The label read begins: the label sector into the controller buffer (R100, R151). -/
def beginLabelRead (s : State) : State :=
  beginAccess (Access.begin .volume .labelRead none false none 0 0 1 1) { setMount .label s with ctlBuffer := .labelIn }

/-- A probe of the fill search begins: the header of one sector (R152). -/
def beginProbe (k : Slot) (m : Nat) (s : State) : State :=
  match s.extent k with
  | some e => beginAccess (Access.begin .volume .probe none false (some k) e.defn.first m (m + 1) e.defn.size) s
  | none => s

/-- The mount's next access begins when the drive is free (R150): the label read once the restore is made, or the next probe; after a
fault's recovery the cut access is begun again (R154). -/
def mountAdvance (s : State) : State :=
  if s.volume.state = .mounting ∧ s.driveFree then
    match s.volume.mount with
    | .restore => beginLabelRead s
    | .label => beginLabelRead s
    | .search k lo hi => beginProbe k ((lo + hi) / 2) s
    | .none => s
  else s

/-- The first present APPEND extent at or above a slot number (R152). -/
def State.nextAppend (s : State) (i : Nat) : Option Slot :=
  (List.finRange 32).find? (fun k => decide (i ≤ k.val) &&
    match s.extent k with | some e => e.defn.kind == .append | none => false)

/-- The fill search goes on with the next APPEND extent in slot order, or the mount completes (R152, R153). -/
def searchFrom (i : Nat) (s : State) : State :=
  match s.nextAppend i with
  | none => mountComplete s
  | some k =>
    match s.extent k with
    | some e => mountAdvance (setMount (.search k 0 e.defn.size) s)
    | none => s

/-- The label read has ended, with the contents read or with none (R151): a valid label is loaded and the fill search begins, an invalid
one leaves the volume UNLABELLED and completes the mount. -/
def labelFound (l : Option Label) (s : State) : State :=
  match l.bind testLabel, l with
  | some (m, ds), some l =>
    searchFrom 0
      { s with volume := { s.volume with label := some .valid, serial := some l.serial }
               extents := m.map (fun d => d.map mountedExtent)
               seq := { s.seq with defects := ds, overflow := false } }
  | _, _ => mountComplete { s with volume := { s.volume with label := some .unlabelled } }

/-- A probe has reported a header state, or none after every allowed attempt or a seek error (R152). -/
def probeFound (r : Option HeaderState) (s : State) : State :=
  match s.volume.mount with
  | .search k lo hi =>
    let mid := (lo + hi) / 2
    match r with
    | none => searchFrom (k.val + 1) (updFill k (fun f => { f with mark := 0, state := .unknown }) s)
    | some st =>
      let lo' := if st = .blank then lo else mid + 1
      let hi' := if st = .blank then mid else hi
      if lo' < hi' then mountAdvance (setMount (.search k lo' hi') s)
      else searchFrom (k.val + 1) (updFill k (fun f => { f with mark := lo', state := .known }) s)
  | _ => s

/-- An access of the mount has ended; its result is dropped when the mount has been cut meanwhile (R154). -/
def mountAccessEnds (f : State → State) (s : State) : State :=
  let s := endAccess s
  if s.volume.state = .mounting then f s else s

/-- The generation of the next mount (R149). -/
def nextGeneration (g : Nat) : Nat := if g = 255 then 1 else g + 1

/-- A mount begins (R150): MOUNTING, the generation advanced, a RESTORE; with FAULT ACTIVE the sequencer enters UNSAFE as it enters
RESTORING (R137). -/
def beginMount (s : State) : State :=
  let s := { s with volume := { s.volume with state := .mounting, generation := nextGeneration s.volume.generation, label := none,
                                              serial := none, mapModified := false, mount := .restore } }
  if s.seq.state = .noCartridge ∨ s.seq.state = .idle then
    let s := issueRestore s
    if s.ownerActive .fault then enterNotSafe s else s
  else s

/-! ## Departure (R155) -/

/-- The sequencer's part when READY is still ACTIVE (R114, R133): the transfer is cut, an outstanding command is abandoned with its
timer and the position unknown; STOP is issued unless the sequencer is OFFLINE or already STOPPING or without a cartridge. -/
def seqDeparts (s : State) : State :=
  let lost := s.commandOutstanding
  let s := updSeq (fun q => { q with access := none, target := none, phase := .none, gate := false,
                                     cylinder := if lost then none else q.cylinder }) s
  if s.seq.state = .offline ∨ s.seq.state = .stopping ∨ s.seq.state = .noCartridge then s else issueStop s

/-- A departure that cuts an APPEND's own sector write in its DATA phase leaves that sector torn inside the prefix below the fill mark, and
TORN is reported in the APPEND's condition list (R9). Nothing is counted for it (R93, log 42). -/
def reportTornAppend (s : State) : State :=
  match s.seq.access with
  | some a => if a.kind = .appendRun ∧ a.pass = .work ∧ s.seq.phase = .data then reportSector a .torn s else s
  | none => s

/-- A departure from any state but ABSENT (R155), in one step: the transfer cut, entries VOLUME-GONE (R93), posted writes faulted (R110),
the sweep ended (R173), then the table, claims and defect list emptied (R13, R44, R134), the volume ABSENT, VOLUME-CHANGE at both
ports, and the waiting requests taken afresh (R49). The entries' completions become due in admission order, before those of the FLUSHes that
the faults end, and the sweep's last: that order is the model's choice (log 30). -/
def depart (s : State) : State :=
  if s.volume.state = .absent then s
  else
    let s := match s.seq.access with | some a => creditRun a (tear (reportTornAppend s)) | none => s
    let s := { seqDeparts s with ctlBuffer := .free }
    let es := (s.work.filter Entry.live).map (fun e => e.order)
    let ps := s.posted.map (fun p => p.order)
    let s := faultAll ps .volumeGone (endEntries es .volumeGone s)
    let s := endSweep (some .departure) s
    let s := { s with extents := Vector.replicate 32 none
                      extClaims := Vector.replicate 32 ClaimRecord.free
                      seq := { s.seq with defects := [], overflow := false }
                      volume := { s.volume with state := .absent, label := none, serial := none, mapModified := false,
                                                drainTimer := none, mount := .none, drainExpired := false } }
    let s := raiseBoth .volumeChange s
    retakeStage .B (retakeStage .A s)

end Sys2Proof.Machine
end

