-- ==== Sys2Proof/Machine/Transfer.lean ====
section
/-! DEFINITION. What the passages of an access come to: sectors read and written, failures and retries, appending and VOID marking, stops
taken at sector ends, and cuts (R123 to R133, R139 to R146, R158 to R162). -/

namespace Sys2Proof.Machine

/-! ## The owner's data -/

/-- The write data buffers of the access's owner. -/
def State.ownerBuffers (s : State) (a : Access) : List (List Word) :=
  match a.owner with
  | .entry n => ((s.entry n).map (fun e => e.writeBuffers)).getD []
  | .posted n => ((s.postedWrite n).map (fun p => p.buffers)).getD []
  | _ => []

/-- The 256 words that the access writes on its sector (R5): zeros for a VOID marking or a clearing step, the label's words, or the first
of the owner's buffers. -/
def State.writeData (s : State) (a : Access) : List Word :=
  if a.pass = .marking ∨ a.kind = .clearStep then zeroSector.toList
  else if a.kind = .labelWrite then
    match s.ctlBuffer with
    | .label l => (Config.labelWords l).toList
    | _ => zeroSector.toList
  else (s.ownerBuffers a).headD []

/-- The first write data buffer of the access's owner is released (R99). -/
def dropBuffer (a : Access) (s : State) : State :=
  match a.owner with
  | .entry n => updEntry n (fun e => { e with writeBuffers := e.writeBuffers.tail }) s
  | .posted n => updPosted n (fun p => { p with buffers := p.buffers.tail }) s
  | _ => s

/-- A posted write counts a sector committed (R102). -/
def countCommitted (a : Access) (s : State) : State :=
  match a.owner with
  | .posted n => updPosted n (fun p => { p with committed := p.committed + 1 }) s
  | _ => s

/-- Whether the access's request carries FORCE (R136). -/
def State.ownerForce (s : State) (a : Access) : Bool :=
  match a.owner with
  | .entry n => ((s.entry n).map (fun e => e.flags.force)).getD false
  | .posted n => ((s.postedWrite n).map (fun p => p.force)).getD false
  | _ => false

/-- The cause with which a posted write faults where a work entry would end with a code: SEEK-ERROR and EXTENT-FULL are MEDIUM-ERROR
(R22, R105). -/
def postedCause : Code → Code
  | .seekError => .mediumError
  | .extentFull => .mediumError
  | c => c

/-- An ending is reported during a run (R89, R90): the access ends, the run's sectors are credited, the entry ends or the posted write
faults. -/
def endRun (a : Access) (code : Code) (s : State) : State :=
  let s := creditRun a (endAccess s)
  match a.owner with
  | .entry n => endEntry n code s
  | .posted n => faultPosted n (postedCause code) s
  | _ => s

/-- A run ends with its work kept (R144, R158): the access ends, its sectors are credited, the work is PARKED or PENDING. -/
def stopRun (a : Access) (torn : Bool) (s : State) : State := park a.owner torn (creditRun a (endAccess s))

/-- The store of STORING ends without or with its write made (R159): RELEASING follows. -/
def storeEnds (s : State) : State := enterReleasing (endAccess s)

/-! ## Cuts (R140, R141, R145) -/

/-- What a cut leaves of the sector an APPEND's run is working on (R141). -/
inductive AppendCut where
  | untouched
  | unknown
  | torn
  deriving DecidableEq, Repr

/-- The rows of R141's table: by the phase, by whether the sector is in a VOID marking, and by whether the fill mark has passed it. -/
def appendCut (a : Access) (phase : Phase) (mark : Nat) : AppendCut :=
  if phase = .header then .unknown
  else if a.pass = .markCheck ∨ (a.pass = .marking ∧ phase = .data) then (if mark > a.sector then .untouched else .unknown)
  else if mark > a.sector then .torn else .untouched

/-- A data sector is counted appended as TORN (R141): condition, buffer, appends pending, and the posted write's torn field. -/
def countTorn (a : Access) (s : State) : State :=
  let s := reportSector a .torn s
  let s := dropBuffer a s
  let s := match a.slot with | some k => lowerPending k 1 s | none => s
  match a.owner with
  | .posted n => updPosted n (fun p => { p with torn := true }) s
  | _ => s

/-- The slot of an access, for an access that has one. -/
def withSlot (a : Access) (f : Slot → State → State) (s : State) : State :=
  match a.slot with
  | some k => f k s
  | none => s

/-- The fill effect of a clearing step cut on a sector (R23): UNKNOWN, on the sector at fill mark − 1 of a KNOWN extent. The fill mark stands
there until the step's HEADER phase completes (R24, R169), so every cut that finds it there comes before that. -/
def clearCut (m : Nat) (k : Slot) (s : State) : State :=
  match s.fill k with
  | some f => if f.state = .known ∧ f.mark = m + 1 then fillBecomesUnknown k s else s
  | none => s

/-- What a POWER cut leaves of a run, or of a MAP-STORE with no HEADER phase begun, whose work it keeps: PARKED or PENDING (R145), or, with a
PROTECT stop taken first, ended WRITE-PROTECTED, which the cut has made its point to end at (R146, log 34). -/
def cutRun (a : Access) (torn : Bool) (s : State) : State :=
  if a.protectFirst then endRun a .writeProtected s else stopRun a torn s

/-- An APPEND's run cut by POWER in IMMEDIATE mode (R141, R145). -/
def appendPowerCut (a : Access) (k : Slot) (s : State) : State :=
  match appendCut a s.seq.phase (s.fillMark k) with
  | .unknown => fillBecomesUnknown k (endRun a .mediumError (reportSector a .mediumError s))
  | .untouched => cutRun a false s
  | .torn =>
    let s := countTorn a s
    let a := { a with done := a.done + 1 }
    if (s.ownerBuffers a).isEmpty then runEnds a s else cutRun a false s

/-- A write access cut by POWER in IMMEDIATE mode (R145). A MAP-STORE whose HEADER phase has begun ends under PROTECT as it would have (R146):
it is PARKED here, whatever stop waits. The store of STORING is made again (R159), also where a PROTECT stop came after the cut (log 46). -/
def powerCut (a : Access) (s : State) : State :=
  let phase := s.seq.phase
  let s := tear s
  match a.kind with
  | .writeRun => cutRun a (a.tornResume || phase == .header || phase == .data) s
  | .appendRun => withSlot a (appendPowerCut a) s
  | .labelWrite =>
    match a.owner with
    | .entry _ => if a.underWay then stopRun a false s else cutRun a false s
    | _ => endAccess s
  | .clearStep => stepUnmade (endAccess (withSlot a (clearCut a.sector) s))
  | _ => s

/-- An APPEND's run cut by FAULT (R140, R141). -/
def appendFaultCut (a : Access) (k : Slot) (s : State) : State :=
  match appendCut a s.seq.phase (s.fillMark k) with
  | .unknown => fillBecomesUnknown k (endRun a .writeFault s)
  | .untouched => endRun a .writeFault s
  | .torn => endRun { a with done := a.done + 1 } .writeFault (countTorn a s)

/-- An access cut by FAULT becoming active ends by its kind (R140). The store of STORING stays to be made again (R159), also where a PROTECT
stop asked before its HEADER phase still waited for its command, which the cut drops: the model's choice (log 46). -/
def faultCut (a : Access) (s : State) : State :=
  let s := tear s
  match a.kind with
  | .writeRun => endRun a .writeFault s
  | .appendRun => withSlot a (appendFaultCut a) s
  | .labelWrite =>
    match a.owner with
    | .entry _ => endRun a .writeFault s
    | _ => endAccess s
  | .readRun => stopRun a false s
  | .clearStep => stepUnmade (endAccess (withSlot a (clearCut a.sector) s))
  | .scanStep => stepUnmade (endAccess s)
  | .labelRead => endAccess s
  | .probe => endAccess s

/-! ## Stops (R144, R146, R158) -/

/-- A stop is taken with sectors remaining and none under way (R144, R146): parked for POWER, ended for PROTECT, cut for a cut that waited
for a command to end (R133). -/
def takeStop (a : Access) (torn : Bool) (c : Stop) (s : State) : State :=
  match c with
  | .cut => powerCut a s
  | .power => stopRun a torn s
  | .protect =>
    match a.kind, a.owner with
    | .clearStep, _ => stepUnmade (endAccess s)
    | .labelWrite, .volume => storeEnds s
    | _, _ => endRun a .writeProtected s

/-- An expired drain timer stops a run or a scanning step with no sector under way (R158). A halted sweep's clearing step is carried to its
sector end (R171, R144, log 35). That a MAP-STORE's label write with no sector under way is stopped, as R158 says of an access, where R144's
table carries that single sector to its end, is the model's choice (log 44). That a sector under way is carried to its end also through a
recalibration's SEEK or RESTORE, with whose end R133 would end the access, is the model's choice (log 38). -/
def State.drainStops (s : State) (a : Access) : Bool := s.volume.drainExpired && !a.underWay && (a.isRun || a.kind == .scanStep)

/-- The stop of an expired drain timer is taken (R158): a run's work is put down, to be ended by the drain; a scanning step ends unmade, and
the halted sweep with it. -/
def drainStop (a : Access) (s : State) : State :=
  if a.kind = .scanStep then stepUnmade (endAccess s) else stopRun a a.tornResume s

/-- The stop an access takes when its command ends (R133): the next that waits when no sector is under way; of a sector under way a cut
alone. That a POWER or PROTECT stop of a sector under way is not taken at the end of its recalibration's command, where R133 would end the
access, but at the sector's end, to which R144 and R146 carry it, is the model's choice (log 38). -/
def Access.stopNow (a : Access) : Option Stop :=
  if a.underWay then (if a.stops.contains .cut then some .cut else none) else a.nextStop

/-! ## Sector ends (R123) -/

/-- A sector of a READ or WRITE run has reached its end: the run ends, a stop is taken, or the next sector follows (R123, R144). A stop of
POWER or PROTECT is taken before that of an expired drain timer, whichever came first: the model's choice (log 34). -/
def sectorEnds (a : Access) (s : State) : State :=
  if a.sector + 1 ≥ a.runEnd then runEnds a s
  else match a.nextStop with
    | some c => takeStop a false c s
    | none => if s.volume.drainExpired then stopRun a false s else turnTo (a.sector + 1) s

/-- A sector of an APPEND run has reached its end (R22, R130): the run ends with no data left or outside its cylinder, the APPEND ends at
the extent's end, a stop is taken, or the sector at the fill mark follows. That the end of the extent goes before a stop that waits is the
model's choice (log 34). -/
def appendSectorEnds (a : Access) (k : Slot) (s : State) : State :=
  if (s.ownerBuffers a).isEmpty then runEnds a s
  else if s.fillMark k ≥ a.size then endRun a .extentFull s
  else if s.fillMark k ≥ a.runEnd then runEnds a s
  else match a.nextStop with
    | some c => takeStop a false c s
    | none => if s.volume.drainExpired then stopRun a false s else turnTo (s.fillMark k) s

/-! ## Reading (R124 to R126) -/

/-- A sector of a read access has its result (R124): a READ's buffer filled and its condition reported, a scanning step's sector dropped.
The label read and the probe report elsewhere. -/
def sectorRead (a : Access) (ws : List Word) (c : Option Condition) (s : State) : State :=
  match a.kind, a.owner with
  | .readRun, .entry n =>
    let s := match c with | some c => reportSector a c s | none => s
    let s := updEntry n (fun e => { e with readBuffers := e.readBuffers ++ [ws], allocated := e.allocated - 1 }) s
    let a := { a with done := a.done + 1 }
    sectorEnds a (updAccess (fun x => { x with done := x.done + 1 }) s)
  | .scanStep, _ => scanningStepEnded a.sector a.size false (endAccess s)
  | _, _ => s

/-- A read sector has failed its last allowed attempt (R125): recorded, and zero words with MEDIUM-ERROR for a READ. -/
def readFails (a : Access) (cause : DefectCause) (s : State) : State :=
  let s := recordDefect a.cylinder (headOf a.sector) (sectorOf a.sector) cause s
  match a.kind with
  | .readRun => sectorRead a zeroSector.toList (some .mediumError) s
  | .scanStep => scanningStepEnded a.sector a.size true (endAccess s)
  | .labelRead => mountAccessEnds (labelFound none) s
  | .probe => mountAccessEnds (probeFound none) s
  | _ => s

/-- An access of a mount that has been cut by UNLOAD goes no further than its passage (R154). -/
def State.mountWasCut (s : State) (a : Access) : Bool :=
  (a.kind == .labelRead || a.kind == .probe) && s.volume.state != .mounting

/-- A failed attempt at the access's sector is counted (R125, R129). `further` says whether it has called for the one further attempt at the
sector's write (R129). -/
def countFailure (further : Bool) (s : State) : State := updAccess (fun x => { x with failed := x.failed + 1, further := further }) s

/-- A failed attempt at a read passage (R125): another at the next passage, or the sector has failed. -/
def readAttemptFails (a : Access) (cause : DefectCause) (s : State) : State :=
  if s.mountWasCut a then endAccess s
  else if a.failed + 1 < 1 + s.readRetries a then nextPassage (countFailure false s)
  else readFails a cause s

/-- What ends an access as its SEEK or RESTORE ends, if anything does (R133, R154, R158): the cut of its mount by UNLOAD, a stop or cut that
waited, or an expired drain timer. -/
def State.stopAtCommandEnd (s : State) (a : Access) : Option State :=
  if s.mountWasCut a then some (endAccess s)
  else match a.stopNow with
    | some c => some (takeStop a a.tornResume c s)
    | none => if s.drainStops a then some (drainStop a s) else none

/-! ## Writing (R127 to R129) -/

/-- A MAP-STORE's label write counts as done (R161, R162). -/
def mapStoreDone (n : Nat) (a : Access) (s : State) : State :=
  let serial := match s.ctlBuffer with | .label l => some l.serial | _ => s.volume.serial
  let s := { s with volume := { s.volume with label := some .valid, serial := serial,
                                              mapModified := a.mapLoadSeen && s.volume.mapModified } }
  endEntry n .done (endAccess s)

/-- The store of STORING counts as done (R159). -/
def storeDone (s : State) : State :=
  storeEnds { s with volume := { s.volume with label := some .valid, mapModified := false } }

/-- A data sector of an APPEND is counted appended (R130): its buffer, appends pending, sectors committed. -/
def countAppended (a : Access) (k : Slot) (s : State) : State :=
  let s := lowerPending k 1 (countCommitted a (dropBuffer a s))
  let a := { a with done := a.done + 1 }
  appendSectorEnds a k (updAccess (fun x => { x with done := x.done + 1 }) s)

/-- A sector's write counts as done (R127): by the kind of its access. -/
def writeCounts (a : Access) (s : State) : State :=
  match a.kind with
  | .writeRun =>
    let s := if s.ownerForce a then removeDefect a.cylinder (headOf a.sector) (sectorOf a.sector) s else s
    let s := countCommitted a (dropBuffer a s)
    let a := { a with done := a.done + 1 }
    sectorEnds a (updAccess (fun x => { x with done := x.done + 1 }) s)
  | .appendRun => withSlot a (countAppended a) s
  | .labelWrite =>
    match a.owner with
    | .entry n => mapStoreDone n a s
    | _ => storeDone s
  | .clearStep =>
    withSlot a (fun k => clearingStepDone k a.sector)
      (endAccess (removeDefect a.cylinder (headOf a.sector) (sectorOf a.sector) s))
  | _ => s

/-- A sector write has failed (R129): recorded, and dealt with by the kind of its access; an APPEND tries one VOID marking (R131). -/
def writeFails (a : Access) (cause : DefectCause) (s : State) : State :=
  let s := recordDefect a.cylinder (headOf a.sector) (sectorOf a.sector) cause s
  match a.kind with
  | .writeRun => endRun a .mediumError (reportSector a .mediumError s)
  | .appendRun => nextPassage (updAccess (fun x => { x with pass := .marking }) s)
  | .labelWrite =>
    match a.owner with
    | .entry _ => endRun a .mediumError (reportSector a .mediumError s)
    | _ => storeEnds s
  | .clearStep => withSlot a (fun k => clearingStepFailed k a.sector) (endAccess s)
  | _ => s

/-- An attempt at a sector write has failed at its address check (R129): another attempt; after the last allowed one the one further attempt,
with a restore first where none has been made for the sector; after that one the write has failed with cause HEADER. A recalibration that
the mismatches call for (R122) is that restore; another restore leaves their count. R129's words allow two readings of a sector for which
a restore was made before its last allowed attempt, and that the one further attempt is due there too, with no restore of its own, is the
model's reading (log 43). -/
def checkAttemptFails (a : Access) (s : State) : State :=
  if a.failed + 1 < 1 + s.writeRetries a then nextPassage (countFailure false s)
  else if a.further then writeFails a .header (countFailure false s)
  else if a.restored ∨ s.seq.mismatches ≥ 2 then nextPassage (countFailure true s)
  else issueRestore (countFailure true s)

/-- An attempt at a sector write has failed at its read-back (R128, R129): the sector is written again at its following passage, or the
write has failed: with cause WRITE when that was its last allowed attempt, with cause HEADER when it was the one further attempt after its
last allowed one failed at the address check. -/
def readBackFails (a : Access) (s : State) : State :=
  let t := updAccess (fun x => { x with pass := .work }) (countFailure false s)
  if a.failed + 1 < 1 + s.writeRetries a then nextPassage t
  else writeFails a (if a.further then .header else .write) t

/-! ## VOID marking (R131) -/

/-- The marking has succeeded: the sector is VOID, the fill mark passes it if it has not, and the data sector goes on at the new fill
mark. -/
def markingSucceeds (a : Access) (k : Slot) (s : State) : State :=
  let s := updFill k (fun f => if f.mark = a.sector then { f with mark := f.mark + 1 } else f) s
  appendSectorEnds a k (reportSector a .void s)

/-- The marking has failed: recorded again, the fill state UNKNOWN, and the APPEND ends MEDIUM-ERROR. -/
def markingFails (a : Access) (cause : DefectCause) (k : Slot) (s : State) : State :=
  let s := recordDefect a.cylinder (headOf a.sector) (sectorOf a.sector) cause s
  fillBecomesUnknown k (endRun a .mediumError (reportSector a .mediumError s))

/-! ## Passages -/

/-- A failed address check, or a search that counts as one, at a passage of the current sector (R119, R122). A failed marking check is
recorded with cause WRITE and a failed marking write with cause HEADER: R131 says 'as R129 states', and which of R129's causes each takes
is the model's choice (log 32). -/
def checkFails (a : Access) (s : State) : State :=
  match a.pass with
  | .markCheck => withSlot a (markingFails a .write) s
  | .marking => withSlot a (markingFails a .header) s
  | .readBack => readBackFails a s
  | .work => if a.kind.writes then checkAttemptFails a s else readAttemptFails a .header s

/-- A readable header at the right address on a read passage (R7, R124): BLANK and VOID end the sector, WRITTEN goes on to its data; a
probe reports the state; a label sector must be WRITTEN (R11). -/
def readHeader (a : Access) (st : HeaderState) (s : State) : State :=
  match a.kind, st with
  | .probe, st => settle (mountAccessEnds (probeFound (some st)) s)
  | .labelRead, .blank => settle (mountAccessEnds (labelFound none) s)
  | .labelRead, .void => settle (mountAccessEnds (labelFound none) s)
  | _, .blank => settle (sectorRead a zeroSector.toList (some .blank) s)
  | _, .void => settle (sectorRead a zeroSector.toList (some .void) s)
  | _, .written => updSeq (fun q => { q with phase := .dataRead }) s

/-- The result of the address check of a passage carried to what it is for (R122). -/
def headerChecked (a : Access) (r : AddressCheck) (s : State) : State :=
  match a.pass, r with
  | .markCheck, .passed .void => settle (withSlot a (markingSucceeds a) s)
  | .markCheck, _ => settle (checkFails a s)
  | .readBack, _ => s
  | .marking, .passed _ => openGate a s
  | .marking, .headerFailure => if a.checkPassed then openGate a s else settle (checkFails a s)
  | .marking, .mismatch => settle (checkFails a s)
  | .work, .passed st => if a.kind.writes then openGate a s else readHeader a st s
  | .work, .headerFailure => if a.kind.writes && a.waives then openGate a s else settle (checkFails a s)
  | .work, .mismatch => settle (checkFails a s)

/-- The fill mark as a HEADER phase completes (R22, R24, R130, R169): advanced by an append write at the fill mark, lowered by a clearing
step at fill mark − 1 of a KNOWN extent, left alone by a VOID marking and everywhere else. -/
def headerFill (a : Access) (s : State) : State :=
  match a.kind, a.slot with
  | .appendRun, some k =>
    if a.pass = .work then updFill k (fun f => if f.mark = a.sector then { f with mark := f.mark + 1 } else f) s else s
  | .clearStep, some k =>
    updFill k (fun f => if f.state = .known ∧ f.mark = a.sector + 1 then { f with mark := a.sector } else f) s
  | _, _ => s

/-- A read-back's result (R128). -/
def readBackPasses (a : Access) (h : HeaderImage) (f : FieldImage) (s : State) : Bool :=
  match checkAddress a h with
  | .passed st =>
    if a.kind = .clearStep then st == .blank
    else st == .written && fieldGood f && f.data.toList == s.writeData a
  | _ => false

/-- A second seek timeout ends the access with a seek error (R117). -/
def seekFails (a : Access) (s : State) : State :=
  match a.owner, a.kind with
  | .sweep, .clearStep => stepSeekError (withSlot a (fillAsLastDone a.sector) (endAccess s))
  | .sweep, _ => stepSeekError (endAccess s)
  | .volume, .labelRead => mountAccessEnds (labelFound none) s
  | .volume, .probe => mountAccessEnds (probeFound none) s
  | .volume, _ => storeEnds s
  | _, _ => endRun a .seekError s

end Sys2Proof.Machine
end

