-- ==== Sys2Proof/Machine/ResetCommands.lean ====
section
/-! DEFINITION. POWER_ON_RESET, CHANNEL_RESET and RESET_RELEASE (R137, R184 and the reset rules of every chapter). -/

namespace Sys2Proof.Machine

/-! ## Power-on and panel reset -/

/-- A port after power-on or panel reset; the RESET line itself is the minicomputer's (R184, log 21). -/
def Port.afterReset (p : Port) : Port := { Port.reset with resetActive := p.resetActive }

/-- What power-on or panel reset leaves, before a mount begins: everything at its reset value, the six levels as sampled, POWER sampled
ACTIVE beginning a period in the mode of the default settings (R137). A sector write in progress is cut (R9), so the record of the
medium keeps what the cut left (log 7). The commands that wait are not the controller's own and stand. -/
def State.afterPowerOn (s : State) (levels : LineSet) : State :=
  { State.reset with
    ports := { a := s.ports.a.afterReset, b := s.ports.b.afterReset }
    levels := levels
    acted := levels
    powerPeriod := if hasLine levels .power then some Settings.default.powerMode else none
    powerTaken := if hasLine levels .power then some Settings.default.powerMode else none
    medium := (tear s).medium
    pending := s.pending
    takers := s.takers }

/-- POWER_ON_RESET (R137): with READY sampled ACTIVE a mount begins (R113, R150). -/
def execPowerOnReset (levels : LineSet) (s : State) : Host.Outcome State Fault Refusal :=
  let s := s.afterPowerOn levels
  .next (if s.lineActive .ready then beginMount s else s)

/-! ## Channel reset -/

/-- The port in the step of its channel's reset (R184): the arriving frame, stage, queue, due list, event set and changed-line set
emptied, the context at its defaults, the attention delay timer stopped. -/
def Port.channelReset (_p : Port) : Port := { Port.reset with resetActive := true }

/-- A reset of channel `ch` meets one of its entries (R92): QUEUED, WATCHING and FINISHED entries are removed, a QUEUED APPEND's
reservation leaving appends pending; ACTIVE and PARKED ones take the discard mark. -/
def resetEntry (ch : Channel) (s : State) (e : Entry) : State :=
  if e.channel = ch then
    match e.state with
    | .active => updEntry e.order (fun x => { x with discard := true }) s
    | .parked => updEntry e.order (fun x => { x with discard := true }) s
    | .queued =>
      dropEntry e.order (match e.kind, e.slot with | .append, some k => lowerPending k e.remaining s | _, _ => s)
    | .watching => dropEntry e.order s
    | .finished => dropEntry e.order s
  else s

/-- A sweep that the reset channel opened goes on, its completion to be discarded (R174). -/
def Sweep.openerReset (ch : Channel) (sw : Sweep) : Sweep := if sw.channel = ch then { sw with discard := true } else sw

/-- Everything a reset of a channel does (R49, R92, R109, R174, R184). Where it removes the last volume work of a drain, the drain ends in its
step: R157 ends a drain with the last work, R147 has a channel reset leave the volume manager's fields, and that this work's removal counts
as its end is the model's choice (log 39). -/
def resetChannel (ch : Channel) (s : State) : State :=
  let s := s.updPort ch Port.channelReset
  let s := s.work.foldl (resetEntry ch) s
  settle { s with sweep := s.sweep.map (Sweep.openerReset ch) }

/-- CHANNEL_RESET (R184): RESET becoming active. -/
def execChannelReset (ch : Channel) (s : State) : Host.Outcome State Fault Refusal :=
  .next (if (s.port ch).resetActive then s else resetChannel ch s)

/-- RESET_RELEASE (R184): RESET becoming inactive leaves the port idle. -/
def execResetRelease (ch : Channel) (s : State) : Host.Outcome State Fault Refusal :=
  .next (if (s.port ch).resetActive then s.updPort ch (fun p => { p with resetActive := false, receiver := .idle }) else s)

end Sys2Proof.Machine
end

