-- ==== Sys2Proof/Machine/PathCommands.lean ====
section
/-! DEFINITION. The channel paths: INBOUND_WORD, FRAME_EARLY_END, FRAME_INACTIVE, RESERVATION_MADE and OUTBOUND_WORD_TAKEN (R97, R101,
R175 to R178). -/

namespace Sys2Proof.Machine

/-! ## The inbound path -/

/-- The inbound path's next state. -/
def setReceiver (ch : Channel) (v : Receiver) (s : State) : State := s.updPort ch (fun p => { p with receiver := v })

/-- A frame is discarded with a LINK-REJECT (R176): the LINK-REJECT is formed in the stage, and the room of the frame's buffers goes
first to short reservations (R97, R98). -/
def rejectFrame (ch : Channel) (then_ : Receiver) (tag : Nat) (reason : LinkReason) (taken : Nat) (s : State) : State :=
  topUp ch (formReply ch (.linkReject tag reason taken) (setReceiver ch then_ s))

/-- A frame as its header word leaves it (R175, R185). -/
def Frame.begin (kind : ReqKind) (w : Word) : Frame :=
  { kind := kind, tag := lowByte w, taken := 1, length := none, body := [], check := crcWord 0 w, reservation := .none, reserved := 0,
    buffers := [], filling := [] }

/-- The header word (R176): a kind byte that is no request kind discards the frame. -/
def takeHeaderWord (ch : Channel) (w : Word) (s : State) : State :=
  match ReqKind.ofCode (highByte w) with
  | some k => setReceiver ch (.receiving (Frame.begin k w)) s
  | none => rejectFrame ch .dropping (lowByte w) .kind 1 s

/-- The frame with one more word counted and taken into its check (R176). -/
def Frame.count (f : Frame) (w : Word) : Frame := { f with taken := f.taken + 1, check := crcWord f.check w }

/-- The length word (R176): a length above 2,080 discards the frame. -/
def takeLengthWord (ch : Channel) (f : Frame) (w : Word) (s : State) : State :=
  if w.toNat > 2080 then rejectFrame ch .dropping f.tag .length (f.taken + 1) s
  else setReceiver ch (.receiving { f.count w with length := some w.toNat }) s

/-- The body word at which a kind's sector data begins; none for a kind that carries no data (R186). -/
def dataStart : ReqKind → Option Nat
  | .write => some 3
  | .append => some 2
  | _ => none

/-- A word of sector data (R97, R101): the first of a sector turns a reserved buffer into a write data buffer, the 256th completes it
and the check span is inserted; a word that no reserved buffer is left for is dropped. -/
def Frame.takeData (f : Frame) (span : Option CheckSpan) (w : Word) : Frame :=
  if f.filling.isEmpty ∧ f.reserved = 0 then f
  else
    let filling := f.filling ++ [w]
    let reserved := if f.filling.isEmpty then f.reserved - 1 else f.reserved
    if filling.length = 256 then { f with reserved := reserved, buffers := f.buffers ++ [insertSpan span filling], filling := [] }
    else { f with reserved := reserved, filling := filling }

/-- The count word of a WRITE or APPEND (R97): a count of 1-8 is reserved at once when the unused quota covers it (log 10), else waited
for; any other count reserves nothing. -/
def Frame.takeCount (f : Frame) (unused : Nat) (w : Word) : Frame :=
  if 1 ≤ w.toNat ∧ w.toNat ≤ 8 then
    if w.toNat ≤ unused then { f with reservation := .made w.toNat, reserved := w.toNat } else { f with reservation := .wanted w.toNat }
  else f

/-- Body word number `i` of a frame (R175): data goes to the buffers, any other word is kept. -/
def Frame.takeBody (f : Frame) (i unused : Nat) (span : Option CheckSpan) (w : Word) : Frame :=
  match dataStart f.kind with
  | some d =>
    if d ≤ i then f.takeData span w
    else
      let f := { f with body := f.body ++ [w] }
      if i = 1 then f.takeCount unused w else f
  | none => { f with body := f.body ++ [w] }

/-- The request a whole frame becomes (R47). -/
def Frame.request (f : Frame) (length : Nat) : Request :=
  { kind := f.kind, tag := f.tag, length := length, body := f.body, buffers := f.buffers,
    reserved := f.reserved + (if f.filling.isEmpty then 0 else 1) }

/-- The check word (R176): the frame becomes a request in the stage, or is discarded with tag 255. Further words are dropped until FRAME
is inactive (R175). -/
def takeCheckWord (ch : Channel) (f : Frame) (length : Nat) (w : Word) (s : State) : State :=
  if w = f.check then s.updPort ch (fun p => { p with receiver := .dropping, stage := .request (f.request length) })
  else rejectFrame ch .dropping 255 .check (f.taken + 1) s

/-- A word of the frame being received (R175, R185), unless the reservation is still wanted. -/
def takeFrameWord (ch : Channel) (f : Frame) (w : Word) (s : State) : State :=
  match f.length with
  | none => takeLengthWord ch f w s
  | some n =>
    if f.taken - 2 < n then
      setReceiver ch (.receiving ((f.count w).takeBody (f.taken - 2) (s.unused ch) (s.port ch).context.span w)) s
    else takeCheckWord ch f n w s

/-- Whether the path is held in the middle of a frame (R97). -/
def Frame.held (f : Frame) : Bool :=
  match f.reservation with
  | .wanted _ => true
  | _ => false

/-- What a word offered with FRAME active comes to (R175): held off, taken, or dropped. -/
def takeWord (ch : Channel) (w : Word) (s : State) : State :=
  if (s.port ch).resetActive then s
  else
    match (s.port ch).receiver with
    | .idle => if (s.port ch).stage = .empty then takeHeaderWord ch w s else s
    | .receiving f => if f.held then s else takeFrameWord ch f w s
    | .dropping => s

/-- INBOUND_WORD (R175). -/
def execInboundWord (ch : Channel) (w : Word) (s : State) : Host.Outcome State Fault Refusal := .next (takeWord ch w s)

/-- FRAME_EARLY_END (R176): FRAME falls before the check word; the frame is discarded with reason LENGTH. -/
def execFrameEarlyEnd (ch : Channel) (s : State) : Host.Outcome State Fault Refusal :=
  .next (match (s.port ch).receiver with
    | .receiving f => rejectFrame ch .idle f.tag .length f.taken s
    | _ => s)

/-- FRAME_INACTIVE (R175): FRAME falls after the frame has ended or been discarded; the next word offered begins a new one. -/
def execFrameInactive (ch : Channel) (s : State) : Host.Outcome State Fault Refusal :=
  .next (match (s.port ch).receiver with
    | .dropping => setReceiver ch .idle s
    | _ => s)

/-- RESERVATION_MADE (R97): the unused quota has come to cover the count, and all of it is reserved at once. -/
def execReservationMade (ch : Channel) (s : State) : Host.Outcome State Fault Refusal :=
  .next (match (s.port ch).receiver with
    | .receiving f =>
      match f.reservation with
      | .wanted n =>
        if n ≤ s.unused ch then setReceiver ch (.receiving { f with reservation := .made n, reserved := n }) s else s
      | _ => s
    | _ => s)

/-! ## The outbound path -/

/-- The oldest reply has been delivered (R178): it leaves the queue with its buffers, REPLY-DELIVERED is dealt with (R180), and the place
and the room it frees are given out (R177, R98). -/
def deliver (ch : Channel) (r : Reply) (s : State) : State :=
  settle (s.updPort ch (fun p => { p with queue := p.queue.tail, outTaken := 0 }.delivered r))

/-- OUTBOUND_WORD_TAKEN (R178): the word offered is taken; with the check word the reply is delivered. -/
def execOutboundWordTaken (ch : Channel) (s : State) : Host.Outcome State Fault Refusal :=
  .next (match (s.port ch).resetActive, (s.port ch).queue with
    | false, r :: _ =>
      if (s.port ch).outTaken + 1 ≥ r.size then deliver ch r s
      else s.updPort ch (fun p => { p with outTaken := p.outTaken + 1 })
    | _, _ => s)

end Sys2Proof.Machine
end

