-- ==== Sys2Proof/Machine/RequestCommands.lean ====
section
/-! DEFINITION. The commands by which admission takes the request that stands in a channel's stage, one for each request kind (R47), and
REQUEST_RETAKE (R48). -/

namespace Sys2Proof.Machine

/-- READ (R54). -/
def execRead (ch : Channel) (s : State) : Host.Outcome State Fault Refusal := .next (takeRequest .read admitRead ch s)

/-- WRITE (R55). -/
def execWrite (ch : Channel) (s : State) : Host.Outcome State Fault Refusal := .next (takeRequest .write admitWrite ch s)

/-- APPEND (R56). -/
def execAppend (ch : Channel) (s : State) : Host.Outcome State Fault Refusal := .next (takeRequest .append admitAppend ch s)

/-- FLUSH (R58, R108). -/
def execFlush (ch : Channel) (s : State) : Host.Outcome State Fault Refusal := .next (takeRequest .flush admitFlush ch s)

/-- CANCEL (R87). -/
def execCancel (ch : Channel) (s : State) : Host.Outcome State Fault Refusal := .next (takeRequest .cancel admitCancel ch s)

/-- CLAIM (R35, R36). -/
def execClaim (ch : Channel) (s : State) : Host.Outcome State Fault Refusal := .next (takeRequest .claim admitClaim ch s)

/-- MAP-READ (R28). -/
def execMapRead (ch : Channel) (s : State) : Host.Outcome State Fault Refusal := .next (takeRequest .mapRead admitMapRead ch s)

/-- MAP-LOAD (R29, R31). -/
def execMapLoad (ch : Channel) (s : State) : Host.Outcome State Fault Refusal := .next (takeRequest .mapLoad admitMapLoad ch s)

/-- MAP-STORE (R61, R161). -/
def execMapStore (ch : Channel) (s : State) : Host.Outcome State Fault Refusal := .next (takeRequest .mapStore admitMapStore ch s)

/-- DEFECT-READ (R61). -/
def execDefectRead (ch : Channel) (s : State) : Host.Outcome State Fault Refusal :=
  .next (takeRequest .defectRead admitDefectRead ch s)

/-- CLEAR (R164, R165). -/
def execClear (ch : Channel) (s : State) : Host.Outcome State Fault Refusal := .next (takeRequest .clear admitClear ch s)

/-- SCAN (R164, R165). -/
def execScan (ch : Channel) (s : State) : Host.Outcome State Fault Refusal := .next (takeRequest .scan admitScan ch s)

/-- SWEEP-HALT (R60, R171). -/
def execSweepHalt (ch : Channel) (s : State) : Host.Outcome State Fault Refusal :=
  .next (takeRequest .sweepHalt admitSweepHalt ch s)

/-- CONTEXT (R64). -/
def execContext (ch : Channel) (s : State) : Host.Outcome State Fault Refusal := .next (takeRequest .context admitContext ch s)

/-- SETTINGS-LOAD (R66). -/
def execSettingsLoad (ch : Channel) (s : State) : Host.Outcome State Fault Refusal :=
  .next (takeRequest .settingsLoad admitSettingsLoad ch s)

/-- STATUS (R182). -/
def execStatus (ch : Channel) (s : State) : Host.Outcome State Fault Refusal := .next (takeRequest .status admitStatus ch s)

/-- EVENT-ACK (R181). -/
def execEventAck (ch : Channel) (s : State) : Host.Outcome State Fault Refusal := .next (takeRequest .eventAck admitEventAck ch s)

/-- FAULT-READ (R107). -/
def execFaultRead (ch : Channel) (s : State) : Host.Outcome State Fault Refusal := .next (takeRequest .faultRead admitFaultRead ch s)

/-- TIME-SET (R183). -/
def execTimeSet (ch : Channel) (s : State) : Host.Outcome State Fault Refusal := .next (takeRequest .timeSet admitTimeSet ch s)

/-- REQUEST_RETAKE (R48): a waiting request is taken afresh once a place has become free since it was last taken (log 25). -/
def execRequestRetake (ch : Channel) (s : State) : Host.Outcome State Fault Refusal :=
  .next (match (s.port ch).stage with
    | .waiting r true => retakeRequest ch r s
    | _ => s)

end Sys2Proof.Machine
end

