-- ==== Sys2Proof/Machine/TimerCommands.lean ====
section
/-! DEFINITION. The controller clock and the expiries of the timers (R37, R85, R94, R95, R117, R118, R142, R158, R166, R180). -/

namespace Sys2Proof.Machine

/-! ## The clock -/

/-- A timer that runs counts one millisecond down; at 0 it waits for its expiry to be taken (R95, log 3). -/
def countDown (t : Option Nat) : Option Nat := t.map (fun n => n - 1)

/-- A lease that runs counts down (R37). -/
def ClaimRecord.tick (c : ClaimRecord) : ClaimRecord := if c.lease = 0 then c else { c with remaining := c.remaining - 1 }

/-- A deadline counts down while its entry is QUEUED (R85). -/
def Entry.tick (e : Entry) : Entry := if e.state = .queued then { e with deadline := countDown e.deadline } else e

/-- The attention delay timer counts down (R180). -/
def Port.tick (p : Port) : Port := { p with attnTimer := countDown p.attnTimer }

/-- The sequencer's timers count down (R111, R140). -/
def Sequencer.tick (q : Sequencer) : Sequencer :=
  { q with seekTimer := countDown q.seekTimer, restoreTimer := countDown q.restoreTimer, faultTimer := countDown q.faultTimer }

/-- CLOCK_TICK (R94): the clock steps to the next millisecond, from 4,294,967,295 to 0, and every running timer counts down (R95,
log 3). -/
def execClockTick (s : State) : Host.Outcome State Fault Refusal :=
  .next
    { s with
      clock := s.clock + 1
      ports := { a := s.ports.a.tick, b := s.ports.b.tick }
      ctlClaim := s.ctlClaim.tick
      extClaims := s.extClaims.map ClaimRecord.tick
      work := s.work.map Entry.tick
      sweep := s.sweep.map (fun sw => { sw with window := countDown sw.window })
      volume := { s.volume with drainTimer := countDown s.volume.drainTimer }
      seq := s.seq.tick }

/-! ## Expiries -/

/-- ATTENTION_DELAY_EXPIRY (R180). -/
def execAttentionDelayExpiry (ch : Channel) (s : State) : Host.Outcome State Fault Refusal :=
  .next (if (s.port ch).attnTimer = some 0 then s.updPort ch (fun p => { p.raise .replyDelivered with attnTimer := none }) else s)

/-- LEASE_EXPIRY (R37, R38): the record becomes NONE/0 with lease 0, and both channels get CLAIM-CHANGE. -/
def execLeaseExpiry (t : ClaimTarget) (s : State) : Host.Outcome State Fault Refusal :=
  .next (if (s.claim t).lease ≠ 0 ∧ (s.claim t).remaining = 0 then raiseBoth .claimChange (setClaim t ClaimRecord.free s) else s)

/-- The QUEUED entry of a channel and tag whose deadline has come to 0 and has not expired (R85, log 27). -/
def State.dueDeadline (s : State) (ch : Channel) (tag : Nat) : Option Entry :=
  s.work.find? (fun e => decide (e.channel = ch ∧ e.tag = tag ∧ e.state = .queued ∧ e.deadline = some 0 ∧ e.late = false))

/-- DEADLINE_EXPIRY (R85): the late action of the entry's class as it stands now. -/
def execDeadlineExpiry (ch : Channel) (tag : Nat) (s : State) : Host.Outcome State Fault Refusal :=
  .next (match s.dueDeadline ch tag with
    | none => s
    | some e =>
      let s := raise ch .late s
      match (s.settings.row (e.cls.getD .bulk)).lateAction with
      | .abandon => settle (endEntry e.order .deadlineAbandoned s)
      | .mark => updEntry e.order (fun x => { x with late := true }) s)

/-- COLLECTION_WINDOW_EXPIRY (R166): the sweep is RUNNING and its first item is current. -/
def execCollectionWindowExpiry (s : State) : Host.Outcome State Fault Refusal :=
  .next (match s.sweep with
    | some sw => if sw.window = some 0 then { s with sweep := some { sw with window := none, current := some 0 } } else s
    | none => s)

/-- DRAIN_TIMER_EXPIRY (R158): a run or scanning step with no sector under way and no command outstanding stops now, any other at its
sector's or its command's end, and a clearing step at its own (R171); the volume work that remains ends once no access is in progress. -/
def execDrainTimerExpiry (s : State) : Host.Outcome State Fault Refusal :=
  .next (if s.volume.state = .draining ∧ s.volume.drainTimer = some 0 then
      let s := { s with volume := { s.volume with drainTimer := none, drainExpired := true } }
      settle (match s.seq.access with
        | some a => if s.drainStops a && !s.commandOutstanding then drainStop a s else s
        | none => s)
    else s)

/-- SEEK_TIMEOUT (R117): counted, and a RESTORE is issued. An access that a stop waits to end, or whose mount UNLOAD has cut, ends here with
its SEEK, and the RESTORE is made for no access (R133, R154, R158). -/
def execSeekTimeout (s : State) : Host.Outcome State Fault Refusal :=
  .next (if s.seq.state = .seeking ∧ s.seq.seekTimer = some 0 then
      let s := updSeq (fun q => { q with seekTimeouts := min 2 (q.seekTimeouts + 1) }) s
      match s.seq.access.bind s.stopAtCommandEnd with
      | some t => settle (issueRestore t)
      | none => issueRestore s
    else s)

/-- Before a posted write faults in a step that ends in a departure, the older ones fault VOLUME-GONE, since the faults of one step are
logged in admission order (R106). -/
def olderGone (a : Access) (s : State) : State :=
  match a.owner with
  | .posted n => faultAll (s.postedBefore n) .volumeGone s
  | _ => s

/-- OFFLINE, the arm's position unknown (R118). -/
def enterOffline (s : State) : State :=
  updSeq (fun q => { q with state := .offline, cylinder := none, accepted := false, restoreTimer := none, target := none,
                            phase := .none, gate := false }) s

/-- RESTORE_TIMEOUT (R117, R118): the owner learns a second seek timeout first, then the volume departs on DRIVE-LOST. What a seek error
would tell the volume manager is undone by that departure. An access with a stop waiting is ended by the departure (R118, log 28). -/
def execRestoreTimeout (s : State) : Host.Outcome State Fault Refusal :=
  .next (if s.seq.state = .restoring ∧ s.seq.restoreTimer = some 0 then
      let s := match s.seq.access with
        | some a => if s.seq.seekTimeouts ≥ 2 ∧ (s.stopAtCommandEnd a).isNone ∧ a.owner ≠ .volume then seekFails a (olderGone a s) else s
        | none => s
      settle (depart (enterOffline s))
    else s)

/-- FAULT_PERSISTENCE_EXPIRY (R142): the volume departs on DRIVE-LOST, and the sequencer issues STOP. -/
def execFaultPersistenceExpiry (s : State) : Host.Outcome State Fault Refusal :=
  .next (if s.seq.state = .notSafe ∧ s.seq.faultTimer = some 0 then
      let s := depart s
      settle (if s.seq.state = .notSafe then issueStop s else s)
    else s)

end Sys2Proof.Machine
end

