-- ==== Sys2Proof/Machine/DriveCommands.lean ====
section
/-! DEFINITION. The commands of the drive and of the arbiter: ARBITER_CHOICE, SEEK_DONE_INACTIVE, SEEK_DONE, SECTOR_PULSE, the ends of header
and data passages, READ_BACK_COMPLETE and STORE_BEGIN (chapters 5, 7, 9 and 10). -/

namespace Sys2Proof.Machine

/-! ## The sweep's offer (R167 to R169) -/

/-- The clear range top of an item and the sector of its first step, from the extent as it stands; none for a CLEAR of a KNOWN APPEND
extent with fill mark 0, which has no sector to clear (R167). -/
def itemRange (kind : SweepKind) (e : Extent) : Option (Nat × Nat) :=
  match kind with
  | .scan => some (e.defn.size - 1, 0)
  | .clear =>
    match e.fill with
    | some f =>
      if f.state = .known then (if f.mark = 0 then none else some (f.mark - 1, f.mark - 1))
      else some (e.defn.size - 1, e.defn.size - 1)
    | none => some (e.defn.size - 1, e.defn.size - 1)

/-- The kind of access a sweep's step is (R115). -/
def SweepKind.access : SweepKind → AccessKind
  | .clear => .clearStep
  | .scan => .scanStep

/-- What the controller buffer holds for a step (R100). -/
def SweepKind.buffer : SweepKind → ControllerBuffer
  | .clear => .zeros
  | .scan => .scanned

/-- A step takes the drive and the controller buffer (R168); a clearing step on a GUARDED extent whose claim is not held is not made, and
its item is PARTIAL (R42, R169). -/
def beginStep (sw : Sweep) (it : SweepItem) (e : Extent) (m : Nat) (s : State) : State :=
  if sw.kind = .clear ∧ s.mayWriteNow it.slot sw.channel it.token = false then giveResult .partly s
  else
    beginAccess (Access.begin .sweep sw.kind.access (some .bulk) (sw.kind == .clear && sw.verify) (some it.slot) e.defn.first m (m + 1)
      e.defn.size) { s with ctlBuffer := sw.kind.buffer }

/-- The current item's step: its range is fixed the first time its wait is satisfied (R167). -/
def takeOffer (sw : Sweep) (it : SweepItem) (s : State) : State :=
  match s.extent it.slot, it.top with
  | none, _ => s
  | some e, some _ => beginStep sw it e (sw.sector.getD 0) s
  | some e, none =>
    match itemRange sw.kind e with
    | none => giveResult .done s
    | some (top, m) =>
      let sw := { sw.updCurrent (fun x => { x with top := some top }) with sector := some m }
      beginStep sw it e m { s with sweep := some sw }

/-- The drive is offered to the sweep unit for one step (R168): it declines before its window has expired, while a stop waits, while
older work names the extent, and a CLEAR's during a write hold. -/
def offerSweep (s : State) : State :=
  match s.sweep with
  | none => s
  | some sw =>
    match sw.currentItem with
    | none => s
    | some it =>
      if sw.window.isSome ∨ sw.halt = true ∨ sw.cause.isSome ∨ (sw.kind = .clear ∧ s.writeHold = true) ∨ s.olderWorkOn it = true then s
      else takeOffer sw it s

/-! ## The arbiter -/

/-- The choices that fall on a write while PROTECT is active, one after another, at most `fuel` of them: each ends its write, the room of its
buffers goes first to short reservations (R98), and the arbiter chooses again among what remains (R79). -/
def protectedChoices : Nat → State → State
  | 0, s => s
  | fuel + 1, s =>
    match choose s.direction (s.seq.cylinder.getD 0) s.candidates with
    | (none, _) => s
    | (some c, dir) =>
      if s.choiceWrites c.owner then protectedChoices fuel (topUpBoth (endProtected c.owner { s with direction := dir })) else s

/-- With PROTECT active the writes that the choice falls on end, their faults logged in admission order (R79, R106). Every choice made
again has ended a piece of work, so the number of pieces bounds the choices. -/
def endProtectedChoices (s : State) : State :=
  if s.ownerActive .protect then logProtected s (protectedChoices (s.work.length + s.posted.length) s) else s

/-- The arbiter's choice: the work it falls on is granted the drive, and with nothing eligible the drive is offered to the sweep (R80 to
R83). -/
def chooseAndGrant (s : State) : State :=
  match choose s.direction (s.seq.cylinder.getD 0) s.candidates with
  | (none, _) => offerSweep s
  | (some c, dir) => grant c.owner { s with direction := dir }

/-- ARBITER_CHOICE (R79 to R83). -/
def execArbiterChoice (s : State) : Host.Outcome State Fault Refusal :=
  .next (if s.driveFree then settle (chooseAndGrant (endProtectedChoices s)) else s)

/-! ## SEEK-DONE -/

/-- SEEK_DONE_INACTIVE (R112): the drive has accepted the outstanding SEEK or RESTORE. -/
def execSeekDoneInactive (s : State) : Host.Outcome State Fault Refusal :=
  .next (if s.commandOutstanding then updSeq (fun q => { q with accepted := true }) s else s)

/-- The access that the completed command served goes on: a stop or cut that waited is taken (R133, R158), a second seek timeout is
reported (R117), or the sector is sought, or searched for where the arm now stands (R116). -/
def accessGoesOn (a : Access) (restored : Bool) (s : State) : State :=
  match s.stopAtCommandEnd a with
  | some t => settle t
  | none => if restored = true ∧ s.seq.seekTimeouts ≥ 2 then settle (seekFails a s) else approach s

/-- The outstanding command is complete: its timer stops, and the arm stands at the cylinder sought, or at 0 (R116, R118). R113 says what
command accepted holds for an outstanding command alone; that it is no with none outstanding is the model's choice (log 33). -/
def arrive (c : Nat) (s : State) : State :=
  updSeq (fun q => { q with state := .idle, cylinder := some c, seekTimer := none, restoreTimer := none, accepted := false }) s

/-- SEEK_DONE (R112, R116, R118): taken as the completion of an accepted SEEK or RESTORE, otherwise ignored. -/
def execSeekDone (s : State) : Host.Outcome State Fault Refusal :=
  .next (if s.seq.accepted && s.commandOutstanding then
      let restored := s.seq.state == .restoring
      let s := arrive (if restored then 0 else s.seq.seekTo) s
      match s.seq.access with
      | some a => accessGoesOn a restored s
      | none => releaseStop (mountAdvance s)
    else s)

/-! ## Sector pulses (R119, R120) -/

/-- The sector counter after a pulse (R119). -/
def nextCounter (index : Bool) (c : Option Nat) : Option Nat :=
  if index then some 0
  else match c with
    | some n => if n ≥ 11 then none else some (n + 1)
    | none => none

/-- Whether an access's sector is under way from its first passage (reads, R158), not only from its first HEADER phase (writes, R144). -/
def AccessKind.underWayAtPassage (k : AccessKind) : Bool := !k.writes

/-- The target passes: the sequencer is TRANSFERRING, in READ-BACK for a sector just written, else in HEADER-CHECK (R120 to R122). -/
def beginPassage (a : Access) (s : State) : State :=
  updAccess (fun x => { x with underWay := x.underWay || x.kind.underWayAtPassage, unsync := 0 })
    (updSeq (fun q => { q with state := .transferring, phase := if a.pass = .readBack then .readBack else .headerCheck }) s)

/-- A pulse finds the sequencer SEARCHING for an access (R119, R120): the target passes, or a search that has waited through 12 pulses with
the counter UNSYNCHRONISED throughout counts as a header failure (log 17), or the search goes on. -/
def searchPulse (a : Access) (before : Option Nat) (s : State) : State :=
  if s.seq.counter.isSome ∧ s.seq.counter = s.seq.target then beginPassage a s
  else if before.isNone ∧ s.seq.counter.isNone then
    if a.unsync + 1 ≥ 12 then settle (checkFails a (updAccess (fun x => { x with unsync := 0 }) s))
    else updAccess (fun x => { x with unsync := x.unsync + 1 }) s
  else updAccess (fun x => { x with unsync := 0 }) s

/-- SECTOR_PULSE (R119, R120). -/
def execSectorPulse (index : Bool) (s : State) : Host.Outcome State Fault Refusal :=
  .next (
    let before := s.seq.counter
    let s := updSeq (fun q => { q with counter := nextCounter index q.counter }) s
    match s.seq.state, s.seq.access with
    | .searching, some a => searchPulse a before s
    | _, _ => s)

/-! ## Passages -/

/-- The access whose passage is in a phase, when the sequencer is TRANSFERRING in it (R121). -/
def State.inPhase (s : State) (p : Phase) : Option Access :=
  if s.seq.state = .transferring ∧ s.seq.phase = p then s.seq.access else none

/-- HEADER_READ_COMPLETE (R122): the address check and what it leads to. -/
def execHeaderReadComplete (h : HeaderImage) (s : State) : Host.Outcome State Fault Refusal :=
  .next (match s.inPhase .headerCheck with
    | some a => headerChecked a (checkAddress a h) (noteCheck (checkAddress a h) s)
    | none => s)

/-- HEADER_PHASE_COMPLETE (R8): the new header stands on the medium with its check word (R6), the fill mark moves where R22 and R24 say, and
the DATA phase follows. -/
def execHeaderPhaseComplete (s : State) : Host.Outcome State Fault Refusal :=
  .next (match s.inPhase .header with
    | some a => updSeq (fun q => { q with phase := .data }) (headerFill a (putHeader a.address (.whole (headerFor a.address a.headerWritten)) s))
    | none => s)

/-- The sector as a completed DATA phase leaves it: written with its check word (R6), the gate closed; it is torn no more, and a rewrite of it
has its address check waived for a header failure (R9, R128). -/
def dataWritten (a : Access) (s : State) : State :=
  updAccess (fun x => { x with checkPassed := true, tornResume := false })
    (updSeq (fun q => { q with gate := false, phase := .none }) (putData a.address a.headerWritten (dataFor (s.writeData a)) s))

/-- What a completed DATA phase leads to: the marking check of a VOID marking (R131), the read-back (R128), or the write counts as done
(R127). -/
def afterData (a : Access) (s : State) : State :=
  if a.pass = .marking then nextPassage (updAccess (fun x => { x with pass := .markCheck }) s)
  else if a.verify then nextPassage (updAccess (fun x => { x with pass := .readBack }) s)
  else settle (writeCounts { a with checkPassed := true, tornResume := false } s)

/-- DATA_PHASE_COMPLETE (R8). -/
def execDataPhaseComplete (s : State) : Host.Outcome State Fault Refusal :=
  .next (match s.inPhase .data with
    | some a => afterData a (dataWritten a s)
    | none => s)

/-- The check span under which an access's owner reads (R126); only a READ has one. -/
def State.readSpan (s : State) (a : Access) : Option CheckSpan :=
  match a.owner with
  | .entry n => (s.entry n).bind (fun e => e.span)
  | _ => none

/-- A good data field (R124, R126, R151): a READ's words with CHECK-MISMATCH where its span sum differs, a scanning step's dropped, a
label's contents tested. -/
def goodField (a : Access) (f : FieldImage) (s : State) : State :=
  match a.kind with
  | .labelRead => mountAccessEnds (labelFound f.contents) s
  | .readRun =>
    sectorRead a f.data.toList (if spanHolds (s.readSpan a) f.data.toList then none else some .checkMismatch) s
  | _ => sectorRead a f.data.toList none s

/-- DATA_READ_COMPLETE (R124, R125). -/
def execDataReadComplete (f : FieldImage) (s : State) : Host.Outcome State Fault Refusal :=
  .next (match s.inPhase .dataRead with
    | some a => settle (if fieldGood f then goodField a f s else readAttemptFails a .read s)
    | none => s)

/-- READ_BACK_COMPLETE (R128): the read-back passes and the write counts as done, or the attempt has failed (R129). -/
def execReadBackComplete (h : HeaderImage) (f : FieldImage) (s : State) : Host.Outcome State Fault Refusal :=
  .next (match s.inPhase .readBack with
    | some a =>
      let s := noteCheck (checkAddress a h) s
      settle (if readBackPasses a h f s then writeCounts a s else readBackFails a s)
    | none => s)

/-! ## The store of STORING -/

/-- STORE_BEGIN (R159): with the drive free and no write hold the label write begins, or with PROTECT ACTIVE the store is not made. -/
def execStoreBegin (s : State) : Host.Outcome State Fault Refusal :=
  .next (if s.volume.state = .storing ∧ s.driveFree ∧ s.writeHold = false then
      settle (if s.ownerActive .protect then enterReleasing s else beginLabelWrite .volume (s.volume.serial.getD 0) s)
    else s)

end Sys2Proof.Machine
end

