-- ==== Sys2Proof/Machine/LineCommands.lean ====
section
/-! DEFINITION. The changes of the six reported lines and what each makes its owner do (chapters 8 and 9). The line monitor and the blocks that
act on a line take its change each as an event of their own, or one after the other with nothing between (R137, log 9); a change to the
level that the taker already has is no change (log 1). -/

namespace Sys2Proof.Machine

/-- A period of POWER activity begins, in the mode as it stands (R143). The sequencer has still to take its beginning, or has taken it before
the line monitor (R137, log 9). -/
def beginPeriod (s : State) : State :=
  let mode := s.settings.powerMode
  { s with powerPeriod := some mode
           powerOwed := if s.powerEarly = 0 then s.powerOwed ++ [mode] else s.powerOwed
           powerEarly := s.powerEarly - 1 }

/-- The period and its hold end, and a stop of it not yet taken is withdrawn (R143): any POWER stop that waits, unless the sequencer has
taken the beginning of a later period already, whose stop it then is. -/
def endPeriod (s : State) : State :=
  let s := { s with powerPeriod := none }
  if s.powerEarly = 0 then updAccess (fun a => { a with stops := a.stops.filter (fun c => c ≠ .power) }) s else s

/-- What the line monitor's taking of POWER begins and ends (R143). -/
def periodChange (l : Line) (active : Bool) (s : State) : State :=
  match l, active with
  | .power, true => beginPeriod s
  | .power, false => endPeriod s
  | _, _ => s

/-- The line monitor takes a change (R137, R138): its level changes, and the ports whose masks include the line are told. -/
def monitorTakes (l : Line) (active : Bool) (s : State) : State :=
  if s.lineActive l = active then s else periodChange l active (takeLine l active s)

/-- The blocks that act on a line take its change, in one step, before or after the line monitor (R137, log 9). -/
def ownerTakes (l : Line) (active : Bool) (act : State → State) (s : State) : State :=
  if s.ownerActive l = active then s else act { s with acted := setLine l active s.acted }

/-- A change of a line, taken in this step by the line monitor, by the blocks that act on it, or by the one after the other (R137). Who
takes it is said from outside, beside the queue of commands: by the first of `takers`, or, with none left, both (log 9). -/
def lineChange (l : Line) (active : Bool) (act : State → State) (s : State) : State :=
  let rest : State := { s with takers := s.takers.tail }
  match s.takers with
  | .monitor :: _ => monitorTakes l active rest
  | .owner :: _ => ownerTakes l active act rest
  | .both :: _ => ownerTakes l active act (monitorTakes l active rest)
  | [] => ownerTakes l active act (monitorTakes l active rest)

/-! ## READY and DOOR -/

/-- READY_ACTIVE (R139, R150): a mount begins when the volume manager is ABSENT. The cartridge may be another than the last, so the record of
the medium begins anew (log 7). -/
def execReadyActive (s : State) : Host.Outcome State Fault Refusal :=
  .next (lineChange .ready true (fun s => if s.volume.state = .absent then beginMount { s with medium := [] } else s) s)

/-- READY_INACTIVE (R114, R155): the transfer is cut, the sequencer is NO-CARTRIDGE, and a volume not ABSENT departs. -/
def execReadyInactive (s : State) : Host.Outcome State Fault Refusal :=
  .next (lineChange .ready false (fun s => settle (depart (enterNoCartridge (tear (reportTornAppend s))))) s)

/-- DOOR_OPEN (R155): a volume not ABSENT departs. -/
def execDoorOpen (s : State) : Host.Outcome State Fault Refusal :=
  .next (lineChange .door true (fun s => settle (depart s)) s)

/-- DOOR_CLOSE (R138, R139): reported, with no other effect. -/
def execDoorClose (s : State) : Host.Outcome State Fault Refusal := .next (lineChange .door false (fun s => s) s)

/-! ## UNLOAD -/

/-- A drain begins (R157): the drain timer starts from the settings as they stand, and a sweep is halted. -/
def beginDrain (s : State) : State :=
  haltSweep { s with volume := { s.volume with state := .draining, drainTimer := some s.settings.drainTimeout, drainExpired := false } }

/-- A mount is cut by UNLOAD (R154): RELEASING; the access in progress goes on to its end. -/
def cutMount (s : State) : State := { s with volume := { s.volume with state := .releasing, mount := .none } }

/-- UNLOAD_PRESSED (R148, R154, R157). -/
def execUnloadPressed (s : State) : Host.Outcome State Fault Refusal :=
  .next (lineChange .unload true (fun s =>
    match s.volume.state with
    | .mounted => settle (beginDrain s)
    | .mounting => settle (cutMount s)
    | _ => s) s)

/-- UNLOAD_RELEASED (R138, R139): reported, with no other effect. -/
def execUnloadReleased (s : State) : Host.Outcome State Fault Refusal := .next (lineChange .unload false (fun s => s) s)

/-! ## Stops and cuts asked for by a line -/

/-- A stop or cut waits in the access (R133, R144, R146); one of its kind already waiting stands for it. -/
def addStop (c : Stop) (s : State) : State :=
  updAccess (fun a => { a with stops := if c ∈ a.stops then a.stops else a.stops ++ [c] }) s

/-- A stop of a write access (R144, R146): with a sector under way, or a command outstanding, it waits; else it is taken at once. -/
def askStop (c : Stop) (a : Access) (s : State) : State :=
  if a.underWay ∨ s.commandOutstanding then addStop c s else takeStop a a.tornResume c s

/-- A cut of a write access (R145): with a command outstanding it waits for the command's end (R133, log 15), else it is made at once. -/
def askCut (a : Access) (s : State) : State := if s.commandOutstanding then addStop .cut s else powerCut a s

/-- What is asked of the write access in progress; a read access is asked nothing. -/
def onWriteAccess (f : Access → State → State) (s : State) : State :=
  match s.seq.access with
  | some a => if a.kind.writes then f a s else s
  | none => s

/-! ## PROTECT -/

/-- A CLEAR that has not ended is stopped (R172): with a step in progress at that step's end, else at once; a halt taken first stands, with the
results of R171 (log 47). -/
def protectSweep (s : State) : State :=
  match s.sweep with
  | some sw =>
    if sw.kind = .clear then
      if s.stepInProgress then { s with sweep := some { sw with cause := some (sw.cause.getD .protect) } }
      else endSweep (some .protect) s
    else s
  | none => s

/-- PROTECT_ACTIVE (R146, R172). That the completion of a sweep ended at once becomes due before that of a write ended in the same step is the
model's choice (log 30). -/
def execProtectActive (s : State) : Host.Outcome State Fault Refusal :=
  .next (lineChange .protect true (fun s => settle (onWriteAccess (askStop .protect) (protectSweep s))) s)

/-- PROTECT_INACTIVE (R146): what is taken afterwards runs as usual. -/
def execProtectInactive (s : State) : Host.Outcome State Fault Refusal := .next (lineChange .protect false (fun s => s) s)

/-! ## FAULT -/

/-- The states in which the sequencer takes FAULT becoming ACTIVE (R140). -/
def SeqState.takesFault : SeqState → Bool
  | .restoring | .idle | .seeking | .searching | .transferring => true
  | .noCartridge | .notSafe | .stopping | .offline => false

/-- The access in progress is cut by FAULT (R140), or, where a POWER cut was taken first and waits for its command, ends as that cut ends
it (log 15). -/
def cutByFault (s : State) : State :=
  match s.seq.access with
  | some a => if a.stops.contains .cut then powerCut a s else faultCut a s
  | none => s

/-- FAULT_ACTIVE (R140). -/
def execFaultActive (s : State) : Host.Outcome State Fault Refusal :=
  .next (lineChange .fault true (fun s => if s.seq.state.takesFault then settle (enterNotSafe (cutByFault s)) else s) s)

/-- FAULT_INACTIVE (R142): from UNSAFE the timer stops and the recovery's RESTORE is issued. -/
def execFaultInactive (s : State) : Host.Outcome State Fault Refusal :=
  .next (lineChange .fault false (fun s =>
    if s.seq.state = .notSafe then issueRestore (updSeq (fun q => { q with faultTimer := none }) s) else s) s)

/-! ## POWER -/

/-- The stop of SECTOR-END mode (R144): asked of a run; a label write or a clearing step is a single sector, carried to its end
(log 16). -/
def powerStop (a : Access) (s : State) : State :=
  match a.kind with
  | .writeRun => askStop .power a s
  | .appendRun => askStop .power a s
  | _ => s

/-- The mode in which the sequencer takes POWER becoming ACTIVE: that of the oldest period whose beginning it has still to take, or, where it
comes before the line monitor, the settings' (R121, R143, log 9). -/
def State.shutdownMode (s : State) : ShutdownMode := s.powerOwed.headD s.settings.powerMode

/-- Whether the line monitor has already ended the period whose beginning the sequencer takes next (R137, R143). -/
def State.periodOver (s : State) : Bool :=
  match s.powerOwed with
  | [] => false
  | [_] => s.powerPeriod.isNone
  | _ :: _ :: _ => true

/-- The sequencer takes the beginning of a period of POWER activity: the oldest that the line monitor has begun, or one that it has still to
begin (R137, R143, log 9). -/
def takeBeginning (s : State) : State :=
  { s with powerTaken := some s.shutdownMode
           powerOwed := s.powerOwed.tail
           powerEarly := if s.powerOwed.isEmpty then s.powerEarly + 1 else s.powerEarly }

/-- The sequencer takes POWER becoming ACTIVE (R144, R145): the write in progress is stopped at its sector end, or the gate closes at once
and the write is cut, by the mode. No stop is asked when the period has ended before: its end has withdrawn it (R143). -/
def shutDown (s : State) : State :=
  let u := takeBeginning s
  match s.shutdownMode with
  | .sectorEnd => settle (if s.periodOver then u else onWriteAccess powerStop u)
  | .immediate => settle (updSeq (fun q => { q with gate := false }) (onWriteAccess askCut u))

/-- POWER_ACTIVE (R143 to R145): for the line monitor a period begins with the mode as it stands; the sequencer shuts the write in progress
down. -/
def execPowerActive (s : State) : Host.Outcome State Fault Refusal := .next (lineChange .power true shutDown s)

/-- POWER_INACTIVE (R143): the period ends for the line monitor, and for the sequencer POWER is ACTIVE no more. -/
def execPowerInactive (s : State) : Host.Outcome State Fault Refusal :=
  .next (lineChange .power false (fun s => { s with powerTaken := none }) s)

end Sys2Proof.Machine
end

