-- ==== Sys2Proof/Machine/Dispatch.lean ====
section
/-! DEFINITION. The meaning of every command: one arm for each constructor of `Instr`. -/

namespace Sys2Proof.Machine

def exec (i : Instr) (s : State) : Host.Outcome State Fault Refusal :=
  match i with
  | .powerOnReset levels => Sys2Proof.Machine.execPowerOnReset levels s
  | .channelReset ch => Sys2Proof.Machine.execChannelReset ch s
  | .resetRelease ch => Sys2Proof.Machine.execResetRelease ch s
  | .clockTick => Sys2Proof.Machine.execClockTick s
  | .inboundWord ch w => Sys2Proof.Machine.execInboundWord ch w s
  | .frameEarlyEnd ch => Sys2Proof.Machine.execFrameEarlyEnd ch s
  | .reservationMade ch => Sys2Proof.Machine.execReservationMade ch s
  | .outboundWordTaken ch => Sys2Proof.Machine.execOutboundWordTaken ch s
  | .attentionDelayExpiry ch => Sys2Proof.Machine.execAttentionDelayExpiry ch s
  | .read ch => Sys2Proof.Machine.execRead ch s
  | .write ch => Sys2Proof.Machine.execWrite ch s
  | .append ch => Sys2Proof.Machine.execAppend ch s
  | .flush ch => Sys2Proof.Machine.execFlush ch s
  | .cancel ch => Sys2Proof.Machine.execCancel ch s
  | .claim ch => Sys2Proof.Machine.execClaim ch s
  | .mapRead ch => Sys2Proof.Machine.execMapRead ch s
  | .mapLoad ch => Sys2Proof.Machine.execMapLoad ch s
  | .mapStore ch => Sys2Proof.Machine.execMapStore ch s
  | .defectRead ch => Sys2Proof.Machine.execDefectRead ch s
  | .clear ch => Sys2Proof.Machine.execClear ch s
  | .scan ch => Sys2Proof.Machine.execScan ch s
  | .sweepHalt ch => Sys2Proof.Machine.execSweepHalt ch s
  | .context ch => Sys2Proof.Machine.execContext ch s
  | .settingsLoad ch => Sys2Proof.Machine.execSettingsLoad ch s
  | .status ch => Sys2Proof.Machine.execStatus ch s
  | .eventAck ch => Sys2Proof.Machine.execEventAck ch s
  | .faultRead ch => Sys2Proof.Machine.execFaultRead ch s
  | .timeSet ch => Sys2Proof.Machine.execTimeSet ch s
  | .requestRetake ch => Sys2Proof.Machine.execRequestRetake ch s
  | .leaseExpiry target => Sys2Proof.Machine.execLeaseExpiry target s
  | .deadlineExpiry ch tag => Sys2Proof.Machine.execDeadlineExpiry ch tag s
  | .collectionWindowExpiry => Sys2Proof.Machine.execCollectionWindowExpiry s
  | .arbiterChoice => Sys2Proof.Machine.execArbiterChoice s
  | .seekDoneInactive => Sys2Proof.Machine.execSeekDoneInactive s
  | .seekDone => Sys2Proof.Machine.execSeekDone s
  | .seekTimeout => Sys2Proof.Machine.execSeekTimeout s
  | .restoreTimeout => Sys2Proof.Machine.execRestoreTimeout s
  | .sectorPulse index => Sys2Proof.Machine.execSectorPulse index s
  | .headerReadComplete h => Sys2Proof.Machine.execHeaderReadComplete h s
  | .headerPhaseComplete => Sys2Proof.Machine.execHeaderPhaseComplete s
  | .dataPhaseComplete => Sys2Proof.Machine.execDataPhaseComplete s
  | .dataReadComplete f => Sys2Proof.Machine.execDataReadComplete f s
  | .readBackComplete h f => Sys2Proof.Machine.execReadBackComplete h f s
  | .readyActive => Sys2Proof.Machine.execReadyActive s
  | .readyInactive => Sys2Proof.Machine.execReadyInactive s
  | .doorOpen => Sys2Proof.Machine.execDoorOpen s
  | .doorClose => Sys2Proof.Machine.execDoorClose s
  | .unloadPressed => Sys2Proof.Machine.execUnloadPressed s
  | .unloadReleased => Sys2Proof.Machine.execUnloadReleased s
  | .protectActive => Sys2Proof.Machine.execProtectActive s
  | .protectInactive => Sys2Proof.Machine.execProtectInactive s
  | .faultActive => Sys2Proof.Machine.execFaultActive s
  | .faultInactive => Sys2Proof.Machine.execFaultInactive s
  | .faultPersistenceExpiry => Sys2Proof.Machine.execFaultPersistenceExpiry s
  | .powerActive => Sys2Proof.Machine.execPowerActive s
  | .powerInactive => Sys2Proof.Machine.execPowerInactive s
  | .drainTimerExpiry => Sys2Proof.Machine.execDrainTimerExpiry s
  | .storeBegin => Sys2Proof.Machine.execStoreBegin s
  | .frameInactive ch => Sys2Proof.Machine.execFrameInactive ch s

end Sys2Proof.Machine
end

