-- ==== Sys2Proof/Safety.lean ====
section
/-! DEFINITION. What counts as a safe run of the controller: a run that stops nowhere, and the laws of the spec's tables, which every step
keeps. Beside them, the words in which claims say what a step leaves: a reply formed in a stage, and the state a request is taken in. -/

namespace Sys2Proof.Safety

open Sys2Proof.Machine

/-- Both channels. -/
def channels : List Channel := [.A, .B]

/-! ## The laws -/

/-- The law of a claim record (R33): the holder is NONE exactly when the token is 0; a record whose holder is NONE has lease 0; a lease
is 0 or 100-60,000; remaining is kept only while the lease is not 0, and lies between 0 and the lease. -/
def claimLawful (c : ClaimRecord) : Bool :=
  (c.holder.isNone == (c.token == 0)) && decide (c.token ≤ 65535) && (c.holder.isSome || c.lease == 0)
    && (c.lease == 0 || (decide (100 ≤ c.lease) && decide (c.lease ≤ 60000))) && decide (c.remaining ≤ c.lease)

/-- The 33 claim records keep the law of R33. -/
def ClaimsLawful (s : State) : Prop := ∀ t : ClaimTarget, claimLawful (s.claim t) = true

/-- A port's reply queue holds up to 4 replies, and while it holds fewer its due list is empty (R177). -/
def RepliesLawful (s : State) : Prop :=
  ∀ ch : Channel, (s.port ch).queue.length ≤ 4 ∧ ((s.port ch).due ≠ [] → (s.port ch).queue.length = 4)

/-- The write gate is open only while the sequencer is TRANSFERRING in the HEADER or DATA phase of a sector write and has taken neither FAULT
as active nor POWER as active in IMMEDIATE mode (R121): it closes the gate in the step in which it takes the one or the other. -/
abbrev GateLawful (s : State) : Prop :=
  s.seq.gate = true →
    s.seq.state = .transferring ∧ (s.seq.phase = .header ∨ s.seq.phase = .data) ∧ s.ownerActive .fault = false
      ∧ s.powerTaken ≠ some .immediate

/-- The work list never holds more than 16 entries, nor more than 10 from one channel (R71). -/
abbrev WorkLawful (s : State) : Prop :=
  s.work.length ≤ 16 ∧ ∀ ch : Channel, (s.work.filter (fun e => e.channel = ch)).length ≤ 10

/-- The posted list holds up to 4 posted writes (R103), and each posted fault log up to 4 entries and an overflow count of up to 255
(R106). -/
def PostedLawful (s : State) : Prop :=
  s.posted.length ≤ 4 ∧ ∀ ch : Channel, (s.logs.get ch).entries.length ≤ 4 ∧ (s.logs.get ch).overflow ≤ 255

/-- The defect list holds up to 16 entries, no two with the same address, each with the address of a sector outside cylinder 0 (cylinder
1-319, head 0-1, sector 0-11) and a count of 1-255 (R1, R134, R135). -/
abbrev DefectsLawful (s : State) : Prop :=
  s.seq.defects.length ≤ 16 ∧ (s.seq.defects.map (fun d => (d.cylinder, d.head, d.sector))).Nodup
    ∧ ∀ d ∈ s.seq.defects,
        1 ≤ d.cylinder ∧ d.cylinder ≤ 319 ∧ d.head ≤ 1 ∧ d.sector ≤ 11 ∧ 1 ≤ d.count ∧ d.count ≤ 255

/-- The ranges of a class table row (R65). -/
abbrev rowLawful (r : ClassRow) : Prop := r.deadline ≤ 5000 ∧ r.readRetries ≤ 7 ∧ r.writeRetries ≤ 7

/-- The settings lie in the ranges of R65, and quota A and quota B together never exceed 24 (R66). -/
def SettingsLawful (s : State) : Prop :=
  (∀ c : WorkClass, rowLawful (s.settings.row c))
    ∧ (∀ ch : Channel, 8 ≤ s.settings.quota ch ∧ s.settings.quota ch ≤ 16) ∧ s.settings.quotaA + s.settings.quotaB ≤ 24
    ∧ 1000 ≤ s.settings.drainTimeout ∧ s.settings.drainTimeout ≤ 30000

/-- A write hold is in force for exactly the period for which the kept level of POWER is ACTIVE (R79, R143). -/
abbrev PowerLawful (s : State) : Prop := s.writeHold = s.lineActive .power

/-- Every present slot's definition is well formed, and it has fill fields exactly when its kind is APPEND (R14, R21). -/
abbrev extentLawful (e : Extent) : Prop :=
  1 ≤ e.defn.first ∧ e.defn.first ≤ e.defn.last ∧ e.defn.last ≤ 319 ∧ (e.fill.isSome ↔ e.defn.kind = .append)

/-- The law of the extent table (R12): its extents are lawful, and no two present extents share a cylinder. -/
def ExtentsLawful (s : State) : Prop :=
  (∀ k e, s.extent k = some e → extentLawful e)
    ∧ ∀ j k d e, j ≠ k → s.extent j = some d → s.extent k = some e → d.defn.overlaps e.defn = false

/-- The record of the medium keeps its one form: sectors of the cartridge in strictly rising disk order (R2, log 7); and whatever stands
whole in it stands with its own address and its check word (R5, R6). -/
abbrev MediumLawful (s : State) : Prop := mediumWf s.medium = true ∧ ∀ x ∈ s.medium, x.2.sound x.1 = true

/-- No two pieces of work carry the same admission order, and every one is older than the next request admitted (R50). -/
abbrev OrdersLawful (s : State) : Prop :=
  (s.work.map (fun e => e.order) ++ s.posted.map (fun p => p.order)).Nodup
    ∧ (∀ e ∈ s.work, e.order < s.nextOrder) ∧ ∀ p ∈ s.posted, p.order < s.nextOrder

/-- The read run buffers that a reply holds until it is delivered or discarded (R98). -/
def replyBuffers : Reply → Nat
  | .completion { body := .read sectors, .. } => sectors.length
  | _ => 0

/-- The buffers a request holds: reserved ones, and write data buffers (R97, R48). -/
def requestBuffers (r : Request) : Nat := r.reserved + r.buffers.length

/-- The holding of a channel by the table of R96, reservations included: the frame arriving, with its buffer not yet full; the stage; the
replies that wait; the channel's work entries and posted writes. -/
def heldBuffers (ch : Channel) (s : State) : Nat :=
  (match (s.port ch).receiver with
    | .receiving f => f.reserved + f.buffers.length + (if f.filling = [] then 0 else 1)
    | _ => 0)
    + (match (s.port ch).stage with
      | .request r | .waiting r _ => requestBuffers r
      | .reply r => replyBuffers r
      | .empty => 0)
    + ((s.port ch).queue.map replyBuffers).sum
    + ((s.work.filter (fun e => e.channel = ch)).map
        (fun e => e.reserved + e.allocated + e.writeBuffers.length + e.readBuffers.length)).sum
    + ((s.posted.filter (fun p => p.channel = ch)).map (fun p => p.buffers.length)).sum

/-- The law of the buffer pool (R96): the buffers held for a channel never exceed its quota. -/
abbrev BuffersLawful (s : State) : Prop := ∀ ch : Channel, heldBuffers ch s ≤ s.settings.quota ch

/-- A due list names what it owes (R177): the completion of an entry of its own channel that is FINISHED, and a completion of a sweep, which
holds no buffer. -/
def dueLawful (s : State) (ch : Channel) : Due → Prop
  | .stage => True
  | .entry n => n < s.nextOrder ∧ ∀ e ∈ s.work, e.order = n → e.channel = ch ∧ e.state = .finished
  | .sweep c => replyBuffers (.completion c) = 0

/-- A run in progress belongs to an ACTIVE entry, a READ's to a READ, and a READ's run has a sector to come and an allocated buffer for each
sector of it to come, all of them sectors that its entry has still to read (R4, R83, R98); no READ is in a VOID marking (R131). -/
def runLawful (s : State) (a : Access) (n : Nat) : Prop :=
  ∃ e ∈ s.work, e.order = n ∧ e.state = .active ∧ (a.kind = .readRun ↔ e.kind = .read)
    ∧ (e.kind = .read → a.sector < a.runEnd ∧ a.runEnd - a.sector ≤ e.allocated ∧ e.done + a.done + (a.runEnd - a.sector) ≤ e.count
        ∧ a.pass ≠ .marking ∧ a.pass ≠ .markCheck)

/-- The kinds of access that an owner makes (R115): an entry's run or its MAP-STORE's label write; a posted write's commit run; a sweep's
step; of the volume manager a label read, a probe, or the label write of STORING. -/
def Owner.makes : Owner → List AccessKind
  | .entry _ => [.readRun, .writeRun, .appendRun, .labelWrite]
  | .posted _ => [.writeRun, .appendRun]
  | .sweep => [.clearStep, .scanStep]
  | .volume => [.labelRead, .probe, .labelWrite]

/-- The law of the access in progress: it is of a kind that its owner makes (R115), and only in a write does a stop or a cut wait (R144 to
R146). -/
abbrev accessLawful (a : Access) : Prop := a.kind ∈ Owner.makes a.owner ∧ (a.kind.writes = false → a.stops = [])

/-- The access in progress, if there is one, keeps its law. -/
abbrev AccessLawful (s : State) : Prop := ∀ a ∈ s.seq.access, accessLawful a

/-- What the buffer pool's law rests on: the due lists, the access and the run in progress keep their laws, and a READ that waits for the
drive has sectors remaining. -/
def RunsLawful (s : State) : Prop :=
  (∀ ch, ∀ d ∈ (s.port ch).due, dueLawful s ch d)
    ∧ (∀ e ∈ s.work, e.kind = .read → e.state = .queued ∨ e.state = .parked → e.done < e.count)
    ∧ AccessLawful s
    ∧ ∀ a n, s.seq.access = some a → a.owner = .entry n → runLawful s a n

/-! ## Words for claims: replies and the stage -/

/-- The command by which admission takes a request of a kind. -/
def commandOf : ReqKind → Channel → Instr
  | .read, ch => .read ch
  | .write, ch => .write ch
  | .append, ch => .append ch
  | .flush, ch => .flush ch
  | .cancel, ch => .cancel ch
  | .claim, ch => .claim ch
  | .mapRead, ch => .mapRead ch
  | .mapLoad, ch => .mapLoad ch
  | .mapStore, ch => .mapStore ch
  | .defectRead, ch => .defectRead ch
  | .clear, ch => .clear ch
  | .scan, ch => .scan ch
  | .sweepHalt, ch => .sweepHalt ch
  | .context, ch => .context ch
  | .settingsLoad, ch => .settingsLoad ch
  | .status, ch => .status ch
  | .eventAck, ch => .eventAck ch
  | .faultRead, ch => .faultRead ch
  | .timeSet, ch => .timeSet ch

/-- The state once a completion or LINK-REJECT has been formed in a stage whose port keeps the law of R177: it has moved to the reply queue
if the queue had room, and otherwise stands in the stage as the youngest member of the due list (R47, R177). -/
def replied (ch : Channel) (r : Reply) (s : State) : State :=
  s.updPort ch (fun p =>
    if p.queue.length < 4 then { p with stage := .empty, queue := p.queue ++ [r] }
    else { p with stage := .reply r, due := p.due ++ [.stage] })

/-- A request's completion formed in the stage: with no sectors, no conditions, the late flag clear (R68). -/
def answered (ch : Channel) (r : Request) (outcome : Code) (body : Body) (s : State) : State :=
  replied ch (.completion { tag := r.tag, kind := r.kind, outcome := outcome, late := false, sectorsDone := 0, conditions := [],
                            body := body }) s

/-- An admitted request whose effect is complete: one admission order is used (R50), and the completion is formed (R47). -/
def completed (ch : Channel) (r : Request) (outcome : Code) (body : Body) (s : State) : State :=
  answered ch r outcome body { s with nextOrder := s.nextOrder + 1 }

/-- An entry but for its reservation, which any release of the channel's buffers may raise (R98). -/
def bareEntry (e : Entry) : Entry := { e with reserved := 0 }

/-- Two states that differ in the reservations of started READs alone (R98). -/
def SameButReservations (s t : State) : Prop :=
  t = { s with work := t.work } ∧ t.work.map bareEntry = s.work.map bareEntry

/-- A request is refused (R47): its refusal is formed in the stage, with no body, and nothing else changes but that the room of the
buffers it held may go to short reservations (R98). -/
def Refused (ch : Channel) (r : Request) (code : Code) (s t : State) : Prop := SameButReservations (answered ch r code .none s) t

/-- A request of a kind stands untaken in a channel's stage, under a tag that R51 lets it use. -/
abbrev Stands (kind : ReqKind) (ch : Channel) (r : Request) (s : State) : Prop :=
  (s.port ch).stage = .request r ∧ r.kind = kind ∧ s.tagInUse ch r.tag = false ∧ r.tag ≠ 255

/-- The body fails the form check of its kind (R52; for a CLAIM checks 1 to 4 of R35, for a MAP-LOAD check 1 of R29). -/
def formFails (ch : Channel) (r : Request) : Bool :=
  match r.kind with
  | .read => (readOperands r).isNone
  | .write => (writeOperands r).isNone
  | .append => (appendOperands r).isNone
  | .cancel => (cancelOperands r).isNone
  | .claim => (claimOperands ch r).isNone
  | .mapLoad => (mapLoadOperands r).isNone
  | .mapStore => (mapStoreOperands r).isNone
  | .clear | .scan => (sweepOperands r).isNone
  | .context => (contextOperands r).isNone
  | .settingsLoad => (settingsOperands r).isNone
  | .eventAck => (eventAckOperands r).isNone
  | .timeSet => (timeSetOperands r).isNone
  | .flush | .mapRead | .defectRead | .sweepHalt | .status | .faultRead => decide (r.length ≠ 0)

/-- The channel's context expects no generation, or the volume's (R53). -/
abbrev Fresh (ch : Channel) (s : State) : Prop :=
  (s.port ch).context.expectedGen = 0 ∨ (s.port ch).context.expectedGen = s.volume.generation

/-- The volume is MOUNTED, and the channel's context does not find it stale (R53). -/
abbrev Mounted (ch : Channel) (s : State) : Prop := s.volume.state = .mounted ∧ Fresh ch s

/-- The work list has a place for a channel (R48). -/
abbrev PlaceFor (ch : Channel) (s : State) : Prop :=
  s.work.length < 16 ∧ (s.work.filter (fun e => e.channel = ch)).length < 10

/-- The request leaves the stage as a work entry (R47, R50, R71). -/
def joined (ch : Channel) (x : Entry) (s : State) : State :=
  { s.updPort ch (fun p => { p with stage := .empty }) with work := s.work ++ [x], nextOrder := s.nextOrder + 1 }

/-- The request stays in the stage, waiting for a place (R48). -/
def waits (ch : Channel) (r : Request) (s : State) : State := s.updPort ch (fun p => { p with stage := .waiting r false })

/-! ## Words for claims: the words of a reply -/

/-- A value of a state, coded by its place in the spec's list of the values, counting from 0 (R185, R187). -/
def placeIn {α : Type} [BEq α] (values : List α) (v : α) : Word := word (values.idxOf v)

/-- A field that may be absent: 0, or 1 and the field's words (R185). -/
def optional {α : Type} (f : α → List Word) (v : Option α) : List Word := match v with | none => [0] | some x => 1 :: f x

/-- A 32-bit number in two words, the more significant first (R185). -/
def inTwo (v : BitVec 32) : List Word := [word (v.toNat / 65536), word (v.toNat % 65536)]

/-- Yes and set are 1, no and clear 0 (R185). -/
def yesNo (b : Bool) : Word := if b = true then 1 else 0

/-- The sum of the weights of the bits that are set. -/
def bitsOf (bits : List (Bool × Nat)) : Word := word (bits.map (fun b => if b.1 = true then b.2 else 0)).sum

/-- The kind code of a request (R185), by the tables' groups. -/
def kindCode (k : ReqKind) : Nat :=
  let groups : List (Nat × List ReqKind) :=
    [(0x10, [.read, .write, .append, .flush, .cancel]), (0x20, [.claim]), (0x30, [.mapRead, .mapLoad, .mapStore, .defectRead]),
     (0x40, [.clear, .scan, .sweepHalt]), (0x50, [.context, .settingsLoad]), (0x60, [.status, .eventAck, .faultRead, .timeSet])]
  ((groups.find? (fun g => g.2.contains k)).map (fun g => g.1 + g.2.idxOf k)).getD 0

/-- The code of an outcome (R186), by the table's four unbroken stretches. -/
def outcomeCode (c : Code) : Nat :=
  let stretches : List (Nat × List Code) :=
    [(0x00, [.done, .posted, .joined]), (0x08, [.blank, .void, .checkMismatch, .mediumError, .torn]),
     (0x10, [.badRequest, .duplicateTag, .badContext, .badSettings, .quotaInUse, .notMounted, .staleVolume, .volumeLeaving, .noExtent,
             .outOfExtent, .noRight, .claimRequired, .appendOnly, .extentFull, .fillUnknown, .extentClearing, .extentBusy,
             .defectiveSector, .writeProtected, .sweepBusy, .sweepFull, .badMap, .notFound, .tooLate]),
     (0x30, [.cancelled, .deadlineAbandoned, .claimLost, .claimMismatch, .volumeGone, .writeFault, .seekError, .faulted])]
  ((stretches.find? (fun g => g.2.contains c)).map (fun g => g.1 + g.2.idxOf c)).getD 0

/-- A condition's code is that of the outcome of its name: 08h to 0Ch in the table's order (R186). -/
def conditionCode (c : Condition) : Nat := 0x08 + [Condition.blank, .void, .checkMismatch, .mediumError, .torn].idxOf c

/-- A holder's code: NONE 0, A 1, B 2 (R185). -/
def holderWord (h : Option Channel) : Word := placeIn [none, some .A, some .B] h

/-- A claim value (R33, R187): holder, token, lease, remaining. -/
def claimBody (c : ClaimRecord) : List Word := [holderWord c.holder, word c.token, word c.lease, word c.remaining]

/-- A definition (R187): first cylinder, last cylinder, kind, rights, class, options. -/
def definitionBody (d : Definition) : List Word :=
  [word d.first, word d.last, placeIn [ExtentKind.opn, .append, .guarded] d.kind,
   bitsOf [(d.readA, 1), (d.writeA, 2), (d.readB, 4), (d.writeB, 8)], placeIn [WorkClass.urgent, .setup, .log, .bulk] d.cls,
   bitsOf [(d.urgentAllowed, 1), (d.posting, 2)]]

/-- An entry of a MAP-READ (R187): slot, definition, fill mark and fill state as one absent field, appends pending as another, clearing,
claim holder. -/
def mapEntryBody (m : MapEntry) : List Word :=
  [word m.slot.val] ++ definitionBody m.extent.defn
    ++ optional (fun f : Fill => [word f.mark, placeIn [FillState.known, .unknown] f.state]) m.extent.fill
    ++ optional (fun f : Fill => [word f.pending]) m.extent.fill
    ++ [yesNo m.extent.clearing, holderWord m.holder]

/-- An entry of a DEFECT-READ (R187): cylinder, head, sector, cause, first-seen in two words, count. -/
def defectBody (d : Defect) : List Word :=
  [word d.cylinder, word d.head, word d.sector, placeIn [DefectCause.read, .write, .header] d.cause] ++ inTwo d.firstSeen ++ [word d.count]

/-- The entry of a FAULT-READ (R187): tag, slot, first sector as an absent field, count, sectors committed, cause, generation, clock. -/
def faultBody (e : FaultEntry) : List Word :=
  [word e.tag, word e.slot.val] ++ optional (fun n => [word n]) e.first
    ++ [word e.count, word e.committed, word (outcomeCode e.cause), word e.generation] ++ inTwo e.clock

/-- A status record (R182, R187): its fields in table order, a state by its place in its own table (R114, R121, R148), the counts of A's
five states, then B's, and the posted writes. The places of the label state and of the sweep phase, and a level as a word of its own, are
the model's choice (log 12). -/
def statusBody (r : StatusRecord) : List Word :=
  let counts (c : WorkCounts) : List Word := [word c.queued, word c.active, word c.parked, word c.watching, word c.finished]
  [placeIn [VolumeState.absent, .mounting, .mounted, .draining, .storing, .releasing] r.volume, word r.generation]
    ++ optional (fun l => [placeIn [LabelState.valid, .unlabelled] l]) r.label ++ optional inTwo r.serial ++ [yesNo r.mapModified]
    ++ [placeIn [SeqState.noCartridge, .restoring, .idle, .seeking, .searching, .transferring, .notSafe, .stopping, .offline] r.sequencer,
        word (r.cylinder.getD 0xFFFF), placeIn [Phase.headerCheck, .header, .data, .dataRead, .readBack, .none] r.phase,
        placeIn [Direction.inward, .outward] r.direction, yesNo r.overflow]
    ++ counts r.work.a ++ counts r.work.b ++ [word r.posted]
    ++ [word r.holdingA, word r.holdingB]
    ++ [placeIn [SweepPhase.none, .collecting, .running, .suspended, .ended] r.sweepPhase]
    ++ optional (fun k : Slot => [word k.val]) r.sweepSlot ++ optional (fun n => [word n]) r.sweepSector
    ++ [Line.ready, .door, .protect, .unload, .fault, .power].map (fun l => yesNo (hasLine r.levels l))
    ++ [word r.events.toNat, word r.changed.toNat]
    ++ claimBody r.claim ++ inTwo r.clock

/-- The kind-specific body of a completion (R187). -/
def kindBody : Body → List Word
  | .none => []
  | .read sectors => sectors.flatten
  | .append start => optional (fun n => [word n]) start
  | .claim v => claimBody v
  | .map generation modified entries => [word generation, yesNo modified, word entries.length] ++ entries.flatMap mapEntryBody
  | .defects entries overflow => [word entries.length] ++ entries.flatMap defectBody ++ [yesNo overflow]
  | .sweep results =>
    [word results.length] ++ results.flatMap (fun r =>
      [word r.1.val, placeIn [SweepResult.done, .partly, .prot, .failedSectors, .volumeGone] r.2])
  | .status r => statusBody r
  | .faultRead entry overflow => optional faultBody entry ++ [word overflow]

/-- The body of a completion (R186): the request's kind code over the outcome code; the late flag, the number of conditions, the sectors
done; the conditions, each its sector index over its code; the kind-specific body. -/
def completionBody (c : Completion) : List Word :=
  [word (kindCode c.kind * 256 + outcomeCode c.outcome),
   word ((if c.late = true then 32768 else 0) + c.conditions.length * 16 + c.sectorsDone)]
    ++ c.conditions.map (fun x => word (x.1 * 256 + conditionCode x.2)) ++ kindBody c.body

/-- A frame (R176, R185): the kind code over the tag, the number of body words, the body, and the check over all of these. -/
def frameOf (kind tag : Nat) (body : List Word) : List Word :=
  let unchecked := [word (kind * 256 + tag), word body.length] ++ body
  unchecked ++ [crc unchecked]

/-- The frame in which a reply leaves (R178, R186): of kind A0h a completion, of kind A1h a LINK-REJECT, whose body is the reason (1 CHECK, 2
LENGTH, 3 KIND) and the number of words taken. -/
def replyFrame : Reply → List Word
  | .completion c => frameOf 0xA0 c.tag (completionBody c)
  | .linkReject tag reason taken => frameOf 0xA1 tag [1 + placeIn [LinkReason.check, .length, .kind] reason, word taken]

/-! ## Words for claims: work -/

/-- The class of a data transaction's work (R19). -/
def workClass (d : Definition) (o : DataOperands) : WorkClass :=
  if o.flags.urgent = true ∧ d.urgentAllowed = true then .urgent else d.cls

/-- The deadline an entry of a class takes; 0 means none (R85). -/
def deadlineOf (c : WorkClass) (s : State) : Option Nat :=
  if (s.settings.row c).deadline = 0 then none else some (s.settings.row c).deadline

/-- A QUEUED entry as admission makes it, before what is particular to its kind: the order, the copied check span and verify (R50), the
write data buffers of the request. -/
def admittedEntry (ch : Channel) (r : Request) (kind : WorkKind) (s : State) : Entry :=
  { channel := ch, tag := r.tag, kind := kind, cls := none, slot := none, base := 0, size := 0, first := 0, count := 0, done := 0,
    state := .queued, order := s.nextOrder, deadline := none, late := false, span := (s.port ch).context.span,
    verify := (s.port ch).context.verify, flags := { quiet := false, medium := false, urgent := false, force := false },
    token := none, writeBuffers := r.buffers, readBuffers := [], allocated := 0, reserved := 0, conditions := [],
    appendStart := none, run := none, watched := [], faultSeen := false, outcome := none, discard := false, serial := 0,
    tornNext := false }

/-- The QUEUED entry of a READ, WRITE or APPEND on an extent (R72). -/
def dataEntryOf (ch : Channel) (r : Request) (kind : WorkKind) (o : DataOperands) (d : Definition) (token : Option Nat) (s : State) :
    Entry :=
  { admittedEntry ch r kind s with
    cls := some (workClass d o), deadline := deadlineOf (workClass d o) s, slot := some o.slot, base := d.first,
    size := (d.last - d.first + 1) * 24, first := o.first, count := o.count, flags := o.flags, token := token }

/-- The posted write that a WRITE or APPEND becomes (R102): PENDING, no sector committed. -/
def postedOf (ch : Channel) (r : Request) (kind : PostedKind) (first : Option Nat) (o : DataOperands) (d : Definition)
    (token : Option Nat) (s : State) : Posted :=
  { channel := ch, tag := r.tag, kind := kind, slot := o.slot, base := d.first, size := (d.last - d.first + 1) * 24, first := first,
    count := o.count, committed := 0, torn := false, order := s.nextOrder, cls := workClass d o,
    generation := s.volume.generation, span := (s.port ch).context.span, verify := (s.port ch).context.verify, token := token,
    force := o.flags.force, buffers := r.buffers, committing := false, tornNext := false }

/-- The WRITE or APPEND is posted at admission (R57). -/
abbrev Posts (d : Definition) (o : DataOperands) (s : State) : Prop :=
  d.posting = true ∧ o.flags.medium = false ∧ s.posted.length < 4

/-- The token a WRITE or a CLEAR's item carries: the claim's on a GUARDED extent, else none (R40). -/
def tokenOf (k : Slot) (d : Definition) (s : State) : Option Nat :=
  if d.kind = .guarded then some (s.claim (.extent k)).token else none

/-- The completion of an entry that ends (R68, R90): the late flag on DONE alone. -/
def endingOf (e : Entry) (code : Code) : Completion :=
  { tag := e.tag,
    kind := match e.kind with | .read => .read | .write => .write | .append => .append | .flush => .flush | .mapStore => .mapStore,
    outcome := code, late := e.late && code == .done, sectorsDone := e.done, conditions := e.conditions,
    body := match e.kind with | .read => .read e.readBuffers | .append => .append e.appendStart | _ => .none }

/-- A waiting request is due to be taken afresh (R48). -/
def dueAgain (p : Port) : Port := match p.stage with | .waiting r _ => { p with stage := .waiting r true } | _ => p

/-- An entry has left the work list, and the requests that wait are due to be taken afresh (R48, R71). -/
def entryLeft (e : Entry) (s : State) : State :=
  { s with work := s.work.filter (fun x => x.order ≠ e.order), ports := { a := dueAgain s.ports.a, b := dueAgain s.ports.b } }

/-- An entry has ended (R70, R90, R91, R92, R177). An APPEND's unappended sectors have left appends pending. With the discard mark, or as a
clean QUIET DONE, it has left without a completion; else its completion has joined the reply queue and it has left, or, with the
queue full, it is FINISHED and due. -/
def entryEnded (e : Entry) (code : Code) (s : State) : State :=
  let s := match e.kind, e.slot with
    | .append, some k => updFill k (fun f => { f with pending := f.pending - (e.count - e.done) }) s
    | _, _ => s
  if e.discard = true ∨ (e.flags.quiet = true ∧ code = .done ∧ e.late = false ∧ e.conditions = []) then entryLeft e s
  else if (s.port e.channel).queue.length < 4 then
    entryLeft e (s.updPort e.channel (fun p => { p with queue := p.queue ++ [.completion (endingOf e code)] }))
  else
    updEntry e.order (fun x => { x with state := .finished, outcome := some code, writeBuffers := [], allocated := 0, reserved := 0,
                                        run := none, deadline := none })
      (s.updPort e.channel (fun p => { p with due := p.due ++ [.entry e.order] }))

/-- An entry has ended with an outcome: FINISHED with it, or its completion placed (R70, R177). -/
def Ended (e : Entry) (code : Code) (t : State) : Prop :=
  (∃ x ∈ t.work, x.order = e.order ∧ x.state = .finished ∧ x.outcome = some code)
    ∨ ∃ c, Reply.completion c ∈ (t.port e.channel).queue ∧ c.tag = e.tag ∧ c.outcome = code

/-- A live entry as the end of its volume's work leaves it (R89, R93): the run in progress credited. An APPEND whose own sector write is cut
in its DATA phase has TORN in its condition list, at the data sector's index, the sector not counted (R9; that it is reported though not
counted is log 42). -/
def lastOf (s : State) (e : Entry) : Entry :=
  match s.seq.access with
  | some a =>
    if a.owner = .entry e.order then
      { e with
        done := e.done + a.done
        conditions :=
          if e.kind = .append ∧ a.kind = .appendRun ∧ a.pass = .work ∧ s.seq.phase = .data then
            addCondition (e.count - e.writeBuffers.length) .torn e.conditions
          else e.conditions }
    else e
  | none => e

/-- The live entries of a state have ended VOLUME-GONE, their sectors done and conditions kept (R93, R158): FINISHED so, or completed. -/
def WorkGone (s t : State) : Prop :=
  ∀ e ∈ s.work, e.live = true → e.discard = false →
    (∀ a, s.seq.access = some a → a.owner = .entry e.order → (a.kind = .appendRun ↔ e.kind = .append)) →
    let y := lastOf s e
    (∃ x ∈ t.work, x.order = e.order ∧ x.state = .finished ∧ x.outcome = some .volumeGone ∧ x.done = y.done ∧ x.conditions = y.conditions)
      ∨ .completion (endingOf y .volumeGone) ∈ (t.port e.channel).queue

/-! ## Words for claims: posted writes -/

/-- An entry joins a posted fault log as its youngest, or is counted when the log holds 4 (R106). -/
def recorded (e : FaultEntry) (l : FaultLog) : FaultLog :=
  if l.entries.length < 4 then { l with entries := l.entries ++ [e] } else { l with overflow := min 255 (l.overflow + 1) }

/-- The fault of a posted write as its log keeps it (R106). -/
def faultEntryOf (cause : Code) (clock : Millis) (p : Posted) : FaultEntry :=
  { tag := p.tag, slot := p.slot, first := p.first, count := p.count, committed := p.committed, cause := cause,
    generation := p.generation, clock := clock }

/-- A posted write has left the posted list, so that waiting requests are due again (R48, R103). -/
def postedLeft (p : Posted) (s : State) : State :=
  { s with posted := s.posted.filter (fun x => x.order ≠ p.order), ports := { a := dueAgain s.ports.a, b := dueAgain s.ports.b } }

/-- A posted write has faulted, with no FLUSH watching (R104, R106): it has left the posted list; an APPEND's unappended sectors have left
appends pending; its fault is logged as the youngest entry or counted; POSTED-FAULT is set. -/
def postedFaulted (p : Posted) (cause : Code) (s : State) : State :=
  let u := if p.kind = .append then updFill p.slot (fun f => { f with pending := f.pending - p.buffers.length }) s else s
  postedLeft p
    { u.updPort p.channel (fun q => { q with events := q.events ||| EventKind.postedFault.bit }) with
      logs := s.logs.set p.channel (recorded (faultEntryOf cause s.clock p) (s.logs.get p.channel)) }

/-- Every posted write of a state has faulted VOLUME-GONE (R104, R106, R110): none is left; each is logged or counted, in admission order;
POSTED-FAULT is set at each channel that had one. -/
def PostedGone (s t : State) : Prop :=
  t.posted = []
    ∧ t.logs = s.posted.foldl
        (fun ls p => ls.set p.channel (recorded (faultEntryOf .volumeGone s.clock p) (ls.get p.channel))) s.logs
    ∧ ∀ p ∈ s.posted, hasEvent (t.port p.channel).events .postedFault = true

/-! ## Words for claims: the sweep -/

/-- A sweep has ended with no stop left to take (R173, R174, R177): its extents' clearing marks are clear, SWEEP-END is set at both ports,
and its completion, with an outcome and a result for each item, has joined the opening channel's queue, or is due there with the queue
full, or is discarded when that channel has been reset. -/
def sweepOver (sw : Sweep) (outcome : Code) (result : Nat → SweepItem → SweepResult) (s : State) : State :=
  let mark (p : Port) : Port := { p with events := p.events ||| EventKind.sweepEnd.bit }
  let c : Completion :=
    { tag := sw.tag, kind := match sw.kind with | .clear => .clear | .scan => .scan, outcome := outcome, late := false, sectorsDone := 0,
      conditions := [], body := .sweep (sw.items.mapIdx (fun i it => (it.slot, result i it))) }
  let u : State :=
    { s with
      sweep := none, sweepSeen := true, ports := { a := mark s.ports.a, b := mark s.ports.b }
      extents := Vector.ofFn (fun k => if sw.items.any (fun it => it.slot = k) then
          (s.extents.get k).map (fun e => { e with clearing := false }) else s.extents.get k) }
  if sw.discard = true then u
  else u.updPort sw.channel (fun p =>
    if p.queue.length < 4 then { p with queue := p.queue ++ [.completion c] } else { p with due := p.due ++ [.sweep c] })

/-- A sweep has ended by a halt, or with its last item complete: items without a result are PARTIAL (R171, R173). -/
def sweepHalted (sw : Sweep) (s : State) : State := sweepOver sw .done (fun _ it => it.result.getD .partly) s

/-- A CLEAR has been stopped by PROTECT (R172): of the items without a result the current one, or in COLLECTING the first, is PROTECTED, the
others PARTIAL. -/
def sweepProtected (sw : Sweep) (s : State) : State :=
  sweepOver sw .writeProtected (fun i it => it.result.getD (if i = sw.current.getD 0 then .prot else .partly)) s

/-- An item of a sweep has its result, with no stop waiting (R167, R173): the next one is current, or, after the last, the sweep is over. -/
def itemDone (sw : Sweep) (i : Nat) (r : SweepResult) (s : State) : State :=
  let items := sw.items.modify i (fun it => { it with result := some r })
  if i + 1 < sw.items.length then { s with sweep := some { sw with items := items, current := some (i + 1), sector := none } }
  else sweepHalted { sw with items := items } s

/-! ## Words for claims: the drive -/

/-- The sequencer sent to an access's sector (R116): SEEKING with the seek timeout of 250 ms running when the arm is not known to stand at
its cylinder, else SEARCHING for its sector under its head. -/
def sent (a : Access) (q : Sequencer) : Sequencer :=
  if q.cylinder = some (a.base + a.sector / 24) then
    { q with access := some { a with unsync := 0 }, state := .searching, head := a.sector % 24 / 12, target := some (a.sector % 12),
             phase := .none, gate := false }
  else
    { q with access := some a, state := .seeking, seekTo := a.base + a.sector / 24, accepted := false, seekTimer := some 250,
             target := none, phase := .none, gate := false }

/-- The sequencer with an access begun (R115): no seek timeout, no mismatch counted. -/
def begun (a : Access) (q : Sequencer) : Sequencer := sent a { q with seekTimeouts := 0, mismatches := 0 }

/-- The sequencer at the next attempt of an access (R122): after two consecutive mismatches it restores first, else it searches for the
sector's next passage. -/
def retried (a : Access) (q : Sequencer) : Sequencer :=
  if q.mismatches ≥ 2 then
    { q with mismatches := 0, access := some { a with restored := true }, state := .restoring, cylinder := none, accepted := false,
             seekTimer := none, restoreTimer := some 600, target := none, phase := .none, gate := false }
  else
    { q with access := some { a with unsync := 0 }, state := .searching, head := a.sector % 24 / 12, target := some (a.sector % 12),
             phase := .none, gate := false }

/-- The access turned to another sector of its run: nothing of the last one's attempts is kept (R123). -/
def turned (a : Access) (m : Nat) : Access :=
  { a with sector := m, pass := .work, failed := 0, checkPassed := false, tornResume := false, restored := false, further := false,
           underWay := false }

/-- The sequencer with its access ended: IDLE, the drive without an owner (R115). -/
def ended (q : Sequencer) : Sequencer := { q with access := none, state := .idle, target := none, phase := .none, gate := false }

/-- The header as read is readable (R6) and carries the address of the access's sector (R122). -/
abbrev AddressRight (a : Access) (h : HeaderImage) : Prop :=
  h.check = headerCheck h.cylinder h.head h.sector h.state ∧ h.cylinder.toNat = a.base + a.sector / 24
    ∧ h.head.toNat = a.sector % 24 / 12 ∧ h.sector.toNat = a.sector % 12

/-- The header as read is readable and carries another address (R122). -/
abbrev AddressWrong (a : Access) (h : HeaderImage) : Prop :=
  h.check = headerCheck h.cylinder h.head h.sector h.state
    ∧ ¬ (h.cylinder.toNat = a.base + a.sector / 24 ∧ h.head.toNat = a.sector % 24 / 12 ∧ h.sector.toNat = a.sector % 12)

/-- The place in disk order of the access's sector (R2, R3). -/
def placeOf (a : Access) : Nat := a.base * 24 + a.sector

/-- The header written on the sector at a place in disk order (R5, R6): its address, a state, and the check word over them. -/
def headerOn (place : Nat) (st : HeaderState) : HeaderImage :=
  let c := word (place / 24)
  let h := word (place % 24 / 12)
  let n := word (place % 12)
  { cylinder := c, head := h, sector := n, state := st, check := headerCheck c h n st }

/-- The blocks that act on a line have taken its change (R137, log 9). -/
def actedOn (l : Line) (active : Bool) (s : State) : State :=
  { s with acted := if active = true then s.acted ||| lineBit l else s.acted &&& ~~~(lineBit l) }

/-- The state whose next line change is taken by the one said: the line monitor, the blocks that act on it, or both (R137, log 9). -/
def takenBy (taker : Taker) (s : State) : State := { s with takers := taker :: s.takers }

/-- The command of a line's change to a level (R137). -/
def lineCommand : Line → Bool → Instr
  | .ready, true => .readyActive
  | .ready, false => .readyInactive
  | .door, true => .doorOpen
  | .door, false => .doorClose
  | .unload, true => .unloadPressed
  | .unload, false => .unloadReleased
  | .protect, true => .protectActive
  | .protect, false => .protectInactive
  | .fault, true => .faultActive
  | .fault, false => .faultInactive
  | .power, true => .powerActive
  | .power, false => .powerInactive

/-- A line's change as the line monitor takes it (R137, R138): the level kept, and at each port whose line mask includes the line the
changed-line set and LINE-CHANGE. -/
def lineTaken (l : Line) (active : Bool) (s : State) : State :=
  let tell (p : Port) : Port :=
    if hasLine p.context.lineMask l then
      { p with changed := p.changed ||| lineBit l, events := p.events ||| EventKind.lineChange.bit }
    else p
  { s with
    levels := if active = true then s.levels ||| lineBit l else s.levels &&& ~~~(lineBit l)
    ports := { a := tell s.ports.a, b := tell s.ports.b } }

/-! ## Words for claims: eligibility and run boundaries -/

/-- An entry is taken to touch a relative sector of an extent, or sector 0 of the label's place (R75); a FLUSH touches nothing. -/
def entryTouches (s : State) (e : Entry) (place : Option Slot) (m : Nat) : Prop :=
  match e.kind, e.slot with
  | .read, some k | .write, some k => place = some k ∧ e.first ≤ m ∧ m < e.first + e.count
  | .append, some k => place = some k ∧ e.appendStart.getD (s.fillMark k) ≤ m ∧ m < e.size
  | .mapStore, _ => place = none ∧ m = 0
  | _, _ => False

/-- A posted write is taken to touch a relative sector of its extent (R75). -/
def postedTouches (s : State) (p : Posted) (place : Option Slot) (m : Nat) : Prop :=
  place = some p.slot
    ∧ match p.kind with
      | .write => p.first.getD 0 ≤ m ∧ m < p.first.getD 0 + p.count
      | .append => p.first.getD (s.fillMark p.slot) ≤ m ∧ m < p.size

/-- Work of an admission order that touches some sectors, to read or to write them, is held back by older unfinished work that overlaps it:
a sector in common, which at least one of the two writes (R75, R77). -/
def HeldBack (s : State) (order : Nat) (writes : Prop) (touches : Option Slot → Nat → Prop) : Prop :=
  (∃ e ∈ s.work, e.live = true ∧ e.order < order ∧ (writes ∨ e.kind ≠ .read) ∧ ∃ place m, touches place m ∧ entryTouches s e place m)
    ∨ ∃ p ∈ s.posted, p.order < order ∧ ∃ place m, touches place m ∧ postedTouches s p place m

/-- An older unfinished APPEND, entry or posted write, stands on an extent (R78). -/
def AppendBefore (s : State) (order : Nat) (k : Slot) : Prop :=
  (∃ e ∈ s.work, e.live = true ∧ e.kind = .append ∧ e.slot = some k ∧ e.order < order)
    ∨ ∃ p ∈ s.posted, p.kind = .append ∧ p.slot = k ∧ p.order < order

/-- A READ's unused quota, its own reservation counted, is at least the length of its next run (R4, R76, R98). -/
abbrev RoomFor (s : State) (e : Entry) : Prop :=
  min (e.count - e.done) (24 - (e.first + e.done) % 24) ≤ s.settings.quota e.channel - heldBuffers e.channel s + e.reserved

/-- The cylinder in which an APPEND goes on: that of the fill mark, or the extent's last when it is full (R72). -/
def appendAt (base size mark : Nat) : Nat := if size ≤ mark then base + (size - 1) / 24 else base + mark / 24

/-- An entry as the arbiter sees it, with its class and its next-run cylinder (R72, R81). -/
def entryCandidate (s : State) (e : Entry) : Candidate :=
  { owner := .entry e.order, cls := e.cls.getD .bulk, order := e.order
    cylinder := match e.kind with
      | .append => appendAt e.base e.size ((e.slot.map s.fillMark).getD (e.first + e.done))
      | .mapStore => 0
      | _ => e.base + (e.first + e.done) / 24 }

/-- A posted write as the arbiter sees it (R81, R103). -/
def postedCandidate (s : State) (p : Posted) : Candidate :=
  { owner := .posted p.order, cls := p.cls, order := p.order
    cylinder := match p.kind with
      | .write => p.base + (p.first.getD 0 + p.committed) / 24
      | .append => appendAt p.base p.size (s.fillMark p.slot) }

/-- The claim with which a piece of work was admitted, where it carries a token, is still held by its channel (R40, R41, R42). -/
abbrev ClaimStands (s : State) (k : Slot) (ch : Channel) (token : Option Nat) : Prop :=
  ∀ n, token = some n → (s.claim (.extent k)).holder = some ch ∧ (s.claim (.extent k)).token = n

/-- An entry's run has ended at a run boundary (R84): `y` is the entry with its sectors credited and some remaining, `u` the state with the
run's access ended, `t` what the step leaves. A write that meets PROTECT ends WRITE-PROTECTED; else the entry parks, when its class yields
and higher-class work is eligible, or when its own next run is not eligible, freed room having gone to short reservations first (R98); else
it goes on with its next run, through the claim check of R41. -/
def AtBoundary (y : Entry) (u t : State) : Prop :=
  let v := topUpBoth u
  let cls := y.cls.getD .bulk
  let protect : Prop := y.kind ≠ .read ∧ u.ownerActive .protect = true
  let yields : Prop := (u.settings.row cls).yields = true ∧ ∃ c ∈ v.candidates, c.cls.code < cls.code
  let eligible : Prop := (y.kind = .read → ∀ x ∈ v.work, x.order = y.order → RoomFor v x) ∧ (y.kind ≠ .read → u.powerPeriod = none)
  let goesOn : Prop := ¬ protect ∧ ¬ yields ∧ eligible
  let put (f : Entry → Entry) : State := { u with work := u.work.map (fun x => if x.order = y.order then f x else x) }
  let m := y.first + y.done
  let len := min (y.count - y.done) (24 - m % 24)
  (protect → SameButReservations (entryEnded y .writeProtected u) t)
    ∧ (¬ protect → yields ∨ ¬ eligible →
        SameButReservations (put (fun x => { x with state := .parked, run := none, allocated := 0, tornNext := false })) t)
    ∧ (goesOn → y.kind = .read →
        SameButReservations
          { put (fun x => { x with state := .active, deadline := none, allocated := len, run := some (m, len) }) with
            seq := begun (Access.begin (.entry y.order) .readRun y.cls false y.slot y.base m (m + len) y.size) u.seq } t)
    ∧ (∀ k, goesOn → y.kind = .write → y.slot = some k →
        (ClaimStands u k y.channel y.token →
          SameButReservations
            { put (fun x => { x with state := .active, deadline := none, run := some (m, len), tornNext := false }) with
              seq := begun { Access.begin (.entry y.order) .writeRun y.cls y.verify y.slot y.base m (m + len) y.size with
                tornResume := y.tornNext } u.seq } t)
          ∧ (¬ ClaimStands u k y.channel y.token →
              SameButReservations
                (entryEnded { y with state := .active, deadline := none } .claimLost
                  (put (fun x => { x with state := .active, deadline := none }))) t))
    ∧ (∀ k f, goesOn → y.kind = .append → y.slot = some k → u.fill k = some f → f.mark < y.size →
        SameButReservations
          { put (fun x => { x with
              state := .active, deadline := none, run := some (f.mark, min (y.count - y.done) (24 - f.mark % 24))
              appendStart := some (x.appendStart.getD f.mark) }) with
            seq := begun (Access.begin (.entry y.order) .appendRun y.cls y.verify y.slot y.base f.mark ((f.mark / 24 + 1) * 24) y.size)
              u.seq } t)

/-- A commit run has ended at a run boundary, with no FLUSH watching (R84, R103): `y` is the posted write with its sectors counted and some
remaining. It faults WRITE-PROTECTED under PROTECT; else it is PENDING again when its class yields to eligible higher-class work, or under
a write hold; else it goes on with its next run, through the claim check of R42. -/
def AtPostedBoundary (y : Posted) (u t : State) : Prop :=
  let v := topUpBoth u
  let protect : Prop := u.ownerActive .protect = true
  let yields : Prop := (u.settings.row y.cls).yields = true ∧ ∃ c ∈ v.candidates, c.cls.code < y.cls.code
  let goesOn : Prop := ¬ protect ∧ ¬ yields ∧ u.powerPeriod = none
  let put (f : Posted → Posted) : State := { u with posted := u.posted.map (fun x => if x.order = y.order then f x else x) }
  let m := y.first.getD 0 + y.committed
  let len := min (y.count - y.committed) (24 - m % 24)
  (protect → SameButReservations (postedFaulted y .writeProtected u) t)
    ∧ (¬ protect → yields ∨ u.powerPeriod.isSome → SameButReservations (put (fun x => { x with committing := false, tornNext := false })) t)
    ∧ (goesOn → y.kind = .write →
        (ClaimStands u y.slot y.channel y.token →
          SameButReservations
            { put (fun x => { x with committing := true, tornNext := false }) with
              seq := begun { Access.begin (.posted y.order) .writeRun (some y.cls) y.verify (some y.slot) y.base m (m + len) y.size with
                tornResume := y.tornNext } u.seq } t)
          ∧ (¬ ClaimStands u y.slot y.channel y.token → SameButReservations (postedFaulted y .claimLost u) t))
    ∧ (∀ f, goesOn → y.kind = .append → u.fill y.slot = some f → f.mark < y.size →
        SameButReservations
          { put (fun x => { x with committing := true, tornNext := false, first := some (x.first.getD f.mark) }) with
            seq := begun (Access.begin (.posted y.order) .appendRun (some y.cls) y.verify (some y.slot) y.base f.mark
              ((f.mark / 24 + 1) * 24) y.size) u.seq } t)

/-! ## Words for claims: stops that wait in a run -/

/-- A PROTECT stop waits in an access; it is taken before a POWER stop that waits there too (R146). -/
abbrev ProtectWaits (a : Access) : Prop := .protect ∈ a.stops ∧ .cut ∉ a.stops

/-- A POWER stop waits in an access, and none of PROTECT (R144). -/
abbrev PowerWaits (a : Access) : Prop := .power ∈ a.stops ∧ .protect ∉ a.stops ∧ .cut ∉ a.stops

/-- No stop waits in an access: no line's, nor that of an expired drain timer. -/
abbrev Unstopped (a : Access) (s : State) : Prop := a.stops = [] ∧ s.volume.drainExpired = false

/-- A stop that waited in a write's run has been taken, sectors of the entry remaining: `y` is the entry with its sectors credited, `u` the
state with the run's access ended, `t` what the step leaves. Under PROTECT the entry ends WRITE-PROTECTED, under POWER it is PARKED, its
sectors done kept (R144, R146). PROTECT that is active waits as a stop in every write in progress (R146), so with none of it waiting it is
inactive. -/
def EntryStopped (a : Access) (y : Entry) (u t : State) : Prop :=
  (ProtectWaits a → SameButReservations (entryEnded y .writeProtected u) t)
    ∧ (PowerWaits a → u.ownerActive .protect = false →
        SameButReservations
          { u with work := u.work.map (fun x => if x.order = y.order then
              { x with state := .parked, run := none, allocated := 0, tornNext := false } else x) } t)

/-- The same of a commit run, with no FLUSH watching (R103, R144, R146): the posted write faults WRITE-PROTECTED, or is PENDING again, its
sectors committed kept. -/
def PostedStopped (a : Access) (y : Posted) (u t : State) : Prop :=
  (ProtectWaits a → SameButReservations (postedFaulted y .writeProtected u) t)
    ∧ (PowerWaits a → u.ownerActive .protect = false →
        SameButReservations
          { u with posted := u.posted.map (fun x => if x.order = y.order then { x with committing := false, tornNext := false } else x) } t)

/-- The volume is DRAINING and its drain timer has expired; no line's stop waits in the access (R158). -/
abbrev DrainWaits (a : Access) (s : State) : Prop := a.stops = [] ∧ s.volume.state = .draining ∧ s.volume.drainExpired = true

/-- The same of a write access: PROTECT, which would wait as a stop in it if it were active (R146), is inactive. -/
abbrev DrainWaitsInWrite (a : Access) (s : State) : Prop := DrainWaits a s ∧ s.ownerActive .protect = false

/-- The volume work has ended and the drain with it (R157, R158): the live entries VOLUME-GONE, the posted writes faulted, a sweep that was
ending its halt ended, no access in progress, and STORING or RELEASING entered. -/
def DrainEnded (u t : State) : Prop :=
  WorkGone u t ∧ PostedGone u t ∧ (∀ e ∈ t.work, e.live = false) ∧ t.sweep = none ∧ t.seq.access = none
    ∧ t.volume = { u.volume with
        drainTimer := none, drainExpired := false
        state := if u.volume.mapModified = true ∧ u.settings.storeOnUnload = true ∧ u.volume.label = some .valid then .storing
          else .releasing }

/-! ## Words for claims: the map -/

/-- A slot is busy for a MAP-LOAD from a channel (R30): named by a live entry, by a posted write or by a sweep, being cleared, or claimed by
the other channel. -/
def SlotBusy (s : State) (ch : Channel) (k : Slot) : Prop :=
  (∃ e ∈ s.work, e.slot = some k ∧ (e.state = .queued ∨ e.state = .active ∨ e.state = .parked))
    ∨ (∃ p ∈ s.posted, p.slot = k) ∨ (∃ x, s.extent k = some x ∧ x.clearing = true)
    ∨ (∃ sw, s.sweep = some sw ∧ ∃ it ∈ sw.items, it.slot = k) ∨ (s.claim (.extent k)).holder = some ch.other

/-- Under the changes of a MAP-LOAD two slots would hold definitions that share a cylinder (R12, R29). -/
def MapShares (s : State) (gs : List (Slot × Option Definition)) : Prop :=
  let holds (k : Slot) (d : Definition) : Prop :=
    (k, some d) ∈ gs ∨ ((∀ g ∈ gs, g.1 ≠ k) ∧ ∃ x, s.extent k = some x ∧ x.defn = d)
  ∃ j k d e, j ≠ k ∧ holds j d ∧ holds k e ∧ d.first ≤ e.last ∧ e.first ≤ d.last

/-! ## Words for claims: failures, cuts, the label -/

/-- The header state that an access writes on its sector (R5): VOID for a marking, BLANK for a clearing step, else WRITTEN. -/
def writtenState (a : Access) : HeaderState :=
  if a.pass = .marking then .void else if a.kind = .clearStep then .blank else .written

/-- The medium after a cut (R9, R133): a HEADER phase leaves its sector's header torn and the data field as it was, a DATA phase a whole
header over a torn data field; in every other phase nothing changes. -/
def cutMedium (s : State) : List (Nat × SectorRecord) :=
  match s.seq.access, s.seq.phase with
  | some a, .header =>
    if placeOf a < 7680 then
      mediumSet (placeOf a)
        { header := .torn, data := match mediumAt s.medium (placeOf a) with | some r => r.data | none => .untouched } s.medium
    else s.medium
  | some a, .data =>
    if placeOf a < 7680 then
      mediumSet (placeOf a) { header := .whole (headerOn (placeOf a) (writtenState a)), data := .torn } s.medium
    else s.medium
  | _, _ => s.medium

/-- Whether a defect list entry is of the access's sector (R134). -/
def atSector (a : Access) (d : Defect) : Bool :=
  decide (d.cylinder = a.base + a.sector / 24 ∧ d.head = a.sector % 24 / 12 ∧ d.sector = a.sector % 12)

/-- The access's sector, failed, in the defect list (R135): not for cylinder 0, and above 319 there is none (R1); a listed one takes the
cause and counts on; another is the list's youngest, or, with 16 listed, sets the overflow flag. -/
def defectRecorded (a : Access) (cause : DefectCause) (clock : Millis) (q : Sequencer) : Sequencer :=
  if a.base + a.sector / 24 = 0 ∨ 319 < a.base + a.sector / 24 then q
  else if q.defects.any (atSector a) = true then
    { q with defects := q.defects.map (fun d => if atSector a d = true then { d with cause := cause, count := min 255 (d.count + 1) } else d) }
  else if q.defects.length < 16 then
    { q with defects := q.defects ++
        [{ cylinder := a.base + a.sector / 24, head := a.sector % 24 / 12, sector := a.sector % 12, cause := cause, firstSeen := clock,
           count := 1 }] }
  else { q with overflow := true }

/-- The access's sector off the defect list (R136). -/
def defectRemoved (a : Access) (q : Sequencer) : Sequencer := { q with defects := q.defects.filter (fun d => !atSector a d) }

/-- The consecutive mismatches after a header was read (R122): cleared by a right address, one more at a wrong one, as they were when the
header is unreadable. -/
def headerSeen (a : Access) (h : HeaderImage) (q : Sequencer) : Sequencer :=
  { q with mismatches := if AddressRight a h then 0 else if AddressWrong a h then min 2 (q.mismatches + 1) else q.mismatches }

/-- The label contents built from the state, with a serial (R10). -/
def labelOf (serial : BitVec 32) (s : State) : Label :=
  { version := 1, serial := serial, map := s.extents.map (fun e => e.map (fun x => x.defn.raw))
    defects := s.seq.defects.map (fun d =>
      { cylinder := d.cylinder, head := d.head, sector := d.sector, cause := d.cause.code, firstSeen := d.firstSeen, count := d.count })
    marker := true }

/-- Conditions 3 to 7 of R11 on a label's contents. -/
def LabelLawful (l : Label) : Prop :=
  l.marker = true ∧ l.version = 1
    ∧ (∀ k raw, l.map.get k = some raw → (wellFormedDefinition raw).isSome)
    ∧ (∀ j k d e, j ≠ k → (l.map.get j).bind wellFormedDefinition = some d → (l.map.get k).bind wellFormedDefinition = some e →
        d.last < e.first ∨ e.last < d.first)
    ∧ l.defects.length ≤ 16
    ∧ (∀ d ∈ l.defects, 1 ≤ d.cylinder ∧ d.cylinder ≤ 319 ∧ d.head ≤ 1 ∧ d.sector ≤ 11 ∧ d.cause ≤ 2 ∧ 1 ≤ d.count ∧ d.count ≤ 255)
    ∧ (l.defects.map (fun d => (d.cylinder, d.head, d.sector))).Nodup

/-- A mount has completed (R153, R34): MOUNTED, the map-modified flag clear, the extent claims NONE/0, VOLUME-CHANGE at both ports. -/
def mounted (s : State) : State :=
  let mark (p : Port) : Port := { p with events := p.events ||| EventKind.volumeChange.bit }
  { s with
    volume := { s.volume with state := .mounted, mapModified := false, mount := .none }
    extClaims := Vector.replicate 32 { holder := none, token := 0, lease := 0, remaining := 0 }
    ports := { a := mark s.ports.a, b := mark s.ports.b } }

/-- The fill search stands at an extent between two bounds, and its next probe has begun, in the middle of them (R152). -/
def probing (k : Slot) (d : Definition) (lo hi : Nat) (s : State) : State :=
  { s with
    volume := { s.volume with mount := .search k lo hi }
    seq := begun (Access.begin .volume .probe none false (some k) d.first ((lo + hi) / 2) ((lo + hi) / 2 + 1)
      ((d.last - d.first + 1) * 24)) s.seq }

/-- The fill search goes on from a slot number (R152, R153): at the first APPEND extent from there, between 0 and its size; with none, the
mount has completed. -/
def searchOn (i : Nat) (s : State) : State :=
  match (List.finRange 32).find? (fun k => decide (i ≤ k.val) && (s.extent k).any (fun e => e.defn.kind == .append)) with
  | some k => match s.extent k with | some e => probing k e.defn 0 ((e.defn.last - e.defn.first + 1) * 24) s | none => s
  | none => mounted s

/-- The ports after a departure (R49, R155): nothing but events, replies and the stage has changed. VOLUME-CHANGE is set, with SWEEP-END when
a sweep ended and POSTED-FAULT at a channel whose posted write faulted; no reply has left; a waiting READ, WRITE, APPEND or, under the
controller claim, MAP-STORE is answered NOT-MOUNTED, a waiting FLUSH DONE. -/
def PortsDeparted (s t : State) : Prop :=
  ∀ ch, let p := s.port ch; let q := t.port ch
    q = { p with events := q.events, queue := q.queue, due := q.due, stage := q.stage }
      ∧ q.events = p.events ||| EventKind.volumeChange.bit ||| (if s.sweep.isSome then EventKind.sweepEnd.bit else 0)
          ||| (if s.posted.any (fun x => decide (x.channel = ch)) then EventKind.postedFault.bit else 0)
      ∧ (∃ more, q.queue = p.queue ++ more)
      ∧ ∀ r due, p.stage = .waiting r due → s.tagInUse ch r.tag = false → r.tag ≠ 255 → formFails ch r = false →
          let answered : Code → Prop := fun code => ∃ c, c.tag = r.tag ∧ c.outcome = code
            ∧ (q.stage = .reply (.completion c) ∨ .completion c ∈ q.queue)
          (r.kind = .read ∨ r.kind = .write ∨ r.kind = .append ∨ (r.kind = .mapStore ∧ s.ctlClaim.holder = some ch) →
              answered .notMounted)
            ∧ (r.kind = .flush → answered .done)

/-- The volume has departed (R155): the table, the extent claims and the defect list emptied, no work, posted write or sweep of the volume
left, the volume ABSENT with its generation kept, the medium with the tear of a cut, the ports told; settings, the controller claim, the
clock and the elevator untouched. -/
def Departed (s t : State) : Prop :=
  t = { s with ports := t.ports, logs := t.logs, extents := Vector.replicate 32 none,
               extClaims := Vector.replicate 32 ClaimRecord.free, work := t.work, posted := [], nextOrder := t.nextOrder, seq := t.seq,
               ctlBuffer := .free,
               volume := { state := .absent, generation := s.volume.generation, label := none, serial := none, mapModified := false,
                           drainTimer := none, mount := .none, drainExpired := false },
               sweep := none, sweepSeen := s.sweepSeen || s.sweep.isSome, medium := cutMedium s }
    ∧ t.seq.access = none ∧ t.seq.gate = false ∧ t.seq.phase = .none ∧ t.seq.defects = [] ∧ t.seq.overflow = false
    ∧ (∀ e ∈ t.work, e.live = false) ∧ PortsDeparted s t

end Sys2Proof.Safety
end

