-- ==== Sys2Proof/Certificates/Slice0/Obligations.lean ====
section
/-! DEFINITION. The statements for the provers: one definition for each claim about the controller. -/

open Sys2Proof Sys2Proof.Machine Sys2Proof.Safety

/-! ## The machine as a whole -/

/-- A step takes the command at the front of the queue and runs it on the state with the queue's rest; with an empty queue it idles (the
idling is the model's choice: log 2). -/
def Obligations.StepRunsTheFrontCommand : Prop :=
  (∀ (s : State) (c : Instr) (rest : List Instr), s.pending = c :: rest → step s = exec c { s with pending := rest })
    ∧ ∀ s : State, s.pending = [] → step s = .next s

/-- Every command, in every state, answers a next state that leaves the queue of waiting commands alone: no command faults or is refused
(log 1). -/
def Obligations.EveryCommandAnswersNext : Prop :=
  ∀ (c : Instr) (s : State), ∃ t, exec c s = .next t ∧ t.pending = s.pending

/-- What reset leaves: ports idle and empty under the default context, logs empty, default settings, no extent, no claim, no work,
the elevator INWARD, no cartridge and the arm, counter and target unknown, no volume, generation 0, no sweep, the clock at 0.
Every law of the tables holds at reset. That the reported lines are taken INACTIVE there, so that no cartridge is ready and no period
of POWER activity runs, is the model's choice (log 4), as are the RESET lines inactive (log 21). -/
def Obligations.ResetLeavesEverythingEmptyAndLawful : Prop :=
  (let s := State.reset
   (∀ ch, s.port ch = { receiver := .idle, stage := .empty, queue := [], due := [], outTaken := 0, events := 0, changed := 0,
                        context := { expectedGen := 0, span := none, verify := false, attnMask := 0, attnDelay := 0, lineMask := 0 },
                        attnTimer := none, resetActive := false })
     ∧ (∀ ch, s.logs.get ch = { entries := [], overflow := 0 })
     ∧ s.settings.row .urgent = { deadline := 250, lateAction := .mark, readRetries := 2, writeRetries := 2, yields := false }
     ∧ s.settings.row .setup = { deadline := 800, lateAction := .abandon, readRetries := 4, writeRetries := 2, yields := true }
     ∧ s.settings.row .log = { deadline := 2000, lateAction := .mark, readRetries := 4, writeRetries := 2, yields := true }
     ∧ s.settings.row .bulk = { deadline := 0, lateAction := .mark, readRetries := 4, writeRetries := 2, yields := true }
     ∧ s.settings.quotaA = 12 ∧ s.settings.quotaB = 12 ∧ s.settings.drainTimeout = 8000 ∧ s.settings.storeOnUnload = false
     ∧ s.settings.powerMode = .sectorEnd
     ∧ (∀ k, s.extent k = none) ∧ (∀ t, s.claim t = { holder := none, token := 0, lease := 0, remaining := 0 })
     ∧ s.work = [] ∧ s.posted = [] ∧ s.direction = .inward
     ∧ s.seq.state = .noCartridge ∧ s.seq.cylinder = none ∧ s.seq.counter = none ∧ s.seq.target = none ∧ s.seq.gate = false
     ∧ s.seq.phase = .none ∧ s.seq.seekTimeouts = 0 ∧ s.seq.mismatches = 0 ∧ s.seq.access = none ∧ s.seq.defects = []
     ∧ s.seq.overflow = false ∧ s.ctlBuffer = .free
     ∧ s.volume.state = .absent ∧ s.volume.generation = 0 ∧ s.volume.label = none ∧ s.volume.serial = none
     ∧ s.volume.mapModified = false ∧ s.volume.drainTimer = none
     ∧ s.sweep = none ∧ s.sweepPhase = .none ∧ s.clock = 0 ∧ s.levels = 0 ∧ s.acted = 0 ∧ s.powerPeriod = none
     ∧ s.powerTaken = none ∧ s.powerOwed = [] ∧ s.powerEarly = 0)
    ∧ (ClaimsLawful State.reset ∧ RepliesLawful State.reset ∧ GateLawful State.reset ∧ WorkLawful State.reset ∧ OrdersLawful State.reset
         ∧ PostedLawful State.reset ∧ DefectsLawful State.reset ∧ SettingsLawful State.reset ∧ PowerLawful State.reset
         ∧ ExtentsLawful State.reset ∧ MediumLawful State.reset ∧ BuffersLawful State.reset ∧ RunsLawful State.reset)

/-! ## The laws, kept by every step -/

/-- Every step keeps the law of the claim records (R33). Every step keeps the law of the extent table: well-formed extents, fill fields for
APPEND extents alone, no shared cylinder (R12, R14, R21). -/
def Obligations.StepKeepsClaimsAndExtentsLawful : Prop :=
  (∀ s t : State, ClaimsLawful s → step s = .next t → ClaimsLawful t)
    ∧ (∀ s t : State, ExtentsLawful s → step s = .next t → ExtentsLawful t)

/-- Every step keeps the law of the reply queues and due lists (R177). -/
def Obligations.StepKeepsRepliesLawful : Prop :=
  ∀ s t : State, RepliesLawful s → step s = .next t → RepliesLawful t

/-- Every step keeps the law of the write gate (R121). Every step keeps the settings in the ranges of R65 and R66. After every step a
write hold is in force exactly while POWER is ACTIVE (R143). -/
def Obligations.StepKeepsGateSettingsAndPowerLawful : Prop :=
  (∀ s t : State, GateLawful s → step s = .next t → GateLawful t)
    ∧ (∀ s t : State, SettingsLawful s → step s = .next t → SettingsLawful t)
    ∧ (∀ s t : State, PowerLawful s → step s = .next t → PowerLawful t)

/-- Every step keeps the capacities of the work list, the posted list and the posted fault logs (R71, R103, R106). Every step keeps
the admission orders distinct and in the past (R50). -/
def Obligations.StepKeepsCapacitiesAndOrders : Prop :=
  (∀ s t : State, WorkLawful s → PostedLawful s → step s = .next t → WorkLawful t ∧ PostedLawful t)
    ∧ (∀ s t : State, OrdersLawful s → step s = .next t → OrdersLawful t)

/-- Every step keeps the law of the defect list (R134, R135). Every step keeps the record of the medium lawful: in its one form (R2), every
whole header with its sector's own address and its check word, every whole data field with its check word (R5, R6). That the
record is kept is the model's choice (log 7), as are the words and bit order of the checks (log 5). -/
def Obligations.StepKeepsDefectsAndMediumLawful : Prop :=
  (∀ s t : State, DefectsLawful s → step s = .next t → DefectsLawful t)
    ∧ (∀ s t : State, MediumLawful s → step s = .next t → MediumLawful t)

/-- The law of the buffer pool (R96), as a step lemma: whatever the step, the buffers held for each channel, reservations included, do not
exceed its quota, and both channels together hold no more than 24. It rests on the laws of the due lists, of the access and the run in
progress and of the READs that wait (R4, R98, R115, R144 to R146, R177), which every step keeps too, on distinct admission orders (R50) and
on settings in range (R65, R66). -/
def Obligations.StepKeepsBuffersLawful : Prop :=
  ∀ s t : State, OrdersLawful s → SettingsLawful s → RunsLawful s → BuffersLawful s → step s = .next t →
    RunsLawful t ∧ BuffersLawful t ∧ heldBuffers .A t + heldBuffers .B t ≤ 24

/-! ## Resets and the clock -/

/-- POWER_ON_RESET (R137): everything is at its reset value under the sampled lines, which the blocks that act on them take too; the RESET
lines keep their levels (log 21), and the medium keeps what it held with the tear of a sector write cut by the reset (R9; that
a record of the medium is kept at all is log 7). With READY sampled INACTIVE the volume is ABSENT; with READY sampled ACTIVE a
mount begins, its generation 1 and a RESTORE issued, unless FAULT is sampled ACTIVE, when the sequencer is UNSAFE with
FAULT-CLEAR issued (R113, R150); the record of the medium stands then too, and begins anew only with a mount that READY becoming
ACTIVE begins (log 7). -/
def Obligations.PowerOnReset : Prop :=
  ∀ (levels : LineSet) (s : State),
    let u : State :=
      { State.reset with
        ports := { a := { Port.reset with resetActive := (s.port .A).resetActive }
                   b := { Port.reset with resetActive := (s.port .B).resetActive } }
        levels := levels
        acted := levels
        powerPeriod := if hasLine levels .power then some .sectorEnd else none
        powerTaken := if hasLine levels .power then some .sectorEnd else none
        medium := cutMedium s
        pending := s.pending
        takers := s.takers }
    (hasLine levels .ready = false → exec (.powerOnReset levels) s = .next u)
      ∧ (hasLine levels .ready = true →
          exec (.powerOnReset levels) s = .next
            { u with
              volume := { u.volume with state := .mounting, generation := 1, mount := .restore }
              seq := if hasLine levels .fault then { u.seq with state := .notSafe, faultTimer := some 2000 }
                     else { u.seq with state := .restoring, restoreTimer := some 600 } })

/-- CHANNEL_RESET (R184, R92, R174): RESET becoming active empties the channel's port, context and events; removes the channel's
QUEUED, WATCHING and FINISHED entries and puts the discard mark on its ACTIVE and PARKED ones; marks the sweep it opened; and
leaves the other channel's entries, the posted writes, claims, extents' definitions, settings, the clock and the drive as they
are. RESET_RELEASE (R184): RESET becoming inactive leaves the port idle, and nothing else changes. -/
def Obligations.ChannelResetAndRelease : Prop :=
  (∀ (ch : Channel) (s : State), (s.port ch).resetActive = false → RepliesLawful s → OrdersLawful s → s.volume.state = .mounted →
     ∃ t, exec (.channelReset ch) s = .next t
       ∧ t.port ch = { receiver := .idle, stage := .empty, queue := [], due := [], outTaken := 0, events := 0, changed := 0,
                       context := Context.default, attnTimer := none, resetActive := true }
       ∧ t.port ch.other =
           (if s.work.any (fun e => decide (e.channel = ch ∧ e.state ≠ .active ∧ e.state ≠ .parked)) then dueAgain (s.port ch.other)
            else s.port ch.other)
       ∧ t.work.map bareEntry = ((s.work.filter (fun e => e.channel ≠ ch ∨ e.state = .active ∨ e.state = .parked)).map
           (fun e => if e.channel = ch then { e with discard := true } else e)).map bareEntry
       ∧ (∀ k, t.extent k = (s.extent k).map (fun x => { x with fill := x.fill.map (fun f => { f with
           pending := f.pending - ((s.work.filter (fun e => e.channel = ch ∧ e.state = .queued ∧ e.kind = .append
             ∧ e.slot = some k)).map (fun e => e.count - e.done)).sum }) }))
       ∧ t = { s with ports := t.ports, work := t.work, extents := t.extents,
                      sweep := s.sweep.map (fun sw => if sw.channel = ch then { sw with discard := true } else sw) })
    ∧ (∀ (ch : Channel) (s : State), (s.port ch).resetActive = true →
         exec (.resetRelease ch) s = .next (s.updPort ch (fun p => { p with resetActive := false, receiver := .idle })))

/-- CLOCK_TICK (R94, R95): the clock steps to the next millisecond, from its last value to 0, and each timer that runs counts down by
one: leases, QUEUED deadlines, the collection window, the drain, attention delay, seek, restore and FAULT persistence timers. That
the timers step with the clock is the model's choice (log 3). -/
def Obligations.ClockTick : Prop :=
  ∀ s : State,
    let down : Option Nat → Option Nat := fun t => t.map (fun n => n - 1)
    let lease : ClaimRecord → ClaimRecord := fun c => if c.lease = 0 then c else { c with remaining := c.remaining - 1 }
    exec .clockTick s = .next
      { s with
        clock := s.clock + 1
        ports := { a := { s.ports.a with attnTimer := down s.ports.a.attnTimer }
                   b := { s.ports.b with attnTimer := down s.ports.b.attnTimer } }
        ctlClaim := lease s.ctlClaim
        extClaims := s.extClaims.map lease
        work := s.work.map (fun e => if e.state = .queued then { e with deadline := down e.deadline } else e)
        sweep := s.sweep.map (fun sw => { sw with window := down sw.window })
        volume := { s.volume with drainTimer := down s.volume.drainTimer }
        seq := { s.seq with seekTimer := down s.seq.seekTimer, restoreTimer := down s.seq.restoreTimer,
                            faultTimer := down s.seq.faultTimer } }

/-! ## The channel paths -/

/-- INBOUND_WORD, the header word (R175, R176, R185): a word offered to an idle port with its stage empty begins a frame of the kind
its high byte codes, with its low byte as the tag; a kind byte of no request kind is answered by a LINK-REJECT of reason KIND
with that tag, and the words that follow are dropped. The path is held (R97, R175, R184): no word is taken while the channel's
RESET is active, while an idle port's stage is not empty, or while a frame waits for its reservation; and the words after a
frame are dropped.
INBOUND_WORD, a frame's length and check words (R175, R176): a length of up to 2,080 is kept and a greater one answered by a
LINK-REJECT of reason LENGTH; the check word that agrees makes the frame a request in the stage, with the buffers it holds, and any
other is answered by a LINK-REJECT of reason CHECK with tag 255. After either the further words of the frame are dropped. -/
def Obligations.InboundHeaderLengthAndCheckWords : Prop :=
  ((∀ (ch : Channel) (w : Word) (s : State), (s.port ch).resetActive = false → (s.port ch).receiver = .idle →
      (s.port ch).stage = .empty → RepliesLawful s →
      (∀ k, ReqKind.ofCode (w.toNat / 256) = some k →
        exec (.inboundWord ch w) s = .next (s.updPort ch (fun p => { p with
          receiver := .receiving { kind := k, tag := w.toNat % 256, taken := 1, length := none, body := [], check := crc [w],
                                   reservation := .none, reserved := 0, buffers := [], filling := [] } })))
        ∧ (ReqKind.ofCode (w.toNat / 256) = none →
            ∃ t, exec (.inboundWord ch w) s = .next t
              ∧ SameButReservations
                  (replied ch (.linkReject (w.toNat % 256) .kind 1) (s.updPort ch (fun p => { p with receiver := .dropping }))) t))
     ∧ (∀ (ch : Channel) (w : Word) (s : State),
          ((s.port ch).resetActive = true ∨ ((s.port ch).receiver = .idle ∧ (s.port ch).stage ≠ .empty) ∨ (s.port ch).receiver = .dropping
            ∨ ∃ f n, (s.port ch).receiver = .receiving f ∧ f.reservation = .wanted n) →
          exec (.inboundWord ch w) s = .next s))
    ∧ (∀ (ch : Channel) (w : Word) (f : Frame) (s : State), (s.port ch).resetActive = false → (s.port ch).receiver = .receiving f →
         (∀ n, f.reservation ≠ .wanted n) → RepliesLawful s →
         (f.length = none → w.toNat ≤ 2080 →
           exec (.inboundWord ch w) s = .next (s.updPort ch (fun p => { p with
             receiver := .receiving { f with taken := f.taken + 1, check := crcWord f.check w, length := some w.toNat } })))
           ∧ (f.length = none → w.toNat > 2080 →
               ∃ t, exec (.inboundWord ch w) s = .next t
                 ∧ SameButReservations (replied ch (.linkReject f.tag .length (f.taken + 1))
                     (s.updPort ch (fun p => { p with receiver := .dropping }))) t)
           ∧ (∀ n, f.length = some n → n + 2 ≤ f.taken → w = f.check →
               exec (.inboundWord ch w) s = .next (s.updPort ch (fun p => { p with
                 receiver := .dropping
                 stage := .request { kind := f.kind, tag := f.tag, length := n, body := f.body, buffers := f.buffers,
                                     reserved := f.reserved + (if f.filling = [] then 0 else 1) } })))
           ∧ (∀ n, f.length = some n → n + 2 ≤ f.taken → w ≠ f.check →
               ∃ t, exec (.inboundWord ch w) s = .next t
                 ∧ SameButReservations (replied ch (.linkReject 255 .check (f.taken + 1))
                     (s.updPort ch (fun p => { p with receiver := .dropping }))) t))

/-- INBOUND_WORD, a frame's body words other than sector data (R97, R175): each is kept in order; the second one of a WRITE or
APPEND is its count, and a count of 1 to 8 is reserved at once when the unused quota covers it and wanted otherwise (log 10),
any other count reserving nothing. INBOUND_WORD, the data words of a WRITE or APPEND (R97, R101): the first of a sector turns a
reserved buffer into a write data buffer, the next fill it, the 256th completes it with the check span inserted, and a word for
which no reserved buffer is left is dropped. -/
def Obligations.InboundBodyAndDataWords : Prop :=
  (∀ (ch : Channel) (w : Word) (f : Frame) (n : Nat) (s : State), (s.port ch).resetActive = false →
     (s.port ch).receiver = .receiving f → (∀ n, f.reservation ≠ .wanted n) → f.length = some n → 2 ≤ f.taken → f.taken < n + 2 →
     ((f.kind ≠ .write ∧ f.kind ≠ .append) ∨ f.taken = 2 ∨ (f.kind = .write ∧ f.taken = 4)
         ∨ (f.taken = 3 ∧ ¬ (1 ≤ w.toNat ∧ w.toNat ≤ 8)) →
       exec (.inboundWord ch w) s = .next (s.updPort ch (fun p => { p with
         receiver := .receiving { f with taken := f.taken + 1, check := crcWord f.check w, body := f.body ++ [w] } })))
       ∧ (f.kind = .write ∨ f.kind = .append → f.taken = 3 → 1 ≤ w.toNat → w.toNat ≤ 8 →
           exec (.inboundWord ch w) s = .next (s.updPort ch (fun p => { p with
             receiver := .receiving { f with
               taken := 4, check := crcWord f.check w, body := f.body ++ [w]
               reservation := if w.toNat ≤ s.unused ch then .made w.toNat else .wanted w.toNat
               reserved := if w.toNat ≤ s.unused ch then w.toNat else f.reserved } }))))
    ∧ (∀ (ch : Channel) (w : Word) (f : Frame) (n : Nat) (s : State), (s.port ch).resetActive = false →
         (s.port ch).receiver = .receiving f → (∀ n, f.reservation ≠ .wanted n) → f.length = some n → f.taken < n + 2 →
         ((f.kind = .write ∧ 5 ≤ f.taken) ∨ (f.kind = .append ∧ 4 ≤ f.taken)) → f.filling.length ≤ 255 →
         let taken := { f with taken := f.taken + 1, check := crcWord f.check w }
         exec (.inboundWord ch w) s = .next (s.updPort ch (fun p => { p with
           receiver := .receiving
             (if f.filling = [] then
               (if f.reserved = 0 then taken else { taken with reserved := f.reserved - 1, filling := [w] })
             else if f.filling.length < 255 then { taken with filling := f.filling ++ [w] }
             else { taken with
               filling := [], buffers := f.buffers ++ [insertSpan (s.port ch).context.span (f.filling ++ [w])] }) })))

/-- RESERVATION_MADE (R97): once the unused quota covers the count, all of the buffers are reserved at once, and nothing else
changes; before that nothing is reserved. FRAME_EARLY_END and FRAME_INACTIVE (R175, R176): a frame ended early is discarded with
a LINK-REJECT of reason LENGTH carrying its tag and the words taken, its buffers released; FRAME falling after a frame has ended
leaves the port ready for the next one. -/
def Obligations.ReservationAndFrameEnds : Prop :=
  (∀ (ch : Channel) (f : Frame) (n : Nat) (s : State), (s.port ch).receiver = .receiving f → f.reservation = .wanted n →
     (n ≤ s.unused ch → exec (.reservationMade ch) s = .next (s.updPort ch (fun p => { p with
         receiver := .receiving { f with reservation := .made n, reserved := n } })))
       ∧ (s.unused ch < n → exec (.reservationMade ch) s = .next s))
    ∧ ((∀ (ch : Channel) (f : Frame) (s : State), (s.port ch).receiver = .receiving f → RepliesLawful s →
         ∃ t, exec (.frameEarlyEnd ch) s = .next t
           ∧ SameButReservations (replied ch (.linkReject f.tag .length f.taken) (s.updPort ch (fun p => { p with receiver := .idle }))) t)
         ∧ ∀ (ch : Channel) (s : State), (s.port ch).receiver = .dropping →
             exec (.frameInactive ch) s = .next (s.updPort ch (fun p => { p with receiver := .idle })))

/-- OUTBOUND_WORD_TAKEN (R178, R180): the next word is counted; with the reply's last word the reply leaves the queue and is
delivered: REPLY-DELIVERED is set at once, the timer stopped, for a LINK-REJECT and for an outcome other than DONE and POSTED,
set at once for an attention delay of 0, and otherwise the attention delay timer is started afresh. OUTBOUND_WORD_TAKEN with
replies due (R177): the place that the delivered reply frees goes to the oldest due reply, the stage's, which leaves the stage
empty, a FINISHED entry's, which leaves the work list, or that of a sweep's opening request (R174). The words offered are those of the
oldest reply's frame, in order (R178): header, length, body and check word (R185), the body laid out by R186 and R187; none while the queue
is empty or RESET is active (R184), when no word is taken. The codes of the label state and the sweep phase in a status record, and a level
as a word of its own, are log 12; that the word count alone stands for outbound FRAME is log 40. -/
def Obligations.OutboundWordTaken : Prop :=
  (∀ (ch : Channel) (s : State),
     ((s.port ch).resetActive = true ∨ (s.port ch).queue = [] →
       (s.port ch).offered = none ∧ exec (.outboundWordTaken ch) s = .next s)
       ∧ ∀ r rest, (s.port ch).resetActive = false → (s.port ch).queue = r :: rest →
           (s.port ch).offered = (replyFrame r)[(s.port ch).outTaken]?)
    ∧ (∀ (ch : Channel) (r : Reply) (rest : List Reply) (s : State), (s.port ch).resetActive = false → (s.port ch).queue = r :: rest →
     ((s.port ch).outTaken + 1 < (replyFrame r).length →
       exec (.outboundWordTaken ch) s = .next (s.updPort ch (fun p => { p with outTaken := p.outTaken + 1 })))
       ∧ ((s.port ch).outTaken + 1 ≥ (replyFrame r).length → RepliesLawful s → (s.port ch).due = [] → s.volume.state = .mounted →
           ∃ t, exec (.outboundWordTaken ch) s = .next t
             ∧ SameButReservations
                 (s.updPort ch (fun p =>
                   let alarm : Bool := match r with | .linkReject _ _ _ => true | .completion c => decide (c.outcome ≠ .done ∧ c.outcome ≠ .posted)
                   { p with
                     queue := rest, outTaken := 0
                     events := if alarm = true ∨ p.context.attnDelay = 0 then p.events ||| 1 else p.events
                     attnTimer := if alarm = true then none
                       else if p.context.attnDelay = 0 then p.attnTimer else some p.context.attnDelay })) t))
    ∧ (∀ (ch : Channel) (r : Reply) (rest : List Reply) (ds : List Due) (s : State), (s.port ch).resetActive = false →
         (s.port ch).queue = r :: rest → (s.port ch).outTaken + 1 ≥ (replyFrame r).length → RepliesLawful s → OrdersLawful s →
         s.volume.state = .mounted →
         (∀ q, (s.port ch).due = .stage :: ds → (s.port ch).stage = .reply q →
           ∃ t, exec (.outboundWordTaken ch) s = .next t ∧ (t.port ch).queue = rest ++ [q] ∧ (t.port ch).stage = .empty
             ∧ (t.port ch).due = ds ∧ t.work.map bareEntry = s.work.map bareEntry
             ∧ t = { s with ports := t.ports, work := t.work })
           ∧ (∀ e ∈ s.work, (s.port ch).due = .entry e.order :: ds → ∀ code, e.outcome = some code →
               ∃ t, exec (.outboundWordTaken ch) s = .next t ∧ (t.port ch).queue = rest ++ [.completion (endingOf e code)]
                 ∧ (t.port ch).due = ds
                 ∧ t.work.map bareEntry = (s.work.filter (fun x => x.order ≠ e.order)).map bareEntry
                 ∧ t = { s with ports := t.ports, work := t.work })
           ∧ (∀ c, (s.port ch).due = .sweep c :: ds →
               ∃ t, exec (.outboundWordTaken ch) s = .next t ∧ (t.port ch).queue = rest ++ [.completion c]
                 ∧ (t.port ch).stage = (s.port ch).stage ∧ (t.port ch).due = ds ∧ t.port ch.other = s.port ch.other
                 ∧ t.work.map bareEntry = s.work.map bareEntry
                 ∧ t = { s with ports := t.ports, work := t.work }))

/-- ATTENTION_DELAY_EXPIRY (R180): the timer stops and REPLY-DELIVERED is set; nothing else changes. LEASE_EXPIRY (R37, R38): a
record whose lease has run out becomes NONE/0 with lease 0, and CLAIM-CHANGE is set at both ports; a record whose lease has not
run out, or that has none, stands. COLLECTION_WINDOW_EXPIRY (R166): the sweep is RUNNING, its list closed, its first item
current; nothing else changes. ATTENTION (R179): a port's line is active exactly while its event set and the attention mask of its standing
context share a kind, the kinds being bits 0 to 6 in R179's order (R185); so it follows in the step a kind set by the delay's expiry, kinds
that an EVENT-ACK removes (R181), the mask that a CONTEXT loads (R64), and a channel's reset, which leaves it inactive (R184). -/
def Obligations.AttentionLeaseAndWindowExpiry : Prop :=
  (let shared (events mask : EventSet) : Prop := ∃ i, i < 7 ∧ events.getLsbD i = true ∧ mask.getLsbD i = true
   (∀ p : Port, p.attention = true ↔ shared p.events p.context.attnMask)
     ∧ (∀ (k : EventKind) (es : EventSet), hasEvent es k = es.getLsbD
         ([EventKind.replyDelivered, .postedFault, .volumeChange, .claimChange, .sweepEnd, .lineChange, .late].idxOf k))
     ∧ (∀ (ch : Channel) (s : State), (s.port ch).attnTimer = some 0 →
         ∃ t, exec (.attentionDelayExpiry ch) s = .next t
           ∧ ((t.port ch).attention = true ↔ shared ((s.port ch).events ||| 1) (s.port ch).context.attnMask))
     ∧ (∀ (ch : Channel) (r : Request) (named : EventSet) (s : State), Stands .eventAck ch r s → eventAckOperands r = some named →
         RepliesLawful s →
         ∃ t, exec (.eventAck ch) s = .next t
           ∧ ((t.port ch).attention = true ↔ shared ((s.port ch).events &&& ~~~named) (s.port ch).context.attnMask))
     ∧ (∀ (ch : Channel) (r : Request) (raw : RawContext) (c : Context) (s : State), Stands .context ch r s →
         contextOperands r = some raw → contextOf raw = some c → RepliesLawful s →
         let events := if c.attnDelay = 0 ∧ (s.port ch).attnTimer.isSome then (s.port ch).events ||| 1 else (s.port ch).events
         ∃ t, exec (.context ch) s = .next t ∧ ((t.port ch).attention = true ↔ shared events c.attnMask))
     ∧ (∀ (ch : Channel) (s : State), (s.port ch).resetActive = false →
         ∃ t, exec (.channelReset ch) s = .next t ∧ (t.port ch).attention = false))
    ∧ (∀ (ch : Channel) (s : State), (s.port ch).attnTimer = some 0 →
     exec (.attentionDelayExpiry ch) s = .next (s.updPort ch (fun p => { p with attnTimer := none, events := p.events ||| 1 })))
    ∧ (∀ (t : ClaimTarget) (s : State),
         ((s.claim t).lease ≠ 0 → (s.claim t).remaining = 0 →
           exec (.leaseExpiry t) s = .next
             { setClaim t { holder := none, token := 0, lease := 0, remaining := 0 } s with
               ports := { a := { s.ports.a with events := s.ports.a.events ||| EventKind.claimChange.bit }
                          b := { s.ports.b with events := s.ports.b.events ||| EventKind.claimChange.bit } } })
           ∧ ((s.claim t).lease = 0 ∨ (s.claim t).remaining ≠ 0 → exec (.leaseExpiry t) s = .next s))
    ∧ (∀ (sw : Sweep) (s : State), s.sweep = some sw → sw.window = some 0 →
         exec .collectionWindowExpiry s = .next { s with sweep := some { sw with window := none, current := some 0 } })

/-! ## Requests: what refuses them -/

/-- The tag check comes first, for every request kind (R51): a tag in use by an entry of the channel in the work list, or by a sweep
that the channel opened, is refused DUPLICATE-TAG, and tag 255 is refused BAD-REQUEST. The form check comes second (R52): a body
that is not of its kind's form is refused BAD-REQUEST. The forms are those of R186 and R187, with the ranges of R35, R54 to R59 and R62 and
the flags of R57: the body's length, the slot 0-31, the count 1-8, the first sector 0-7,655, the claim's target, pairs and lease, the list
of 1 to 8 slots, each kept once at its first place, the target tag, the event kinds, the 32-bit values; of a MAP-LOAD the length alone, with
its 1 to 32 changes (R29). Each form is read to the values its words hold. Among the faults of form two are the model's choice (log 11): a
presence word other than 0 and 1, and bits 11 to 8 of body word 0 of a READ, WRITE or APPEND not all zero. -/
def Obligations.TagThenFormCheck : Prop :=
  (∀ (kind : ReqKind) (ch : Channel) (r : Request) (s : State), (s.port ch).stage = .request r → r.kind = kind → RepliesLawful s →
     let inUse : Prop := (∃ e ∈ s.work, e.channel = ch ∧ e.tag = r.tag) ∨ (∃ sw, s.sweep = some sw ∧ sw.channel = ch ∧ sw.tag = r.tag)
       ∨ (∃ c, Due.sweep c ∈ (s.port ch).due ∧ c.tag = r.tag)
     (inUse → ∃ t, exec (commandOf kind ch) s = .next t ∧ Refused ch r .duplicateTag s t)
       ∧ (¬ inUse → r.tag = 255 → ∃ t, exec (commandOf kind ch) s = .next t ∧ Refused ch r .badRequest s t))
    ∧ (∀ (kind : ReqKind) (ch : Channel) (r : Request) (s : State), Stands kind ch r s → formFails ch r = true → RepliesLawful s →
         ∃ t, exec (commandOf kind ch) s = .next t ∧ Refused ch r .badRequest s t)
    ∧ (∀ (r : Request) (o : DataOperands),
         let flags (w : Word) : Flags :=
           { force := w.getLsbD 15, urgent := w.getLsbD 14, medium := w.getLsbD 13, quiet := w.getLsbD 12 }
         let headed (w c : Word) : Prop := w.toNat / 256 % 16 = 0 ∧ o.slot.val = w.toNat % 256 ∧ o.flags = flags w
           ∧ 1 ≤ c.toNat ∧ c.toNat ≤ 8 ∧ o.count = c.toNat
         (readOperands r = some o ↔
           ∃ w c f, r.body = [w, c, f] ∧ r.length = 3 ∧ headed w c ∧ f.toNat ≤ 7655 ∧ o.first = f.toNat
             ∧ o.flags.quiet = false ∧ o.flags.medium = false ∧ o.flags.force = false)
           ∧ (writeOperands r = some o ↔
               ∃ w c f, r.body = [w, c, f] ∧ r.length = 3 + 256 * c.toNat ∧ headed w c ∧ f.toNat ≤ 7655 ∧ o.first = f.toNat)
           ∧ (appendOperands r = some o ↔
               ∃ w c, r.body = [w, c] ∧ r.length = 2 + 256 * c.toNat ∧ headed w c ∧ o.first = 0 ∧ o.flags.force = false))
    ∧ (∀ (ch : Channel) (r : Request) (o : ClaimOperands),
         let holder (w : Word) (h : Option Channel) : Prop :=
           (w = 0 ∧ h = none) ∨ (w = 1 ∧ h = some .A) ∨ (w = 2 ∧ h = some .B)
         claimOperands ch r = some o ↔
           ∃ target eh et nh nt lease, r.body = [target, eh, et, nh, nt, lease]
             ∧ ((target = 32 ∧ o.target = .controller) ∨ ∃ k : Slot, target.toNat = k.val ∧ o.target = .extent k)
             ∧ holder eh o.expHolder ∧ o.expToken = et.toNat ∧ holder nh o.newHolder ∧ o.newToken = nt.toNat ∧ o.lease = lease.toNat
             ∧ (o.newHolder = none ∨ o.newHolder = some ch) ∧ (o.expHolder = none ↔ o.expToken = 0) ∧ (o.newHolder = none ↔ o.newToken = 0)
             ∧ (o.lease = 0 ∨ (100 ≤ o.lease ∧ o.lease ≤ 60000)) ∧ (o.newHolder = none → o.lease = 0))
    ∧ (∀ (r : Request) (ks : List Slot), sweepOperands r = some ks ↔
         ∃ n ws, r.body = n :: ws ∧ 1 ≤ n.toNat ∧ n.toNat ≤ 8 ∧ ws.length = n.toNat ∧ (∀ w ∈ ws, w.toNat ≤ 31)
           ∧ (∀ k : Slot, k ∈ ks ↔ k.val ∈ ws.map (fun w => w.toNat))
           ∧ ks.Pairwise (fun j k => (ws.map (fun w => w.toNat)).idxOf j.val < (ws.map (fun w => w.toNat)).idxOf k.val))
    ∧ (∀ (r : Request) (cs : List Change), mapLoadOperands r = some cs ↔
         ∃ n ws, r.body = n :: ws ∧ 1 ≤ n.toNat ∧ n.toNat ≤ 32 ∧ cs.length = n.toNat ∧ (∀ c ∈ cs, c.slot ≤ 65535)
           ∧ ws = cs.flatMap (fun c => word c.slot :: match c.defn with
               | none => [0]
               | some d => [1, d.first, d.last, d.kind, d.rights, d.cls, d.options]))
    ∧ (∀ (r : Request),
         (∀ tag, cancelOperands r = some tag ↔ ∃ w, r.body = [w] ∧ w.toNat ≤ 255 ∧ tag = w.toNat)
           ∧ (∀ serial, mapStoreOperands r = some serial ↔ ∃ hi lo, r.body = [hi, lo] ∧ serial.toNat = hi.toNat * 65536 + lo.toNat)
           ∧ (∀ v, timeSetOperands r = some v ↔ ∃ hi lo, r.body = [hi, lo] ∧ v.toNat = hi.toNat * 65536 + lo.toNat)
           ∧ (∀ kinds, eventAckOperands r = some kinds ↔ ∃ w, r.body = [w] ∧ w.toNat ≤ 127 ∧ kinds.toNat = w.toNat))

/-- The volume and generation checks (R53): each row of the table for the requests it names, and STALE-VOLUME for each of them once the
volume check has passed. For a MAP-LOAD and a MAP-STORE the controller claim is checked before (R45). -/
def Obligations.VolumeAndGenerationChecks : Prop :=
  ∀ (kind : ReqKind) (ch : Channel) (r : Request) (s : State), Stands kind ch r s → formFails ch r = false → RepliesLawful s →
    let v := s.volume.state
    let refusedWith : Code → Prop := fun code => ∃ t, exec (commandOf kind ch) s = .next t ∧ Refused ch r code s t
    (kind = .mapLoad ∨ kind = .mapStore → s.ctlClaim.holder ≠ some ch → refusedWith .claimRequired)
      ∧ (kind ∈ [ReqKind.read, .write, .append, .clear, .scan] ∨ (kind ∈ [ReqKind.mapLoad, .mapStore] ∧ s.ctlClaim.holder = some ch) →
          (v = .absent ∨ v = .mounting → refusedWith .notMounted)
            ∧ (v = .draining ∨ v = .storing ∨ v = .releasing → refusedWith .volumeLeaving)
            ∧ (v = .mounted → ¬ Fresh ch s → refusedWith .staleVolume))
      ∧ (kind = .mapRead ∨ kind = .defectRead →
          (v = .absent ∨ v = .mounting ∨ v = .storing ∨ v = .releasing → refusedWith .notMounted)
            ∧ (v = .mounted ∨ v = .draining → ¬ Fresh ch s → refusedWith .staleVolume))
      ∧ (∀ o k, kind = .claim → claimOperands ch r = some o → o.target = .extent k →
          (v = .absent ∨ v = .mounting → refusedWith .notMounted)
            ∧ (v = .storing ∨ v = .releasing → refusedWith .volumeLeaving)
            ∧ (v = .mounted ∨ v = .draining → ¬ Fresh ch s → refusedWith .staleVolume))

/-- The checks of a READ on its extent, in order (R54). The checks of a WRITE on its extent, in order (R55). The checks of an APPEND
on its extent, in order (R56). The checks of a CLEAR and of a SCAN on each extent of their lists, where the first slot of the list that
fails gives the outcome: NO-EXTENT, NO-RIGHT, and for a CLEAR of a GUARDED extent CLAIM-REQUIRED (R59). A CLAIM on an absent slot is
refused NO-EXTENT (R35). -/
def Obligations.ExtentRefusals : Prop :=
  (∀ (ch : Channel) (r : Request) (o : DataOperands) (s : State), Stands .read ch r s → readOperands r = some o → Mounted ch s →
     RepliesLawful s →
     ∀ code, (match s.extent o.slot with
         | none => some Code.noExtent
         | some e =>
           if o.first + o.count > (e.defn.last - e.defn.first + 1) * 24 then some .outOfExtent
           else if e.defn.mayRead ch = false then some .noRight
           else if e.clearing = true then some .extentClearing
           else none) = some code →
       ∃ t, exec (.read ch) s = .next t ∧ Refused ch r code s t)
    ∧ (∀ (ch : Channel) (r : Request) (o : DataOperands) (s : State), Stands .write ch r s → writeOperands r = some o → Mounted ch s →
         RepliesLawful s →
         ∀ code, (match s.extent o.slot with
             | none => some Code.noExtent
             | some e =>
               if o.first + o.count > (e.defn.last - e.defn.first + 1) * 24 then some .outOfExtent
               else if e.defn.kind = .append then some .appendOnly
               else if e.defn.mayWrite ch = false then some .noRight
               else if e.clearing = true then some .extentClearing
               else if e.defn.kind = .guarded ∧ (s.claim (.extent o.slot)).holder ≠ some ch then some .claimRequired
               else if s.ownerActive .protect = true then some .writeProtected
               else if o.flags.force = false ∧ ∃ i < o.count, ∃ d ∈ s.seq.defects, d.cylinder = e.defn.first + (o.first + i) / 24
                   ∧ d.head = (o.first + i) % 24 / 12 ∧ d.sector = (o.first + i) % 12 then some .defectiveSector
               else none) = some code →
           ∃ t, exec (.write ch) s = .next t ∧ Refused ch r code s t)
    ∧ (∀ (ch : Channel) (r : Request) (o : DataOperands) (s : State), Stands .append ch r s → appendOperands r = some o → Mounted ch s →
         RepliesLawful s → ExtentsLawful s →
         ∀ code, (match s.extent o.slot with
             | none => some Code.noExtent
             | some e =>
               if e.defn.kind ≠ .append then some .badRequest
               else if e.defn.mayWrite ch = false then some .noRight
               else if e.clearing = true then some .extentClearing
               else if s.ownerActive .protect = true then some .writeProtected
               else match e.fill with
                 | none => none
                 | some f =>
                   if f.state = .unknown then some .fillUnknown
                   else if f.mark + f.pending + o.count > (e.defn.last - e.defn.first + 1) * 24 then some .extentFull
                   else none) = some code →
           ∃ t, exec (.append ch) s = .next t ∧ Refused ch r code s t)
    ∧ (∀ (ch : Channel) (r : Request) (ks pre post : List Slot) (k : Slot) (s : State), Stands .clear ch r s → sweepOperands r = some ks →
         Mounted ch s → RepliesLawful s →
         let fault : Slot → Option Code := fun j =>
           match s.extent j with
           | none => some .noExtent
           | some e =>
             if e.defn.mayWrite ch = false then some .noRight
             else if e.defn.kind = .guarded ∧ (s.claim (.extent j)).holder ≠ some ch then some .claimRequired
             else none
         ks = pre ++ k :: post → (∀ j ∈ pre, fault j = none) → ∀ code, fault k = some code →
           ∃ t, exec (.clear ch) s = .next t ∧ Refused ch r code s t)
    ∧ (∀ (ch : Channel) (r : Request) (ks pre post : List Slot) (k : Slot) (s : State), Stands .scan ch r s → sweepOperands r = some ks →
         Mounted ch s → RepliesLawful s →
         let fault : Slot → Option Code := fun j =>
           match s.extent j with
           | none => some .noExtent
           | some e => if e.defn.mayRead ch = false then some .noRight else none
         ks = pre ++ k :: post → (∀ j ∈ pre, fault j = none) → ∀ code, fault k = some code →
           ∃ t, exec (.scan ch) s = .next t ∧ Refused ch r code s t)
    ∧ (∀ (ch : Channel) (r : Request) (o : ClaimOperands) (k : Slot) (s : State), Stands .claim ch r s → claimOperands ch r = some o →
         o.target = .extent k → (s.volume.state = .mounted ∨ s.volume.state = .draining) → Fresh ch s → s.extent k = none →
         RepliesLawful s → ∃ t, exec (.claim ch) s = .next t ∧ Refused ch r .noExtent s t)

/-! ## Requests: what admitting them does -/

/-- READ (R54, R71, R72): one that passes its checks leaves the stage as a QUEUED entry when there is a place, and otherwise waits; nothing
else changes.
WRITE (R55, R57, R102): one that passes its checks is posted, with its completion POSTED, when the extent's posting is yes, MEDIUM is
clear and the posted list has a place; else it is a QUEUED entry when there is a place; else it waits. Nothing else changes.
APPEND (R25, R56, R57): one that passes its checks raises the extent's appends pending by its count and is posted, with its completion
POSTED and no append start, or becomes a QUEUED entry; one that must wait reserves nothing. Nothing else changes. -/
def Obligations.DataTransactionsAdmitted : Prop :=
  (∀ (ch : Channel) (r : Request) (o : DataOperands) (e : Extent) (s : State), Stands .read ch r s → readOperands r = some o →
     Mounted ch s → s.extent o.slot = some e → o.first + o.count ≤ (e.defn.last - e.defn.first + 1) * 24 →
     e.defn.mayRead ch = true → e.clearing = false →
     (PlaceFor ch s → exec (.read ch) s = .next (joined ch (dataEntryOf ch r .read o e.defn none s) s))
       ∧ (¬ PlaceFor ch s → exec (.read ch) s = .next (waits ch r s)))
    ∧ (∀ (ch : Channel) (r : Request) (o : DataOperands) (e : Extent) (s : State), Stands .write ch r s → writeOperands r = some o →
         Mounted ch s → s.extent o.slot = some e → o.first + o.count ≤ (e.defn.last - e.defn.first + 1) * 24 →
         e.defn.kind ≠ .append → e.defn.mayWrite ch = true → e.clearing = false →
         (e.defn.kind = .guarded → (s.claim (.extent o.slot)).holder = some ch) → s.ownerActive .protect = false →
         (o.flags.force = true ∨ ∀ i < o.count, ∀ d ∈ s.seq.defects, ¬ (d.cylinder = e.defn.first + (o.first + i) / 24
           ∧ d.head = (o.first + i) % 24 / 12 ∧ d.sector = (o.first + i) % 12)) → RepliesLawful s →
         let token := tokenOf o.slot e.defn s
         (Posts e.defn o s → exec (.write ch) s = .next (completed ch r .posted .none
             { s with posted := s.posted ++ [postedOf ch r .write (some o.first) o e.defn token s] }))
           ∧ (¬ Posts e.defn o s → PlaceFor ch s →
               exec (.write ch) s = .next (joined ch (dataEntryOf ch r .write o e.defn token s) s))
           ∧ (¬ Posts e.defn o s → ¬ PlaceFor ch s → exec (.write ch) s = .next (waits ch r s)))
    ∧ (∀ (ch : Channel) (r : Request) (o : DataOperands) (e : Extent) (f : Fill) (s : State), Stands .append ch r s →
         appendOperands r = some o → Mounted ch s → s.extent o.slot = some e → e.defn.kind = .append → e.defn.mayWrite ch = true →
         e.clearing = false → s.ownerActive .protect = false → e.fill = some f → f.state = .known →
         f.mark + f.pending + o.count ≤ (e.defn.last - e.defn.first + 1) * 24 → RepliesLawful s →
         let u : State := updExtent o.slot (fun x => { x with fill := some { f with pending := f.pending + o.count } }) s
         (Posts e.defn o s → exec (.append ch) s = .next (completed ch r .posted (.append none)
             { u with posted := s.posted ++ [postedOf ch r .append none o e.defn none s] }))
           ∧ (¬ Posts e.defn o s → PlaceFor ch s →
               exec (.append ch) s = .next (joined ch { dataEntryOf ch r .append o e.defn none s with first := 0 } u))
           ∧ (¬ Posts e.defn o s → ¬ PlaceFor ch s → exec (.append ch) s = .next (waits ch r s)))

/-- FLUSH (R58, R108): DONE at once when the channel has no posted write; else a WATCHING entry that notes exactly the channel's posted
writes, or a wait for a place. It is taken in every volume state.
MAP-STORE (R61): with the controller claim held, the volume usable and PROTECT inactive, it becomes a QUEUED entry of class SETUP that
carries the serial, or waits; with PROTECT active it is refused WRITE-PROTECTED. -/
def Obligations.FlushAndMapStoreAdmitted : Prop :=
  (∀ (ch : Channel) (r : Request) (s : State), Stands .flush ch r s → r.length = 0 → RepliesLawful s →
     let mine := s.posted.filter (fun p => p.channel = ch)
     (mine = [] → exec (.flush ch) s = .next (completed ch r .done .none s))
       ∧ (mine ≠ [] → PlaceFor ch s → exec (.flush ch) s = .next (joined ch
           { admittedEntry ch r .flush s with state := .watching, writeBuffers := [], watched := mine.map (fun p => p.order) } s))
       ∧ (mine ≠ [] → ¬ PlaceFor ch s → exec (.flush ch) s = .next (waits ch r s)))
    ∧ (∀ (ch : Channel) (r : Request) (serial : BitVec 32) (s : State), Stands .mapStore ch r s → mapStoreOperands r = some serial →
         s.ctlClaim.holder = some ch → Mounted ch s → RepliesLawful s →
         (s.ownerActive .protect = true → ∃ t, exec (.mapStore ch) s = .next t ∧ Refused ch r .writeProtected s t)
           ∧ (s.ownerActive .protect = false → PlaceFor ch s →
               exec (.mapStore ch) s = .next (joined ch
                 { admittedEntry ch r .mapStore s with cls := some .setup, deadline := deadlineOf .setup s, serial := serial } s))
           ∧ (s.ownerActive .protect = false → ¬ PlaceFor ch s → exec (.mapStore ch) s = .next (waits ch r s)))

/-- CANCEL (R58, R87, R177): NOT-FOUND when no entry of the channel carries the target tag, TOO-LATE when the entry is not QUEUED; a QUEUED
one ends CANCELLED, its completion due before the CANCEL's own DONE, both as far as the reply queue has room. -/
def Obligations.CancelTaken : Prop :=
  ∀ (ch : Channel) (r : Request) (tag : Nat) (s : State), Stands .cancel ch r s → cancelOperands r = some tag → RepliesLawful s →
    ((∀ e ∈ s.work, ¬ (e.channel = ch ∧ e.tag = tag)) → ∃ t, exec (.cancel ch) s = .next t ∧ Refused ch r .notFound s t)
      ∧ (∀ e, s.work.find? (fun e => decide (e.channel = ch ∧ e.tag = tag)) = some e → e.state ≠ .queued →
          ∃ t, exec (.cancel ch) s = .next t ∧ Refused ch r .tooLate s t)
      ∧ (∀ e, s.work.find? (fun e => decide (e.channel = ch ∧ e.tag = tag)) = some e → e.state = .queued →
          OrdersLawful s → s.volume.state = .mounted →
          ∃ t, exec (.cancel ch) s = .next t
            ∧ SameButReservations (completed ch r .done .none (entryEnded e .cancelled s)) t)

/-- CLAIM (R36): a record whose holder and token equal the expected ones takes the new pair and lease, with remaining equal to the lease, and
the CLAIM completes DONE with the value the record held before; another record is left alone, and the CLAIM completes CLAIM-MISMATCH
with its value. A change of holder sets CLAIM-CHANGE at the other channel. -/
def Obligations.ClaimComparesAndReplaces : Prop :=
  ∀ (ch : Channel) (r : Request) (o : ClaimOperands) (s : State), Stands .claim ch r s → claimOperands ch r = some o →
    (∀ k, o.target = .extent k → (s.volume.state = .mounted ∨ s.volume.state = .draining) ∧ Fresh ch s ∧ (s.extent k).isSome) →
    RepliesLawful s →
    let old := s.claim o.target
    let value : ClaimRecord := if old.lease = 0 then { old with remaining := 0 } else old
    let u := setClaim o.target { holder := o.newHolder, token := o.newToken, lease := o.lease, remaining := o.lease } s
    (old.holder = o.expHolder ∧ old.token = o.expToken →
      exec (.claim ch) s = .next (completed ch r .done (.claim value)
        (if o.newHolder = old.holder then u
         else u.updPort ch.other (fun p => { p with events := p.events ||| EventKind.claimChange.bit }))))
      ∧ (¬ (old.holder = o.expHolder ∧ old.token = o.expToken) →
          exec (.claim ch) s = .next (completed ch r .claimMismatch (.claim value) s))

/-- MAP-READ, DEFECT-READ, STATUS and FAULT-READ (R28, R61, R62, R107, R182): each is read in the step it is taken in and completes DONE. A
MAP-READ lists the present slots in ascending order; a STATUS carries every field of R182 as it stands, the holdings with their
reservations (R96) and RUNNING or SUSPENDED by who owns the drive (log 26); a FAULT-READ removes the oldest entry of the channel's log
and zeroes its overflow count; the others change nothing. -/
def Obligations.ReadingRequests : Prop :=
  ∀ (ch : Channel) (r : Request) (s : State), r.length = 0 → RepliesLawful s →
    (Stands .mapRead ch r s → (s.volume.state = .mounted ∨ s.volume.state = .draining) → Fresh ch s →
      exec (.mapRead ch) s = .next (completed ch r .done (.map s.volume.generation s.volume.mapModified
        ((List.finRange 32).filterMap (fun k => (s.extent k).map (fun e =>
          { slot := k, extent := e, holder := (s.claim (.extent k)).holder })))) s))
      ∧ (Stands .defectRead ch r s → (s.volume.state = .mounted ∨ s.volume.state = .draining) → Fresh ch s →
          exec (.defectRead ch) s = .next (completed ch r .done (.defects s.seq.defects s.seq.overflow) s))
      ∧ (Stands .status ch r s →
          let counts : Channel → WorkCounts := fun c =>
            let n : EntryState → Nat := fun st => (s.work.filter (fun e => decide (e.channel = c ∧ e.state = st))).length
            { queued := n .queued, active := n .active, parked := n .parked, watching := n .watching, finished := n .finished }
          let item : Option SweepItem :=
            match s.sweep with
            | some sw => (match sw.current with | some i => sw.items[i]? | none => none)
            | none => none
          exec (.status ch) s = .next (completed ch r .done
            (.status {
              volume := s.volume.state, generation := s.volume.generation, label := s.volume.label, serial := s.volume.serial
              mapModified := s.volume.mapModified
              sequencer := s.seq.state, cylinder := s.seq.cylinder, phase := s.seq.phase, direction := s.direction
              overflow := s.seq.overflow
              work := { a := counts .A, b := counts .B }, posted := s.posted.length
              holdingA := heldBuffers .A s, holdingB := heldBuffers .B s
              sweepPhase :=
                match s.sweep with
                | none => if s.sweepSeen = true then .ended else .none
                | some sw =>
                  if sw.window.isSome then .collecting
                  else match s.seq.access with
                    | some a => (match a.owner with | .entry _ => .suspended | .posted _ => .suspended | _ => .running)
                    | none => .running
              sweepSlot := item.map (fun it => it.slot)
              sweepSector := match s.sweep with | some sw => sw.sector | none => none
              levels := s.levels
              events := (s.port ch).events, changed := (s.port ch).changed
              claim := if s.ctlClaim.lease = 0 then { s.ctlClaim with remaining := 0 } else s.ctlClaim
              clock := s.clock }) s))
      ∧ (Stands .faultRead ch r s →
          exec (.faultRead ch) s = .next (completed ch r .done
            (.faultRead (s.logs.get ch).entries.head? (s.logs.get ch).overflow)
            { s with logs := s.logs.set ch { entries := (s.logs.get ch).entries.tail, overflow := 0 } }))

/-- MAP-LOAD (R29, R31, R38, R43): one that passes every check makes all its changes in the step. Each named slot holds its new
definition or is absent, its claim is NONE/0, and CLAIM-CHANGE is set at the other channel when the requester held one of them;
a fill mark is kept only by an APPEND extent whose cylinders stay. The map-modified flag is set. Slots not named, and everything
else, stand. A MAP-LOAD that fails a check from the fifth on changes nothing (R29): a slot number above 31 or a definition that
is not well formed, a slot named twice, or a shared cylinder (R12) is refused BAD-MAP, and then a busy slot EXTENT-BUSY: one named by a
live entry, a posted write or a sweep, being cleared, or claimed by the other channel (R30). -/
def Obligations.MapLoad : Prop :=
  (∀ (ch : Channel) (r : Request) (cs : List Change) (gs : List (Slot × Option Definition)) (s : State), Stands .mapLoad ch r s →
     mapLoadOperands r = some cs → goodChanges cs = some gs → s.ctlClaim.holder = some ch → Mounted ch s →
     (gs.map (fun g => g.1)).Nodup → ¬ MapShares s gs → (∀ g ∈ gs, ¬ SlotBusy s ch g.1) → RepliesLawful s →
     ∃ u, exec (.mapLoad ch) s = .next (completed ch r .done .none u)
       ∧ (∀ k, (∀ g ∈ gs, g.1 ≠ k) → u.extent k = s.extent k ∧ u.claim (.extent k) = s.claim (.extent k))
       ∧ (∀ k, (k, none) ∈ gs → u.extent k = none ∧ u.claim (.extent k) = { holder := none, token := 0, lease := 0, remaining := 0 })
       ∧ (∀ k d, (k, some d) ∈ gs → u.claim (.extent k) = { holder := none, token := 0, lease := 0, remaining := 0 }
           ∧ ∃ f, u.extent k = some { defn := d, fill := f, clearing := false }
             ∧ (d.kind ≠ .append → f = none)
             ∧ (d.kind = .append →
                 (∀ e g, s.extent k = some e → e.defn.kind = .append → e.defn.first = d.first → e.defn.last = d.last → e.fill = some g →
                   f = some { mark := g.mark, state := g.state, pending := 0 })
                 ∧ ((∀ e, s.extent k = some e → ¬ (e.defn.kind = .append ∧ e.defn.first = d.first ∧ e.defn.last = d.last)) →
                   f = some { mark := 0, state := .unknown, pending := 0 })))
       ∧ u.port ch = s.port ch
       ∧ u.port ch.other = (if gs.any (fun g => decide ((s.claim (.extent g.1)).holder = some ch)) then
           { s.port ch.other with events := (s.port ch.other).events ||| EventKind.claimChange.bit } else s.port ch.other)
       ∧ u.seq.access = s.seq.access.map (fun a => if a.kind = .labelWrite then { a with mapLoadSeen := true } else a)
       ∧ u = { s with ports := u.ports, extents := u.extents, extClaims := u.extClaims, volume := { s.volume with mapModified := true },
                      seq := { s.seq with access := u.seq.access } })
    ∧ (∀ (ch : Channel) (r : Request) (cs : List Change) (s : State), Stands .mapLoad ch r s → mapLoadOperands r = some cs →
         s.ctlClaim.holder = some ch → Mounted ch s → RepliesLawful s →
         (goodChanges cs = none → ∃ t, exec (.mapLoad ch) s = .next t ∧ Refused ch r .badMap s t)
           ∧ ∀ gs, goodChanges cs = some gs →
               (¬ (gs.map (fun g => g.1)).Nodup ∨ MapShares s gs → ∃ t, exec (.mapLoad ch) s = .next t ∧ Refused ch r .badMap s t)
                 ∧ ((gs.map (fun g => g.1)).Nodup → ¬ MapShares s gs → (∃ g ∈ gs, SlotBusy s ch g.1) →
                     ∃ t, exec (.mapLoad ch) s = .next t ∧ Refused ch r .extentBusy s t))

/-- CLEAR with no sweep open (R59, R164): it leaves the stage as the opening request of a sweep COLLECTING for 400 ms, with every
named extent marked as clearing; with PROTECT active it is refused WRITE-PROTECTED. CLEAR with a sweep open (R165): the opening
channel's joins the collection window, completing JOINED, with the extents that the sweep did not have yet; more than 8 extents
are refused SWEEP-FULL, and any other sweep SWEEP-BUSY. -/
def Obligations.ClearOpensJoinsOrIsBusy : Prop :=
  (∀ (ch : Channel) (r : Request) (ks : List Slot) (s : State), Stands .clear ch r s → sweepOperands r = some ks → Mounted ch s →
     (∀ k ∈ ks, ∃ e, s.extent k = some e ∧ e.defn.mayWrite ch = true
       ∧ (e.defn.kind = .guarded → (s.claim (.extent k)).holder = some ch)) → RepliesLawful s →
     (s.ownerActive .protect = true → ∃ t, exec (.clear ch) s = .next t ∧ Refused ch r .writeProtected s t)
       ∧ (s.ownerActive .protect = false → s.sweep = none →
           ∃ t, exec (.clear ch) s = .next t
             ∧ (∀ k, t.extent k = if k ∈ ks then (s.extent k).map (fun e => { e with clearing := true }) else s.extent k)
             ∧ t = { s.updPort ch (fun p => { p with stage := .empty }) with
                 extents := t.extents
                 nextOrder := s.nextOrder + 1
                 sweep := some {
                   kind := .clear, channel := ch, tag := r.tag, verify := (s.port ch).context.verify
                   items := ks.map (fun k =>
                     { slot := k, order := s.nextOrder, token := (s.extent k).bind (fun e => tokenOf k e.defn s), top := none,
                       failed := false, result := none })
                   window := some 400, current := none, sector := none, halt := false, cause := none, discard := false } }))
    ∧ (∀ (ch : Channel) (r : Request) (ks : List Slot) (sw : Sweep) (s : State), Stands .clear ch r s → sweepOperands r = some ks →
         Mounted ch s → (∀ k ∈ ks, ∃ e, s.extent k = some e ∧ e.defn.mayWrite ch = true
           ∧ (e.defn.kind = .guarded → (s.claim (.extent k)).holder = some ch)) → RepliesLawful s →
         s.ownerActive .protect = false → s.sweep = some sw →
         let new := ks.filter (fun k => decide (∀ it ∈ sw.items, it.slot ≠ k))
         (¬ (sw.kind = .clear ∧ sw.window.isSome ∧ sw.channel = ch) → ∃ t, exec (.clear ch) s = .next t ∧ Refused ch r .sweepBusy s t)
           ∧ (sw.kind = .clear → sw.window.isSome → sw.channel = ch → sw.items.length + new.length > 8 →
               ∃ t, exec (.clear ch) s = .next t ∧ Refused ch r .sweepFull s t)
           ∧ (sw.kind = .clear → sw.window.isSome → sw.channel = ch → sw.items.length + new.length ≤ 8 →
               ∃ u, exec (.clear ch) s = .next (completed ch r .joined .none u)
                 ∧ (∀ k, u.extent k = if k ∈ new then (s.extent k).map (fun e => { e with clearing := true }) else s.extent k)
                 ∧ u = { s with
                     extents := u.extents
                     sweep := some { sw with items := sw.items ++ new.map (fun k =>
                       { slot := k, order := s.nextOrder, token := (s.extent k).bind (fun e => tokenOf k e.defn s), top := none,
                         failed := false, result := none }) } }))

/-- SCAN (R59, R164, R165): with no sweep open it leaves the stage as the opening request of a RUNNING sweep whose first item is current,
marking nothing; with one open it is refused SWEEP-BUSY. -/
def Obligations.ScanOpensSweep : Prop :=
  ∀ (ch : Channel) (r : Request) (ks : List Slot) (s : State), Stands .scan ch r s → sweepOperands r = some ks → Mounted ch s →
    (∀ k ∈ ks, ∃ e, s.extent k = some e ∧ e.defn.mayRead ch = true) → RepliesLawful s →
    (s.sweep.isSome → ∃ t, exec (.scan ch) s = .next t ∧ Refused ch r .sweepBusy s t)
      ∧ (s.sweep = none →
          exec (.scan ch) s = .next
            { s.updPort ch (fun p => { p with stage := .empty }) with
              nextOrder := s.nextOrder + 1
              sweep := some {
                kind := .scan, channel := ch, tag := r.tag, verify := (s.port ch).context.verify
                items := ks.map (fun k =>
                  { slot := k, order := s.nextOrder, token := none, top := none, failed := false, result := none })
                window := none, current := some 0, sector := none, halt := false, cause := none, discard := false } })

/-- SWEEP-HALT (R60, R171, R173): NOT-FOUND with no sweep, CLAIM-REQUIRED from a channel that neither opened it nor holds the controller
claim; with a step in progress the halt waits for its end; with none the sweep ends at once, its marks cleared, SWEEP-END set at both
ports, the extents without a result PARTIAL. Two points are the model's choice: that the sweep's completion becomes due before the
SWEEP-HALT's own (log 30), and that a halt after a waiting PROTECT stop leaves that stop's cause (log 36). -/
def Obligations.SweepHalt : Prop :=
  ∀ (ch : Channel) (r : Request) (s : State), Stands .sweepHalt ch r s → r.length = 0 → RepliesLawful s →
    (s.sweep = none → ∃ t, exec (.sweepHalt ch) s = .next t ∧ Refused ch r .notFound s t)
      ∧ (∀ sw, s.sweep = some sw → sw.channel ≠ ch → s.ctlClaim.holder ≠ some ch →
          ∃ t, exec (.sweepHalt ch) s = .next t ∧ Refused ch r .claimRequired s t)
      ∧ (∀ sw a, s.sweep = some sw → (sw.channel = ch ∨ s.ctlClaim.holder = some ch) → s.volume.state = .mounted →
          s.seq.access = some a → a.owner = .sweep →
          ∃ t, exec (.sweepHalt ch) s = .next t
            ∧ SameButReservations
                (completed ch r .done .none { s with sweep := some { sw with halt := true, cause := some (sw.cause.getD .halt) } }) t)
      ∧ (∀ sw, s.sweep = some sw → (sw.channel = ch ∨ s.ctlClaim.holder = some ch) → s.volume.state = .mounted →
          (∀ a, s.seq.access = some a → a.owner ≠ .sweep) →
          ∃ t, exec (.sweepHalt ch) s = .next t ∧ SameButReservations (completed ch r .done .none (sweepHalted sw s)) t)

/-- CONTEXT (R64, R180): a good context replaces every field, and a delay of 0 loaded while the attention delay timer runs stops it
and sets REPLY-DELIVERED; a bad one is refused BAD-CONTEXT.
Its body is read by R187: the expected generation, the check span as an absent field, verify, the attention mask and delay, the line mask;
that a presence word other than 0 and 1 fits no form is log 11. The context is good exactly when every field is in the range of R64, and
holds what the words say.
SETTINGS-LOAD (R66): the whole record is replaced, or nothing: CLAIM-REQUIRED without the controller claim, BAD-SETTINGS for a value out of
range, QUOTA-IN-USE for a quota below a holding.
Its body is the 25 words of the record (R187). The record is good exactly when every field is in the range of R65 and the quotas together do
not exceed 24, and holds what the words say. -/
def Obligations.ContextAndSettingsLoaded : Prop :=
  (∀ (ch : Channel) (r : Request) (raw : RawContext) (s : State), Stands .context ch r s → contextOperands r = some raw →
     RepliesLawful s →
     (contextOf raw = none → ∃ t, exec (.context ch) s = .next t ∧ Refused ch r .badContext s t)
       ∧ (∀ c, contextOf raw = some c →
           exec (.context ch) s = .next (completed ch r .done .none (s.updPort ch (fun p => { p with
             context := c
             attnTimer := if c.attnDelay = 0 then none else p.attnTimer
             events := if c.attnDelay = 0 ∧ p.attnTimer.isSome then p.events ||| 1 else p.events })))))
    ∧ (∀ (r : Request) (raw : RawContext), contextOperands r = some raw ↔
         r.body = raw.gen :: ((match raw.span with | none => [0] | some (x, y, i) => [1, x, y, i])
           ++ [raw.verify, raw.attnMask, raw.delay, raw.lineMask]))
    ∧ (∀ (r : Request) (ws : List Word), settingsOperands r = some ws ↔ r.body = ws ∧ ws.length = 25)
    ∧ (∀ raw : RawContext,
         ((contextOf raw).isSome ↔
           raw.gen.toNat ≤ 255 ∧ (raw.verify = 0 ∨ raw.verify = 1) ∧ raw.attnMask.toNat < 128 ∧ raw.delay.toNat ≤ 15
             ∧ raw.lineMask.toNat < 64
             ∧ ∀ x y i, raw.span = some (x, y, i) → x.toNat ≤ 255 ∧ y.toNat ≤ 255 ∧ i.toNat ≤ 255 ∧ x.toNat ≤ y.toNat
                 ∧ ¬ (x.toNat ≤ i.toNat ∧ i.toNat ≤ y.toNat))
           ∧ ∀ c, contextOf raw = some c →
               c.expectedGen = raw.gen.toNat ∧ (c.verify = true ↔ raw.verify = 1) ∧ c.attnMask.toNat = raw.attnMask.toNat
                 ∧ c.attnDelay = raw.delay.toNat ∧ c.lineMask.toNat = raw.lineMask.toNat
                 ∧ c.span = raw.span.map (fun p => { first := p.1.toNat, last := p.2.1.toNat, insert := p.2.2.toNat }))
    ∧ (∀ (ch : Channel) (r : Request) (ws : List Word) (s : State), Stands .settingsLoad ch r s → settingsOperands r = some ws →
         RepliesLawful s →
         (s.ctlClaim.holder ≠ some ch → ∃ t, exec (.settingsLoad ch) s = .next t ∧ Refused ch r .claimRequired s t)
           ∧ (s.ctlClaim.holder = some ch → settingsOf ws = none →
               ∃ t, exec (.settingsLoad ch) s = .next t ∧ Refused ch r .badSettings s t)
           ∧ (∀ new, s.ctlClaim.holder = some ch → settingsOf ws = some new → (new.quotaA < s.holding .A ∨ new.quotaB < s.holding .B) →
               ∃ t, exec (.settingsLoad ch) s = .next t ∧ Refused ch r .quotaInUse s t)
           ∧ (∀ new, s.ctlClaim.holder = some ch → settingsOf ws = some new → s.holding .A ≤ new.quotaA → s.holding .B ≤ new.quotaB →
               ∃ t, exec (.settingsLoad ch) s = .next t
                 ∧ SameButReservations (completed ch r .done .none { s with settings := new }) t))
    ∧ (∀ ws : List Word, ws.length = 25 →
         let w : Nat → Nat := fun i => (ws.getD i 0).toNat
         ((settingsOf ws).isSome ↔
           (∀ c : WorkClass, w (5 * c.code) ≤ 5000 ∧ w (5 * c.code + 1) ≤ 1 ∧ w (5 * c.code + 2) ≤ 7 ∧ w (5 * c.code + 3) ≤ 7
               ∧ w (5 * c.code + 4) ≤ 1)
             ∧ 8 ≤ w 20 ∧ w 20 ≤ 16 ∧ 8 ≤ w 21 ∧ w 21 ≤ 16 ∧ w 20 + w 21 ≤ 24 ∧ 1000 ≤ w 22 ∧ w 22 ≤ 30000 ∧ w 23 ≤ 1 ∧ w 24 ≤ 1)
           ∧ ∀ new, settingsOf ws = some new →
               (∀ c : WorkClass, new.row c =
                   { deadline := w (5 * c.code), lateAction := if w (5 * c.code + 1) = 0 then .mark else .abandon
                     readRetries := w (5 * c.code + 2), writeRetries := w (5 * c.code + 3), yields := decide (w (5 * c.code + 4) = 1) })
                 ∧ new.quotaA = w 20 ∧ new.quotaB = w 21 ∧ new.drainTimeout = w 22 ∧ (new.storeOnUnload = true ↔ w 23 = 1)
                 ∧ new.powerMode = (if w 24 = 0 then .sectorEnd else .immediate))

/-- EVENT-ACK (R181): in one step each named kind leaves the port's event set, LINE-CHANGE named also empties the port's changed-line set,
and the request completes DONE with no body; kinds not named, and everything else, stand. -/
def Obligations.EventAckTaken : Prop :=
  ∀ (ch : Channel) (r : Request) (named : EventSet) (s : State), Stands .eventAck ch r s → eventAckOperands r = some named →
    RepliesLawful s →
    exec (.eventAck ch) s = .next (completed ch r .done .none (s.updPort ch (fun p => { p with
      events := p.events &&& ~~~named
      changed := if hasEvent named .lineChange then 0 else p.changed })))

/-- TIME-SET (R183): refused CLAIM-REQUIRED unless the channel holds the controller claim; otherwise the clock takes the value carried in the
step and goes on counting from it, the request completes DONE with no body, and no timer and no recorded reading changes. -/
def Obligations.TimeSetTaken : Prop :=
  ∀ (ch : Channel) (r : Request) (v : Millis) (s : State), Stands .timeSet ch r s → timeSetOperands r = some v → RepliesLawful s →
    (s.ctlClaim.holder ≠ some ch → ∃ t, exec (.timeSet ch) s = .next t ∧ Refused ch r .claimRequired s t)
      ∧ (s.ctlClaim.holder = some ch →
          exec (.timeSet ch) s = .next (completed ch r .done .none { s with clock := v })
            ∧ ∃ u, exec .clockTick (completed ch r .done .none { s with clock := v }) = .next u ∧ u.clock = v + 1)

/-- REQUEST_RETAKE (R48): a waiting request for which a place has become free is taken afresh, with every check repeated, as if it had just
entered the stage. -/
def Obligations.RequestRetake : Prop :=
  ∀ (ch : Channel) (r : Request) (s : State), (s.port ch).stage = .waiting r true →
    r.kind ∈ [ReqKind.read, .write, .append, .flush, .mapStore] →
    ∃ t, exec (.requestRetake ch) s = .next t
      ∧ exec (commandOf r.kind ch) (s.updPort ch (fun p => { p with stage := .request r })) = .next t

/-! ## Expiries -/

/-- DEADLINE_EXPIRY (R85, R86): the late action of the entry's class as it stands now. MARK sets the entry's late flag, ABANDON ends it
DEADLINE-ABANDONED; either way LATE is set at the entry's channel. That MARK leaves the expired deadline standing at 0, and that the command
takes only an entry whose late flag is clear, is the model's choice (log 27). -/
def Obligations.DeadlineExpiry : Prop :=
  ∀ (ch : Channel) (tag : Nat) (e : Entry) (s : State),
    s.work.find? (fun x => decide (x.channel = ch ∧ x.tag = tag ∧ x.state = .queued ∧ x.deadline = some 0 ∧ x.late = false)) = some e →
    OrdersLawful s →
    let u := s.updPort ch (fun p => { p with events := p.events ||| EventKind.late.bit })
    let action := (s.settings.row (e.cls.getD .bulk)).lateAction
    (action = .mark → exec (.deadlineExpiry ch tag) s = .next
        { u with work := s.work.map (fun x => if x.order = e.order then { x with late := true } else x) })
      ∧ (action = .abandon → RepliesLawful s → s.volume.state = .mounted →
          ∃ t, exec (.deadlineExpiry ch tag) s = .next t ∧ SameButReservations (entryEnded e .deadlineAbandoned u) t)

/-- The four departures (R114, R118, R142, R155): READY_INACTIVE leaves the sequencer NO-CARTRIDGE, DOOR_OPEN STOPPING unless it already was
without a cartridge, STOPPING or OFFLINE, RESTORE_TIMEOUT OFFLINE, and FAULT_PERSISTENCE_EXPIRY STOPPING; each takes the volume with it:
a sector write in progress leaves its sector torn (R9), what was live of the work ends VOLUME-GONE, its sectors done kept (R93), an APPEND
cut in its DATA phase with TORN in its condition list (R9, log 42), every posted write faults VOLUME-GONE, logged in admission order
(R106, R110), and both ports are told. READY and DOOR are taken here by the blocks that act on them (log 9). -/
def Obligations.Departures : Prop :=
  ∀ s : State, s.volume.state ≠ .absent → OrdersLawful s → RepliesLawful s →
    (s.ownerActive .ready = true →
      ∃ t, exec .readyInactive (takenBy .owner s) = .next t ∧ Departed (actedOn .ready false s) t ∧ WorkGone s t ∧ PostedGone s t
        ∧ t.seq.state = .noCartridge ∧ t.seq.cylinder = none ∧ t.seq.counter = none ∧ t.seq.target = none)
      ∧ (s.ownerActive .door = false →
          ∃ t, exec .doorOpen (takenBy .owner s) = .next t ∧ Departed (actedOn .door true s) t ∧ WorkGone s t ∧ PostedGone s t
            ∧ t.seq.state = (if s.seq.state = .offline ∨ s.seq.state = .noCartridge then s.seq.state else .stopping))
      ∧ (s.seq.state = .restoring → s.seq.phase = .none → s.seq.restoreTimer = some 0 → s.seq.seekTimeouts < 2 →
          ∃ t, exec .restoreTimeout s = .next t ∧ Departed s t ∧ WorkGone s t ∧ PostedGone s t ∧ t.seq.state = .offline
            ∧ t.seq.cylinder = none)
      ∧ (s.seq.state = .notSafe → s.seq.faultTimer = some 0 →
          ∃ t, exec .faultPersistenceExpiry s = .next t ∧ Departed s t ∧ WorkGone s t ∧ PostedGone s t ∧ t.seq.state = .stopping)

/-- DRAIN_TIMER_EXPIRY (R157, R158, R171): with a sector under way or a command outstanding the stop waits for its end, and a halted sweep's
clearing step is carried to its own (log 35); with no access, or a run or scanning step with neither, the live entries end VOLUME-GONE,
their sectors done kept, the posted writes fault, logged in admission order (R106), a sweep still ending its halt ends, and the drain ends
in STORING or RELEASING. That a MAP-STORE's label write is stopped like a run is log 44. The access is of a kind that its owner makes (R115), as every step keeps it. -/
def Obligations.DrainTimerExpiry : Prop :=
  ∀ s : State, s.volume.state = .draining → s.volume.drainTimer = some 0 → OrdersLawful s → RepliesLawful s → AccessLawful s →
    (∀ a, s.seq.access = some a →
        (a.underWay = true ∨ s.seq.state = .seeking ∨ s.seq.state = .restoring ∨ (a.owner = .sweep ∧ a.kind = .clearStep)) →
        s.hasVolumeWork = true →
        ∃ t, exec .drainTimerExpiry s = .next t
          ∧ SameButReservations { s with volume := { s.volume with drainTimer := none, drainExpired := true } } t)
      ∧ ((∀ a, s.seq.access = some a → a.underWay = false ∧ s.seq.state ≠ .seeking ∧ s.seq.state ≠ .restoring ∧ s.seq.phase ≠ .data
            ∧ ((∃ n, a.owner = .entry n ∨ a.owner = .posted n) ∨ (a.owner = .sweep ∧ a.kind = .scanStep))) →
          ∃ t, exec .drainTimerExpiry s = .next t ∧ DrainEnded s t)

/-! ## The arbiter -/

/-- The arbiter's choice (R81, R82): one of the eligible, of the highest class present; the oldest of URGENT, without a change of direction;
of another class one that lies in the direction then taken, none nearer there, and none older as near at one cylinder; the direction
reverses only when nothing lies ahead. What it chooses among is the eligible work, each with its class and next-run cylinder (R72). An
entry is eligible exactly when it is QUEUED or PARKED, the volume MOUNTED or DRAINING, no older unfinished work overlaps it (R75, R77), no
older unfinished APPEND stands on an APPEND's extent (R78), a READ's unused quota, its own reservation counted, covers its next run (R98),
and no write hold is in force for a writing one (R76, R79); a posted write under the like conditions. Freed room goes first to the short
reservations of started READs: with one of them still short, nothing of the channel's quota is unused (R98). -/
def Obligations.ArbiterChoosesAndWriteHoldHolds : Prop :=
  (∀ (dir : Direction) (arm : Nat) (cs : List Candidate), cs ≠ [] →
     let lies : Direction → Candidate → Prop := fun d c => match d with | .inward => arm ≤ c.cylinder | .outward => c.cylinder ≤ arm
     ∃ c dir', choose dir arm cs = (some c, dir') ∧ c ∈ cs ∧ (∀ d ∈ cs, c.cls.code ≤ d.cls.code)
       ∧ (c.cls = .urgent → dir' = dir ∧ ∀ d ∈ cs, d.cls = .urgent → c.order ≤ d.order)
       ∧ (c.cls ≠ .urgent → lies dir' c
           ∧ (∀ d ∈ cs, d.cls = c.cls → lies dir' d → c.distance arm ≤ d.distance arm)
           ∧ (∀ d ∈ cs, d.cls = c.cls → d.cylinder = c.cylinder → c.order ≤ d.order)
           ∧ (dir' ≠ dir ↔ ∀ d ∈ cs, d.cls = c.cls → ¬ lies dir d)))
    ∧ (∀ s : State, s.powerPeriod.isSome →
         (∀ e ∈ s.work, s.entryEligible e = true → e.kind = .read) ∧ ∀ p ∈ s.posted, s.postedEligible p = false)
    ∧ (∀ (s : State) (e : Entry), s.entryEligible e = true ↔
         (e.state = .queued ∨ e.state = .parked) ∧ (s.volume.state = .mounted ∨ s.volume.state = .draining)
           ∧ ¬ HeldBack s e.order (e.kind ≠ .read) (entryTouches s e)
           ∧ (∀ k, e.kind = .append → e.slot = some k → ¬ AppendBefore s e.order k)
           ∧ (e.kind = .read → RoomFor s e) ∧ (e.kind ≠ .read → s.powerPeriod = none) ∧ e.kind ≠ .flush)
    ∧ (∀ (s : State) (p : Posted), s.postedEligible p = true ↔
         p.committing = false ∧ (s.volume.state = .mounted ∨ s.volume.state = .draining)
           ∧ ¬ HeldBack s p.order True (postedTouches s p) ∧ (p.kind = .append → ¬ AppendBefore s p.order p.slot)
           ∧ s.powerPeriod = none)
    ∧ (∀ (s : State) (c : Candidate), c ∈ s.candidates ↔
         (∃ e ∈ s.work, s.entryEligible e = true ∧ c = entryCandidate s e)
           ∨ ∃ p ∈ s.posted, s.postedEligible p = true ∧ c = postedCandidate s p)
    ∧ (∀ (s : State) (ch : Channel), OrdersLawful s →
         let t := topUpBoth s
         SameButReservations s t
           ∧ ((∃ e ∈ t.work, e.channel = ch ∧ e.kind = .read ∧ e.reserved < e.reservationGoal) →
               s.settings.quota ch ≤ heldBuffers ch t))

/-- ARBITER_CHOICE granting a READ or a WRITE its run (R4, R83): the entry is ACTIVE without a deadline, its run is its remaining
sectors in their first cylinder, a READ's buffers for the run are allocated, and the sequencer is sent to the run's first
sector; a WRITE's claim is held at its run start, or it ends CLAIM-LOST, and then the drive stays free until the next choice (that no
further choice is made in the same step is log 13). Only reservations may change besides. ARBITER_CHOICE with nothing eligible
and no sweep, or with the drive not free, changes nothing but reservations (R80). -/
def Obligations.ArbiterChoice : Prop :=
  (∀ (e : Entry) (k : Slot) (c : Candidate) (dir : Direction) (s : State), s.seq.access = none → s.seq.state = .idle →
     choose s.direction (s.seq.cylinder.getD 0) s.candidates = (some c, dir) → c.owner = .entry e.order → e ∈ s.work →
     e.slot = some k → OrdersLawful s → RepliesLawful s → s.volume.state = .mounted →
     let m := e.first + e.done
     let len := min (e.count - e.done) (24 - m % 24)
     let held : Prop := ∀ token, e.token = some token →
       (s.claim (.extent k)).holder = some e.channel ∧ (s.claim (.extent k)).token = token
     (e.kind = .read →
       ∃ t, exec .arbiterChoice s = .next t
         ∧ SameButReservations
             { s with
               direction := dir
               work := s.work.map (fun x =>
                 if x.order = e.order then { x with state := .active, deadline := none, allocated := len, run := some (m, len) } else x)
               seq := begun (Access.begin (.entry e.order) .readRun e.cls false (some k) e.base m (m + len) e.size) s.seq } t)
       ∧ (e.kind = .write → s.ownerActive .protect = false → held →
           ∃ t, exec .arbiterChoice s = .next t
             ∧ SameButReservations
                 { s with
                   direction := dir
                   work := s.work.map (fun x =>
                     if x.order = e.order then { x with state := .active, deadline := none, run := some (m, len), tornNext := false }
                     else x)
                   seq := begun { Access.begin (.entry e.order) .writeRun e.cls e.verify (some k) e.base m (m + len) e.size with
                     tornResume := e.tornNext } s.seq } t)
       ∧ (e.kind = .write → s.ownerActive .protect = false → ¬ held →
           ∃ t, exec .arbiterChoice s = .next t
             ∧ SameButReservations
                 (entryEnded { e with state := .active, deadline := none } .claimLost
                   { s with
                     direction := dir
                     work := s.work.map (fun x => if x.order = e.order then { x with state := .active, deadline := none } else x) })
                 t))
    ∧ (∀ s : State,
         (s.seq.access = none → s.seq.state = .idle → s.candidates = [] → s.sweep = none → RepliesLawful s → s.volume.state = .mounted →
           ∃ t, exec .arbiterChoice s = .next t ∧ SameButReservations s t)
           ∧ (s.seq.access ≠ none ∨ s.seq.state ≠ .idle → exec .arbiterChoice s = .next s))

/-- ARBITER_CHOICE falling on an APPEND, a MAP-STORE or a posted write (R22, R42, R79, R83, R103, R115). An APPEND's run starts at the fill
mark, which its first run records as the append start; with the extent full it ends EXTENT-FULL. A MAP-STORE's label write begins, its
contents built in the controller buffer with the volume's serial, or its own on an UNLABELLED volume (R10, R100). A posted write is
COMMITTING with its next run; one whose claim is lost faults CLAIM-LOST and one on a full extent MEDIUM-ERROR. With PROTECT active the
choice ends an entry WRITE-PROTECTED, or faults a posted write so, and falls again on what remains, so that no write is granted. That
the drive stays free after a choice that ended its work otherwise is log 13; that a MAP-STORE has no current run is log 45. -/
def Obligations.ArbiterGrantsOtherWrites : Prop :=
  ∀ (c : Candidate) (dir : Direction) (s : State), s.seq.access = none → s.seq.state = .idle →
    choose s.direction (s.seq.cylinder.getD 0) s.candidates = (some c, dir) → OrdersLawful s → RepliesLawful s → s.volume.state = .mounted →
    (∀ (e : Entry) (k : Slot) (x : Extent) (f : Fill), s.ownerActive .protect = false → e ∈ s.work → c.owner = .entry e.order →
       e.kind = .append → e.slot = some k → s.extent k = some x → x.fill = some f →
       (f.mark < e.size →
         ∃ t, exec .arbiterChoice s = .next t
           ∧ SameButReservations
               { s with
                 direction := dir
                 work := s.work.map (fun y => if y.order = e.order then
                   { y with state := .active, deadline := none, run := some (f.mark, min (e.count - e.done) (24 - f.mark % 24))
                            appendStart := some (y.appendStart.getD f.mark) } else y)
                 seq := begun (Access.begin (.entry e.order) .appendRun e.cls e.verify (some k) e.base f.mark ((f.mark / 24 + 1) * 24)
                   e.size) s.seq } t)
         ∧ (e.size ≤ f.mark →
             ∃ t, exec .arbiterChoice s = .next t
               ∧ SameButReservations
                   (entryEnded { e with state := .active, deadline := none } .extentFull
                     { s with
                       direction := dir
                       work := s.work.map (fun y => if y.order = e.order then { y with state := .active, deadline := none } else y) }) t))
      ∧ (∀ (e : Entry) (serial : BitVec 32), s.ownerActive .protect = false → e ∈ s.work → c.owner = .entry e.order → e.kind = .mapStore →
           (s.volume.label = some .valid → s.volume.serial = some serial) → (s.volume.label ≠ some .valid → serial = e.serial) →
           ∃ t, exec .arbiterChoice s = .next t
             ∧ SameButReservations
                 { s with
                   direction := dir
                   work := s.work.map (fun y => if y.order = e.order then { y with state := .active, deadline := none } else y)
                   ctlBuffer := .label (labelOf serial s)
                   seq := begun (Access.begin (.entry e.order) .labelWrite (some .setup) true none 0 0 1 1) s.seq } t)
      ∧ (∀ (p : Posted) (n : Nat), s.ownerActive .protect = false → p ∈ s.posted → c.owner = .posted p.order → p.kind = .write →
           p.first = some n →
           let m := n + p.committed
           let len := min (p.count - p.committed) (24 - m % 24)
           let held : Prop := ∀ token, p.token = some token →
             (s.claim (.extent p.slot)).holder = some p.channel ∧ (s.claim (.extent p.slot)).token = token
           (held →
             ∃ t, exec .arbiterChoice s = .next t
               ∧ SameButReservations
                   { s with
                     direction := dir
                     posted := s.posted.map (fun y => if y.order = p.order then { y with committing := true, tornNext := false } else y)
                     seq := begun { Access.begin (.posted p.order) .writeRun (some p.cls) p.verify (some p.slot) p.base m (m + len) p.size with
                       tornResume := p.tornNext } s.seq } t)
             ∧ (¬ held → (∀ e ∈ s.work, e.state ≠ .watching) →
                 ∃ t, exec .arbiterChoice s = .next t ∧ SameButReservations (postedFaulted p .claimLost { s with direction := dir }) t))
      ∧ (∀ (p : Posted) (x : Extent) (f : Fill), s.ownerActive .protect = false → p ∈ s.posted → c.owner = .posted p.order →
           p.kind = .append → s.extent p.slot = some x → x.fill = some f →
           (f.mark < p.size →
             ∃ t, exec .arbiterChoice s = .next t
               ∧ SameButReservations
                   { s with
                     direction := dir
                     posted := s.posted.map (fun y => if y.order = p.order then
                       { y with committing := true, tornNext := false, first := some (y.first.getD f.mark) } else y)
                     seq := begun (Access.begin (.posted p.order) .appendRun (some p.cls) p.verify (some p.slot) p.base f.mark
                       ((f.mark / 24 + 1) * 24) p.size) s.seq } t)
             ∧ (p.size ≤ f.mark → (∀ e ∈ s.work, e.state ≠ .watching) →
                 ∃ t, exec .arbiterChoice s = .next t ∧ SameButReservations (postedFaulted p .mediumError { s with direction := dir }) t))
      ∧ (∀ e : Entry, s.ownerActive .protect = true → e ∈ s.work → c.owner = .entry e.order → e.kind ≠ .read →
           ∃ t, exec .arbiterChoice s = .next t ∧ (e.discard = false → Ended e .writeProtected t)
             ∧ (∀ a n, t.seq.access = some a → a.owner = .entry n → a.kind = .readRun)
             ∧ (∀ a n, t.seq.access = some a → a.owner ≠ .posted n)
             ∧ (s.work = [e] → s.posted = [] → s.sweep = none →
                 SameButReservations (entryEnded e .writeProtected { s with direction := dir }) t))
      ∧ (∀ p : Posted, s.ownerActive .protect = true → p ∈ s.posted → c.owner = .posted p.order →
           ∃ t, exec .arbiterChoice s = .next t ∧ (∀ x ∈ t.posted, x.order ≠ p.order)
             ∧ hasEvent (t.port p.channel).events .postedFault = true
             ∧ (faultEntryOf .writeProtected s.clock p ∈ (t.logs.get p.channel).entries ∨ 1 ≤ (t.logs.get p.channel).overflow)
             ∧ (∀ a n, t.seq.access = some a → a.owner = .entry n → a.kind = .readRun)
             ∧ (∀ a n, t.seq.access = some a → a.owner ≠ .posted n)
             ∧ (s.work = [] → s.posted = [p] → s.sweep = none →
                 SameButReservations (postedFaulted p .writeProtected { s with direction := dir }) t))

/-- ARBITER_CHOICE with nothing eligible, the drive offered to a running sweep (R42, R100, R167, R168, R169): it declines while older work
names its current extent and, a CLEAR, while a write hold is in force. Else its step begins: a SCAN's from relative sector 0 upward, a
CLEAR's from the size, or a KNOWN fill mark, downward, the range fixed at the first one; a KNOWN APPEND extent with fill mark 0 is
DONE, and an extent whose claim is not held is PARTIAL, with no step made (that the offer is then used up is log 24). -/
def Obligations.SweepOffered : Prop :=
  ∀ (sw : Sweep) (i : Nat) (it : SweepItem) (x : Extent) (s : State), s.seq.access = none → s.seq.state = .idle → s.candidates = [] →
    s.sweep = some sw → sw.window = none → sw.halt = false → sw.cause = none → sw.current = some i → sw.items[i]? = some it →
    s.extent it.slot = some x → RepliesLawful s → s.volume.state = .mounted →
    let size := (x.defn.last - x.defn.first + 1) * 24
    let older : Prop := (∃ e ∈ s.work, e.live = true ∧ e.slot = some it.slot ∧ e.order < it.order)
      ∨ ∃ p ∈ s.posted, p.slot = it.slot ∧ p.order < it.order
    let held : Prop := ∀ token, it.token = some token →
      (s.claim (.extent it.slot)).holder = some sw.channel ∧ (s.claim (.extent it.slot)).token = token
    let ranged (top m : Nat) : Sweep := { sw with items := sw.items.modify i (fun y => { y with top := some top }), sector := some m }
    let scans (sw : Sweep) (m : Nat) : State :=
      { s with
        ctlBuffer := .scanned, sweep := some sw
        seq := begun (Access.begin .sweep .scanStep (some .bulk) false (some it.slot) x.defn.first m (m + 1) size) s.seq }
    let clears (sw : Sweep) (m : Nat) : State :=
      { s with
        ctlBuffer := .zeros, sweep := some sw
        seq := begun (Access.begin .sweep .clearStep (some .bulk) sw.verify (some it.slot) x.defn.first m (m + 1) size) s.seq }
    let first : Nat := match x.fill with | some f => (if f.state = .known then f.mark - 1 else size - 1) | none => size - 1
    let nothing : Prop := ∃ f, x.fill = some f ∧ f.state = .known ∧ f.mark = 0
    (older ∨ (sw.kind = .clear ∧ s.powerPeriod.isSome) → ∃ t, exec .arbiterChoice s = .next t ∧ SameButReservations s t)
      ∧ (¬ older → sw.kind = .scan → it.top = none →
          ∃ t, exec .arbiterChoice s = .next t ∧ SameButReservations (scans (ranged (size - 1) 0) 0) t)
      ∧ (∀ top m, ¬ older → sw.kind = .scan → it.top = some top → sw.sector = some m →
          ∃ t, exec .arbiterChoice s = .next t ∧ SameButReservations (scans sw m) t)
      ∧ (¬ older → sw.kind = .clear → s.powerPeriod = none →
          (it.top = none → nothing → ∃ t, exec .arbiterChoice s = .next t ∧ SameButReservations (itemDone sw i .done s) t)
            ∧ (it.top = none → ¬ nothing → held →
                ∃ t, exec .arbiterChoice s = .next t ∧ SameButReservations (clears (ranged first first) first) t)
            ∧ (it.top = none → ¬ nothing → ¬ held →
                ∃ t, exec .arbiterChoice s = .next t ∧ SameButReservations (itemDone (ranged first first) i .partly s) t)
            ∧ (∀ top m, it.top = some top → sw.sector = some m → held →
                ∃ t, exec .arbiterChoice s = .next t ∧ SameButReservations (clears sw m) t)
            ∧ (∀ top, it.top = some top → ¬ held →
                ∃ t, exec .arbiterChoice s = .next t ∧ SameButReservations (itemDone sw i .partly s) t))

/-! ## The drive -/

/-- SEEK_DONE_INACTIVE and SEEK_DONE (R112, R116, R118): the completion of a SEEK or RESTORE is taken once the drive has accepted
it, and otherwise ignored. Its timer stops, the arm stands at the cylinder sought or at 0, and the access goes on to its sector;
with none the sequencer is IDLE, and a mount that had its restore begins its label read. SEEK_TIMEOUT (R117, R118): the access's
seek timeouts rise by one, a RESTORE is issued with its timeout of 600 ms, and the arm's position is unknown. A stop that waited for the
command ends the access as the command ends, at SEEK-DONE, or at its SEEK's timeout, the RESTORE then made for no access (R133): under
PROTECT a WRITE's entry ends WRITE-PROTECTED (R146), under POWER it is PARKED (R144), under an expired drain timer it ends VOLUME-GONE with
the rest of the volume work (R158). That PROTECT goes before a waiting POWER stop is log 14. That this timeout is counted all the same is
log 28; that command accepted is no with no command outstanding is log 33. -/
def Obligations.SeekDoneAndTimeout : Prop :=
  (∀ s : State,
     let outstanding : Prop := s.seq.state = .seeking ∨ s.seq.state = .restoring
     let q : Sequencer := { s.seq with
       state := .idle, cylinder := some (if s.seq.state = .restoring then 0 else s.seq.seekTo), seekTimer := none, restoreTimer := none
       accepted := false }
     (outstanding → exec .seekDoneInactive s = .next { s with seq := { s.seq with accepted := true } })
       ∧ (¬ outstanding → exec .seekDoneInactive s = .next s)
       ∧ (¬ outstanding ∨ s.seq.accepted = false → exec .seekDone s = .next s)
       ∧ (∀ a, outstanding → s.seq.accepted = true → s.seq.access = some a → a.stops = [] → s.volume.drainExpired = false →
           (a.kind = .labelRead ∨ a.kind = .probe → s.volume.state = .mounting) →
           (s.seq.state = .restoring → s.seq.seekTimeouts < 2) →
           exec .seekDone s = .next { s with seq := sent a q })
       ∧ (outstanding → s.seq.accepted = true → s.seq.access = none → s.volume.state ≠ .mounting → s.volume.state ≠ .releasing →
           exec .seekDone s = .next { s with seq := q })
       ∧ (outstanding → s.seq.accepted = true → s.seq.access = none → s.volume.state = .mounting → s.volume.mount = .restore →
           exec .seekDone s = .next
             { s with
               ctlBuffer := .labelIn
               volume := { s.volume with mount := .label }
               seq := begun (Access.begin .volume .labelRead none false none 0 0 1 1) q }))
    ∧ (∀ (a : Access) (e : Entry) (c : Instr) (s : State), s.seq.access = some a → a.kind = .writeRun → a.owner = .entry e.order → e ∈ s.work →
         e.kind = .write → a.underWay = false → OrdersLawful s → RepliesLawful s →
         (c = .seekDone ∧ (s.seq.state = .seeking ∨ s.seq.state = .restoring) ∧ s.seq.accepted = true)
           ∨ (c = .seekTimeout ∧ s.seq.state = .seeking ∧ s.seq.seekTimer = some 0) →
         let kept : Entry := { e with done := e.done + a.done }
         let q : Sequencer :=
           if c = .seekDone then
             ended { s.seq with
               cylinder := some (if s.seq.state = .restoring then 0 else s.seq.seekTo), seekTimer := none, restoreTimer := none
               accepted := false }
           else
             { s.seq with
               access := none, seekTimeouts := min 2 (s.seq.seekTimeouts + 1), state := .restoring, cylinder := none
               accepted := false, seekTimer := none, restoreTimer := some 600, target := none, phase := .none, gate := false }
         let with_ (y : Entry) : State :=
           { s with ctlBuffer := .free, work := s.work.map (fun x => if x.order = e.order then y else x), seq := q }
         (s.volume.state = .mounted → ProtectWaits a →
           ∃ t, exec c s = .next t ∧ SameButReservations (entryEnded kept .writeProtected (with_ kept)) t)
           ∧ (s.volume.state = .mounted → PowerWaits a →
               ∃ t, exec c s = .next t
                 ∧ SameButReservations
                     (with_ { kept with state := .parked, run := none, allocated := 0, tornNext := a.tornResume }) t)
           ∧ (DrainWaits a s → ∃ t, exec c s = .next t ∧ DrainEnded (with_ kept) t))
    ∧ (∀ s : State, s.seq.state = .seeking → s.seq.seekTimer = some 0 →
         (∀ a, s.seq.access = some a → a.stops = [] ∧ s.volume.drainExpired = false
           ∧ (a.kind = .labelRead ∨ a.kind = .probe → s.volume.state = .mounting)) →
         exec .seekTimeout s = .next
           { s with seq := { s.seq with
               seekTimeouts := min 2 (s.seq.seekTimeouts + 1), state := .restoring, cylinder := none, accepted := false, seekTimer := none
               restoreTimer := some 600, target := none, phase := .none, gate := false
               access := s.seq.access.map (fun a => { a with restored := true }) } })

/-- The second seek timeout of an access (R117, R118): when its restore completes, the access has failed with a seek error and ends, nothing
recorded in the defect list. A work entry ends SEEK-ERROR, its sectors done kept; a posted write faults MEDIUM-ERROR (R105); the item of
a sweep's step is PARTIAL, a clearing step leaving a KNOWN fill mark as the last done step left it (R170), and under a stop that waits
the sweep ends with the results of that stop (R171, R172); a label read of a mount is a label found invalid (R151); a probe of the fill
search leaves its extent the fill mark 0, UNKNOWN, and the search goes on (R152); the store of STORING is not made, the map-modified flag
and the label state as they were, and STOP is issued in RELEASING (R159). At a RESTORE_TIMEOUT the entry has ended SEEK-ERROR before the
volume departs. That the mark is raised again also where an earlier attempt, cut in its DATA phase, had lowered it is log 41; that a
PROTECT stop of a sector under way is not taken at the end of its recalibration's command is log 38; that command accepted is no with no
command outstanding is log 33. -/
def Obligations.SecondSeekTimeout : Prop :=
  (∀ (a : Access) (s : State), s.seq.state = .restoring → s.seq.accepted = true → s.seq.seekTimeouts = 2 → s.seq.access = some a →
     (a.stops = [] ∨ (a.stops = [.protect] ∧ a.underWay = true)) → s.volume.drainExpired = false → OrdersLawful s → RepliesLawful s →
     let q : Sequencer := { s.seq with state := .idle, cylinder := some 0, seekTimer := none, restoreTimer := none, accepted := false }
     let u : State := { s with ctlBuffer := .free, seq := ended q }
     (∀ e ∈ s.work, a.owner = .entry e.order → a.kind ≠ .labelRead → a.kind ≠ .probe → s.volume.state = .mounted →
       ∃ t, exec .seekDone s = .next t
         ∧ SameButReservations
             (entryEnded { e with done := e.done + a.done } .seekError
               { u with work := s.work.map (fun x => if x.order = e.order then { x with done := e.done + a.done } else x) }) t)
       ∧ (∀ p ∈ s.posted, a.owner = .posted p.order → a.kind ≠ .labelRead → a.kind ≠ .probe → s.volume.state = .mounted →
           (∀ e ∈ s.work, e.state ≠ .watching) →
           ∃ t, exec .seekDone s = .next t ∧ SameButReservations (postedFaulted p .mediumError u) t)
       ∧ (∀ sw i, a.owner = .sweep → a.kind ≠ .labelRead → a.kind ≠ .probe → s.volume.state = .mounted → s.sweep = some sw →
           sw.current = some i →
           let asLastDone (f : Fill) : Fill := if f.state = .known ∧ f.mark = a.sector then { f with mark := a.sector + 1 } else f
           let v : State := match a.kind, a.slot with
             | .clearStep, some k => updFill k asLastDone u
             | _, _ => u
           let comes (w : State) : Prop := ∃ t, exec .seekDone s = .next t ∧ SameButReservations w t
           (sw.cause = none → comes (itemDone sw i .partly v)) ∧ (sw.cause = some .halt → comes (sweepHalted sw v))
             ∧ (sw.cause = some .protect → comes (sweepProtected sw v)))
       ∧ (a.owner = .volume → a.kind = .labelRead → s.volume.state = .mounting →
           ∃ t, exec .seekDone s = .next t
             ∧ SameButReservations (mounted { u with volume := { s.volume with label := some .unlabelled } }) t)
       ∧ (∀ k lo hi, a.owner = .volume → a.kind = .probe → s.volume.state = .mounting → s.volume.mount = .search k lo hi →
           ∃ t, exec .seekDone s = .next t
             ∧ SameButReservations (searchOn (k.val + 1) (updFill k (fun f => { f with mark := 0, state := .unknown }) u)) t)
       ∧ (a.owner = .volume → a.kind = .labelWrite → s.volume.state = .storing →
           ∃ t, exec .seekDone s = .next t
             ∧ SameButReservations
                 { u with
                   volume := { s.volume with state := .releasing }, seq := { ended q with state := .stopping, faultTimer := none } } t))
    ∧ (∀ (a : Access) (e : Entry) (s : State), s.seq.state = .restoring → s.seq.restoreTimer = some 0 → s.seq.seekTimeouts = 2 →
         s.seq.access = some a → a.stops = [] → s.volume.drainExpired = false → a.owner = .entry e.order → e ∈ s.work →
         a.kind ≠ .labelRead → a.kind ≠ .probe → s.volume.state ≠ .absent → OrdersLawful s → RepliesLawful s →
         ∃ t, exec .restoreTimeout s = .next t ∧ (e.discard = false → Ended e .seekError t) ∧ t.seq.state = .offline
           ∧ t.volume.state = .absent)

/-- SECTOR_PULSE (R119, R120): the counter's step; a SEARCHING sequencer whose target passes is TRANSFERRING in HEADER-CHECK, or in READ-BACK
for a sector just written; nothing else changes but the count of unsynchronised pulses of the search. With the twelfth of them the search
counts as one header failure of its sector, and, with attempts left, goes on. That a pulse while TRANSFERRING moves the counter only,
and that a pulse counts as unsynchronised when the counter is so before and after it and otherwise starts the count again, is the
model's choice (log 17). -/
def Obligations.SectorPulse : Prop :=
  ∀ (index : Bool) (s : State),
    let counter : Option Nat :=
      if index = true then some 0
      else match s.seq.counter with | some n => if n ≥ 11 then none else some (n + 1) | none => none
    (s.seq.state ≠ .searching ∨ s.seq.access = none →
      exec (.sectorPulse index) s = .next { s with seq := { s.seq with counter := counter } })
      ∧ (∀ a n, s.seq.state = .searching → s.seq.access = some a → counter = some n → s.seq.target = some n →
          exec (.sectorPulse index) s = .next
            { s with seq := { s.seq with
                counter := counter, state := .transferring
                phase := if a.pass = .readBack then .readBack else .headerCheck
                access := some { a with underWay := a.underWay || !a.kind.writes, unsync := 0 } } })
      ∧ (∀ a, s.seq.state = .searching → s.seq.access = some a → (∀ n, counter = some n → s.seq.target ≠ some n) →
          (s.seq.counter.isSome ∨ counter.isSome ∨ a.unsync < 11) →
          exec (.sectorPulse index) s = .next
            { s with seq := { s.seq with
                counter := counter
                access := some { a with unsync := if s.seq.counter = none ∧ counter = none then a.unsync + 1 else 0 } } })
      ∧ (∀ a, s.seq.state = .searching → s.seq.access = some a → s.seq.counter = none → index = false → a.unsync = 11 → a.pass = .work →
          a.kind ≠ .labelRead → a.kind ≠ .probe → s.volume.state = .mounted → RepliesLawful s →
          a.failed < (if a.kind.writes = true then s.writeRetries a else s.readRetries a) →
          ∃ t, exec (.sectorPulse index) s = .next t
            ∧ SameButReservations { s with seq := retried { a with unsync := 0, failed := a.failed + 1, further := false } s.seq } t)

/-- HEADER_READ_COMPLETE on a working passage (R121, R122, R124, R125, R127, R129): the right address clears the mismatches and
opens the gate for a write, or puts a WRITTEN sector of a read in DATA-READ; a wrong address adds a mismatch and is a failed
attempt, as is an unreadable header; with attempts left the sector is tried again, after a restore when two mismatches stand.
A header failure at a write's address check is treated as passed in the three cases of R127. HEADER_READ_COMPLETE on a BLANK or VOID sector
of a READ (R7, R89, R124): zero words in the sector's buffer and the condition reported at its index; then the next sector is sought, or,
at the request's last, the entry ends with its highest-ranked condition (R90), or, at the run's last with sectors remaining, it is at a run
boundary (R84), or, under an expired drain timer, ends VOLUME-GONE (R158). A write whose last allowed attempt fails at its address
check has one further attempt (R129), after a restore where none has been made for the sector, which is a recalibration, the mismatches
cleared, only when two of them stand; that it has this attempt also where a restore was made before is log 43. When it fails there too, the
sector is recorded with cause HEADER, and a WRITE's entry ends MEDIUM-ERROR with that condition at the sector's index. Where no write may
begin, the passage of a write is let go by, with nothing counted (log 37). -/
def Obligations.HeaderReadComplete : Prop :=
  (∀ (h : HeaderImage) (a : Access) (s : State), s.seq.state = .transferring → s.seq.phase = .headerCheck → s.seq.access = some a →
     a.pass = .work →
     let allowed : Prop := s.lineActive .fault = false ∧ s.ownerActive .fault = false ∧ s.powerPeriod ≠ some .immediate
       ∧ s.powerTaken ≠ some .immediate
     (AddressRight a h → a.kind.writes = true → allowed →
       exec (.headerReadComplete h) s = .next
         { s with seq := { s.seq with
             mismatches := 0, gate := true, phase := .header
             access := some { a with checkPassed := true, underWay := true } } })
       ∧ (AddressRight a h → a.kind.writes = true → ¬ allowed →
           exec (.headerReadComplete h) s = .next
             { s with seq := { s.seq with
                 mismatches := 0, state := .searching, head := a.sector % 24 / 12, target := some (a.sector % 12), phase := .none
                 gate := false, access := some { a with checkPassed := true, unsync := 0 } } })
       ∧ (a.waives = true ↔
           a.checkPassed = true ∨ a.tornResume = true ∨ (a.restored = true ∧ (a.kind = .clearStep ∨ a.kind = .labelWrite)))
       ∧ (h.check ≠ headerCheck h.cylinder h.head h.sector h.state → a.kind.writes = true → a.waives = true →
           (allowed →
             exec (.headerReadComplete h) s = .next
               { s with seq := { s.seq with gate := true, phase := .header, access := some { a with underWay := true } } })
             ∧ (¬ allowed →
                 exec (.headerReadComplete h) s = .next
                   { s with seq := { s.seq with
                       state := .searching, head := a.sector % 24 / 12, target := some (a.sector % 12), phase := .none
                       gate := false, access := some { a with unsync := 0 } } }))
       ∧ (RepliesLawful s → s.volume.state = .mounted → a.kind.writes = true → a.further = false → s.writeRetries a ≤ a.failed →
           (AddressWrong a h ∨ (h.check ≠ headerCheck h.cylinder h.head h.sector h.state ∧ a.waives = false)) →
           let mismatches := if AddressWrong a h then min 2 (s.seq.mismatches + 1) else s.seq.mismatches
           let counted : Access := { a with failed := a.failed + 1, further := true }
           (a.restored = false →
             ∃ t, exec (.headerReadComplete h) s = .next t
               ∧ SameButReservations
                   { s with seq := { s.seq with
                       mismatches := if 2 ≤ mismatches then 0 else mismatches
                       access := some { counted with restored := true }
                       state := .restoring, cylinder := none, accepted := false, seekTimer := none, restoreTimer := some 600
                       target := none, phase := .none, gate := false } } t)
             ∧ (a.restored = true →
                 ∃ t, exec (.headerReadComplete h) s = .next t
                   ∧ SameButReservations { s with seq := retried counted { s.seq with mismatches := mismatches } } t))
       ∧ (AddressRight a h → a.kind = .readRun ∨ a.kind = .scanStep ∨ a.kind = .labelRead → h.state = .written →
           exec (.headerReadComplete h) s = .next
             { s with seq := { s.seq with mismatches := 0, phase := .dataRead, access := some { a with checkPassed := true } } })
       ∧ (RepliesLawful s → s.volume.state = .mounted → a.kind ≠ .labelRead → a.kind ≠ .probe →
           a.failed < (if a.kind.writes = true then s.writeRetries a else s.readRetries a) →
           (AddressWrong a h →
             ∃ t, exec (.headerReadComplete h) s = .next t
               ∧ SameButReservations
                   { s with
                     seq := retried { a with failed := a.failed + 1, further := false }
                       { s.seq with mismatches := min 2 (s.seq.mismatches + 1) } } t)
             ∧ (h.check ≠ headerCheck h.cylinder h.head h.sector h.state → a.kind.writes = false ∨ a.waives = false →
                 ∃ t, exec (.headerReadComplete h) s = .next t
                   ∧ SameButReservations { s with seq := retried { a with failed := a.failed + 1, further := false } s.seq } t)))
    ∧ (∀ (h : HeaderImage) (a : Access) (e : Entry) (s : State), s.seq.state = .transferring → s.seq.phase = .headerCheck →
         s.seq.access = some a → a.pass = .work → a.kind = .readRun → a.owner = .entry e.order → e ∈ s.work → e.kind = .read →
         AddressRight a h → h.state ≠ .written → a.stops = [] → OrdersLawful s → RepliesLawful s →
         let mounted : Prop := s.volume.state = .mounted
         let unstopped : Prop := mounted ∧ s.volume.drainExpired = false
         let q : Sequencer := { s.seq with mismatches := 0 }
         let conditions := addCondition (a.sector - e.first) (if h.state = .blank then .blank else .void) e.conditions
         let zeroed : Entry :=
           { e with readBuffers := e.readBuffers ++ [List.replicate 256 0], allocated := e.allocated - 1, conditions := conditions }
         let next : Entry := { zeroed with done := e.done + (a.done + 1) }
         let stoppedBy (y : Entry) : State :=
           { s with ctlBuffer := .free, work := s.work.map (fun x => if x.order = e.order then y else x), seq := ended q }
         (a.sector + 1 < a.runEnd → unstopped →
           ∃ t, exec (.headerReadComplete h) s = .next t
             ∧ SameButReservations
                 { s with
                   work := s.work.map (fun x => if x.order = e.order then zeroed else x)
                   seq := retried (turned { a with done := a.done + 1 } (a.sector + 1)) q } t)
           ∧ (a.sector + 1 = a.runEnd → e.done + a.done + 1 = e.count → mounted →
               let last : Entry := { zeroed with done := e.count }
               let has (c : Condition) : Prop := ∃ i, (i, c) ∈ conditions
               ∃ t code, exec (.headerReadComplete h) s = .next t
                 ∧ (has .mediumError → code = .mediumError)
                 ∧ (¬ has .mediumError → has .checkMismatch → code = .checkMismatch)
                 ∧ (¬ has .mediumError → ¬ has .checkMismatch → has .void → code = .void)
                 ∧ (¬ has .mediumError → ¬ has .checkMismatch → ¬ has .void → code = .blank)
                 ∧ SameButReservations (entryEnded last code (stoppedBy last)) t)
           ∧ (a.sector + 1 = a.runEnd → e.done + a.done + 1 < e.count → unstopped →
               ∃ t, exec (.headerReadComplete h) s = .next t ∧ AtBoundary next (stoppedBy next) t)
           ∧ (DrainWaits a s → a.sector + 1 < a.runEnd ∨ (a.sector + 1 = a.runEnd ∧ e.done + a.done + 1 < e.count) →
               ∃ t, exec (.headerReadComplete h) s = .next t ∧ DrainEnded (stoppedBy next) t))
    ∧ (∀ (h : HeaderImage) (a : Access) (e : Entry) (s : State), s.seq.state = .transferring → s.seq.phase = .headerCheck →
         s.seq.access = some a → a.pass = .work → a.kind = .writeRun → a.owner = .entry e.order → e ∈ s.work → e.kind = .write →
         a.further = true → s.writeRetries a ≤ a.failed →
         AddressWrong a h ∨ (h.check ≠ headerCheck h.cylinder h.head h.sector h.state ∧ a.waives = false) →
         s.volume.state = .mounted → OrdersLawful s → RepliesLawful s →
         let y : Entry :=
           { e with done := e.done + a.done, conditions := addCondition (a.sector - e.first) .mediumError e.conditions }
         ∃ t, exec (.headerReadComplete h) s = .next t
           ∧ SameButReservations
               (entryEnded y .mediumError
                 { s with
                   ctlBuffer := .free, work := s.work.map (fun x => if x.order = e.order then y else x)
                   seq := ended (defectRecorded a .header s.clock (headerSeen a h s.seq)) }) t)

/-- HEADER_PHASE_COMPLETE (R5, R6, R8, R22, R24, R169): the access's header stands whole on its sector, its address, state and check word
written, every other sector and the data field as they were, and the DATA phase follows; the fill mark advances for an APPEND's own
write at it and falls for a clearing step just below it on a KNOWN extent. The words and bit order of the check are log 5. -/
def Obligations.HeaderPhaseComplete : Prop :=
  ∀ (a : Access) (s : State), s.seq.state = .transferring → s.seq.phase = .header → s.seq.access = some a → placeOf a < 7680 →
    ∃ t, exec .headerPhaseComplete s = .next t
      ∧ mediumAt t.medium (placeOf a) = some
          { header := .whole (headerOn (placeOf a) (writtenState a))
            data := match mediumAt s.medium (placeOf a) with | some r => r.data | none => .untouched }
      ∧ (∀ b, b ≠ placeOf a → mediumAt t.medium b = mediumAt s.medium b)
      ∧ (∀ k, t.extent k = if a.slot = some k then (s.extent k).map (fun e => { e with fill := e.fill.map (fun f =>
            if a.kind = .appendRun ∧ a.pass = .work ∧ f.mark = a.sector then { f with mark := f.mark + 1 }
            else if a.kind = .clearStep ∧ f.state = .known ∧ f.mark = a.sector + 1 then { f with mark := a.sector }
            else f) }) else s.extent k)
      ∧ t = { s with medium := t.medium, extents := t.extents, seq := { s.seq with phase := .data } }

/-- DATA_PHASE_COMPLETE of a WRITE's run (R6, R8, R99, R127, R128): the gate closes and the sector's 256 words stand on the medium with their
check word, every other sector as it was. With verify the sector is sought again for its read-back; without, its buffer is released, under
FORCE its defect list entry is removed (R136), and, with sectors of the run to come, the next is sought; at the request's last sector the
entry ends DONE, whatever stop waits, and at the run's last, with sectors remaining, it is at a run boundary (R84). A stop that waits is
taken at the sector's end with sectors remaining: under PROTECT the entry ends WRITE-PROTECTED (R146), under POWER it is PARKED (R144), its
sectors done kept; under an expired drain timer it ends VOLUME-GONE with the rest of the volume work (R158). The bit order of the check is
log 5; that PROTECT goes before a waiting POWER stop is log 14. -/
def Obligations.DataPhaseComplete : Prop :=
  ∀ (a : Access) (e : Entry) (ws : List Word) (rest : List (List Word)) (s : State), s.seq.state = .transferring →
    s.seq.phase = .data → s.seq.access = some a → placeOf a < 7680 → a.pass = .work → a.kind = .writeRun →
    a.owner = .entry e.order → e ∈ s.work → e.kind = .write → e.writeBuffers = ws :: rest → OrdersLawful s → RepliesLawful s →
    let m := mediumSet (placeOf a) { header := .whole (headerOn (placeOf a) .written), data := .whole ws (crc ws) } s.medium
    let q : Sequencer := { s.seq with gate := false, phase := .none }
    let b : Access := { a with checkPassed := true, tornResume := false }
    let forced : Sequencer := if e.flags.force = true then defectRemoved a q else q
    let y : Entry := { e with writeBuffers := rest, done := e.done + (a.done + 1) }
    let u : State :=
      { s with medium := m, ctlBuffer := .free, work := s.work.map (fun x => if x.order = e.order then y else x), seq := ended forced }
    (a.verify = true → exec .dataPhaseComplete s = .next { s with medium := m, seq := retried { b with pass := .readBack } q })
      ∧ (a.verify = false → a.sector + 1 < a.runEnd → s.volume.state = .mounted → Unstopped a s →
          ∃ t, exec .dataPhaseComplete s = .next t
            ∧ SameButReservations
                { s with
                  medium := m
                  work := s.work.map (fun x => if x.order = e.order then { x with writeBuffers := rest } else x)
                  seq := retried (turned { b with done := a.done + 1 } (a.sector + 1)) forced } t)
      ∧ (a.verify = false → a.sector + 1 = a.runEnd → e.done + a.done + 1 < e.count → s.volume.state = .mounted → Unstopped a s →
          ∃ t, exec .dataPhaseComplete s = .next t ∧ AtBoundary y u t)
      ∧ (a.verify = false → a.sector + 1 = a.runEnd → e.done + a.done + 1 = e.count →
          (s.volume.state = .mounted → ∃ t, exec .dataPhaseComplete s = .next t ∧ SameButReservations (entryEnded y .done u) t)
            ∧ (DrainWaits a s → e.discard = false → e.flags.quiet = false → ∃ t, exec .dataPhaseComplete s = .next t ∧ Ended e .done t))
      ∧ (a.verify = false → a.sector + 1 < a.runEnd ∨ (a.sector + 1 = a.runEnd ∧ e.done + a.done + 1 < e.count) →
          (s.volume.state = .mounted → s.volume.drainExpired = false → ProtectWaits a ∨ PowerWaits a →
            ∃ t, exec .dataPhaseComplete s = .next t ∧ EntryStopped a y u t)
            ∧ (DrainWaitsInWrite a s → ∃ t, exec .dataPhaseComplete s = .next t ∧ DrainEnded u t))

/-- An APPEND's run at a sector (R22, R25, R99, R130). Its DATA phase completed without verify, the data sector is counted appended: its
buffer released, appends pending one lower; the sector at the fill mark is next, or, past the run's cylinder, a run boundary (R84); the
entry ends DONE with its last sector, or EXTENT-FULL at the extent's end. With verify it is counted so once its read-back passes. A sector
write that fails its last attempt is recorded, with cause WRITE when that was its last allowed one and failed at its read-back, and with cause
HEADER when it was the one further attempt after a last allowed one failed at its address check (R129), and answered by a VOID marking (R131): a VOID
header and zero words by the marking write, then its check. The check passed, the fill mark passes the sector if it had not, the condition VOID is reported and
the data sector goes on at the fill mark; failed, the sector is recorded again, the fill state is UNKNOWN, the APPEND ends MEDIUM-ERROR
and every other unfinished APPEND of the extent FILL-UNKNOWN (R23). A marking write whose address check fails is a failed marking too. A
stop that waits is taken at the sector's end with data remaining and the extent not full: under PROTECT the entry ends WRITE-PROTECTED
(R146), under POWER it is PARKED (R144), under an expired drain timer it ends VOLUME-GONE with the rest of the volume work (R158). That
EXTENT-FULL goes before a waiting stop is log 34, and that PROTECT goes before a waiting POWER stop log 14. That a failed marking check is
recorded WRITE and a failed marking write HEADER is log 32. That the header of a read-back, as that of an address check, moves the count of
mismatches (R122) is log 23. -/
def Obligations.AppendSectorAndMarking : Prop :=
  ∀ (a : Access) (k : Slot) (x : Extent) (f : Fill) (e : Entry) (ws : List Word) (rest : List (List Word)) (s : State),
    s.seq.state = .transferring → s.seq.access = some a → a.kind = .appendRun → a.slot = some k → a.owner = .entry e.order →
    e ∈ s.work → e.kind = .append → e.slot = some k → e.writeBuffers = ws :: rest → s.extent k = some x → x.fill = some f →
    placeOf a < 7680 → OrdersLawful s → RepliesLawful s →
    let mounted : Prop := s.volume.state = .mounted
    let stopped : Prop := mounted ∧ s.volume.drainExpired = false ∧ (ProtectWaits a ∨ PowerWaits a)
    let index := e.count - e.writeBuffers.length
    let put (st : HeaderState) (ws : List Word) : List (Nat × SectorRecord) :=
      mediumSet (placeOf a) { header := .whole (headerOn (placeOf a) st), data := .whole ws (crc ws) } s.medium
    let q : Sequencer := { s.seq with gate := false, phase := .none }
    let b : Access := { a with checkPassed := true, tornResume := false }
    let u : State := updFill k (fun g => { g with pending := g.pending - 1 }) { s with medium := put .written ws }
    let zeros : List Word := List.replicate 256 0
    let one : Entry := { e with writeBuffers := rest, done := e.done + (a.done + 1) }
    let counted (u : State) (q : Sequencer) : State :=
      { u with ctlBuffer := .free, work := s.work.map (fun z => if z.order = e.order then one else z), seq := ended q }
    (s.seq.phase = .data → a.pass = .work → a.verify = true →
      exec .dataPhaseComplete s = .next { s with medium := put .written ws, seq := retried { b with pass := .readBack } q })
      ∧ (s.seq.phase = .data → a.pass = .work → a.verify = false →
          (rest ≠ [] → f.mark < a.size → f.mark < a.runEnd → mounted → Unstopped a s →
            ∃ t, exec .dataPhaseComplete s = .next t
              ∧ SameButReservations
                  { u with
                    work := s.work.map (fun y => if y.order = e.order then { y with writeBuffers := rest } else y)
                    seq := retried (turned { b with done := a.done + 1 } f.mark) q } t)
            ∧ (rest ≠ [] → f.mark < a.size → a.runEnd ≤ f.mark → e.done + a.done + 1 < e.count → mounted → Unstopped a s →
                ∃ t, exec .dataPhaseComplete s = .next t ∧ AtBoundary one (counted u q) t)
            ∧ (rest ≠ [] → a.size ≤ f.mark → mounted →
                ∃ t, exec .dataPhaseComplete s = .next t ∧ SameButReservations (entryEnded one .extentFull (counted u q)) t)
            ∧ (rest = [] → e.done + a.done + 1 = e.count →
                (mounted → ∃ t, exec .dataPhaseComplete s = .next t ∧ SameButReservations (entryEnded one .done (counted u q)) t)
                  ∧ (DrainWaits a s → e.discard = false → e.flags.quiet = false →
                      ∃ t, exec .dataPhaseComplete s = .next t ∧ Ended e .done t))
            ∧ (rest ≠ [] → f.mark < a.size → f.mark < a.runEnd ∨ e.done + a.done + 1 < e.count →
                (stopped → ∃ t, exec .dataPhaseComplete s = .next t ∧ EntryStopped a one (counted u q) t)
                  ∧ (DrainWaitsInWrite a s → ∃ t, exec .dataPhaseComplete s = .next t ∧ DrainEnded (counted u q) t)))
      ∧ (∀ (h : HeaderImage) (g : FieldImage), s.seq.phase = .readBack → a.pass = .readBack → rest ≠ [] → f.mark < a.size →
          AddressRight a h → h.state = .written → g.check = crc g.data.toList → g.data.toList = ws →
          let u : State := updFill k (fun g => { g with pending := g.pending - 1 }) s
          let q : Sequencer := { s.seq with mismatches := 0 }
          (f.mark < a.runEnd → mounted → Unstopped a s →
            ∃ t, exec (.readBackComplete h g) s = .next t
              ∧ SameButReservations
                  { u with
                    work := s.work.map (fun y => if y.order = e.order then { y with writeBuffers := rest } else y)
                    seq := retried (turned { a with done := a.done + 1 } f.mark) q } t)
            ∧ (f.mark < a.runEnd ∨ e.done + a.done + 1 < e.count →
                (stopped → ∃ t, exec (.readBackComplete h g) s = .next t ∧ EntryStopped a one (counted u q) t)
                  ∧ (DrainWaitsInWrite a s → ∃ t, exec (.readBackComplete h g) s = .next t ∧ DrainEnded (counted u q) t)))
      ∧ (∀ (h : HeaderImage) (g : FieldImage), mounted → s.seq.phase = .readBack → a.pass = .readBack → s.writeRetries a ≤ a.failed →
          ¬ (AddressRight a h ∧ h.state = .written ∧ g.check = crc g.data.toList ∧ g.data.toList = ws) →
          ∃ t, exec (.readBackComplete h g) s = .next t
            ∧ SameButReservations
                { s with
                  seq := retried
                    { a with checkPassed := if AddressRight a h then true else a.checkPassed, failed := a.failed + 1, further := false
                             pass := .marking }
                    (defectRecorded a (if a.further = true then .header else .write) s.clock (headerSeen a h s.seq)) } t)
      ∧ (∀ h : HeaderImage, mounted → s.seq.phase = .headerCheck → a.pass = .work → a.further = true → s.writeRetries a ≤ a.failed →
          AddressWrong a h ∨ (h.check ≠ headerCheck h.cylinder h.head h.sector h.state ∧ a.waives = false) →
          ∃ t, exec (.headerReadComplete h) s = .next t
            ∧ SameButReservations
                { s with
                  seq := retried { a with failed := a.failed + 1, further := false, pass := .marking }
                    (defectRecorded a .header s.clock (headerSeen a h s.seq)) } t)
      ∧ (s.seq.phase = .data → a.pass = .marking →
          exec .dataPhaseComplete s = .next { s with medium := put .void zeros, seq := retried { b with pass := .markCheck } q })
      ∧ (∀ h : HeaderImage, mounted → s.seq.phase = .headerCheck → a.pass = .marking →
          AddressWrong a h ∨ (h.check ≠ headerCheck h.cylinder h.head h.sector h.state ∧ a.checkPassed = false) →
          (∀ z ∈ s.work, z.kind = .append → z.slot = some k → z.order = e.order) → (∀ p ∈ s.posted, ¬ (p.kind = .append ∧ p.slot = k)) →
          let y : Entry := { e with done := e.done + a.done, conditions := addCondition index .mediumError e.conditions }
          ∃ t, exec (.headerReadComplete h) s = .next t
            ∧ SameButReservations
                (updFill k (fun g => { g with state := .unknown })
                  (entryEnded y .mediumError
                    { s with
                      ctlBuffer := .free
                      work := s.work.map (fun z => if z.order = e.order then y else z)
                      seq := ended (defectRecorded a .header s.clock (headerSeen a h s.seq)) })) t)
      ∧ (∀ h : HeaderImage, s.seq.phase = .headerCheck → a.pass = .markCheck →
          let mark := if f.mark = a.sector then f.mark + 1 else f.mark
          let passes : Prop := AddressRight a h ∧ h.state = .void
          let y : Entry := { e with done := e.done + a.done, conditions := addCondition index .mediumError e.conditions }
          let voided : Entry := { e with done := e.done + a.done, conditions := addCondition index .void e.conditions }
          let u : State :=
            { updFill k (fun g => { g with mark := mark }) s with
              ctlBuffer := .free, work := s.work.map (fun z => if z.order = e.order then voided else z)
              seq := ended { s.seq with mismatches := 0 } }
          (passes → mark < a.size → mark < a.runEnd → mounted → Unstopped a s →
            ∃ t, exec (.headerReadComplete h) s = .next t
              ∧ SameButReservations
                  { updFill k (fun g => { g with mark := mark }) s with
                    work := s.work.map (fun z => if z.order = e.order then { z with conditions := addCondition index .void z.conditions } else z)
                    seq := retried (turned a mark) { s.seq with mismatches := 0 } } t)
            ∧ (passes → mark < a.size → a.runEnd ≤ mark → e.done + a.done < e.count → mounted → Unstopped a s →
                ∃ t, exec (.headerReadComplete h) s = .next t ∧ AtBoundary voided u t)
            ∧ (passes → a.size ≤ mark → mounted →
                ∃ t, exec (.headerReadComplete h) s = .next t ∧ SameButReservations (entryEnded voided .extentFull u) t)
            ∧ (passes → mark < a.size → mark < a.runEnd ∨ e.done + a.done < e.count →
                (stopped → ∃ t, exec (.headerReadComplete h) s = .next t ∧ EntryStopped a voided u t)
                  ∧ (DrainWaitsInWrite a s → ∃ t, exec (.headerReadComplete h) s = .next t ∧ DrainEnded u t))
            ∧ (¬ passes → mounted → (∀ z ∈ s.work, z.kind = .append → z.slot = some k → z.order = e.order) →
                (∀ p ∈ s.posted, ¬ (p.kind = .append ∧ p.slot = k)) →
                ∃ t, exec (.headerReadComplete h) s = .next t
                  ∧ SameButReservations
                      (updFill k (fun g => { g with state := .unknown })
                        (entryEnded y .mediumError
                          { s with
                            ctlBuffer := .free
                            work := s.work.map (fun z => if z.order = e.order then y else z)
                            seq := ended (defectRecorded a .write s.clock (headerSeen a h s.seq)) })) t)
            ∧ (¬ passes → mounted → ∃ t, exec (.headerReadComplete h) s = .next t
                ∧ (∀ z ∈ s.work, z.kind = .append → z.slot = some k → z.order ≠ e.order → z.state = .queued ∨ z.state = .parked →
                    z.discard = false → Ended z .fillUnknown t)
                ∧ ∀ p ∈ s.posted, p.kind = .append → p.slot = k → p.committing = false → ∀ z ∈ t.posted, z.order ≠ p.order))

/-- The last sector of a posted WRITE (R8, R99, R104, R108): under FORCE its sector leaves the defect list (R136); the posted write commits and
leaves the posted list with nothing reported; of a posted APPEND with its torn field set it faults MEDIUM-ERROR, every sector counted. A
FLUSH watching a posted write learns its end: with others watched it goes on watching those; with none left it ends DONE, or FAULTED when
this or an earlier one of them faulted, as one cut by FAULT does (R140). The last sector of a commit run with sectors remaining, a WRITE's
or an APPEND's, leads to the tests of a run boundary (R84, R103). A stop that waits is taken at a sector's end with sectors remaining: under
PROTECT the posted write faults WRITE-PROTECTED (R146), under POWER it is PENDING again, its sectors committed kept (R144), under an expired
drain timer it faults VOLUME-GONE with the rest of the volume work (R158). That PROTECT goes before a waiting POWER stop is log 14. -/
def Obligations.PostedCommitAndFlushEnd : Prop :=
  ∀ (a : Access) (p : Posted) (s : State), s.seq.access = some a → a.pass = .work → a.owner = .posted p.order → p ∈ s.posted →
    placeOf a < 7680 → OrdersLawful s → RepliesLawful s →
    let mounted : Prop := s.volume.state = .mounted
    let stopped : Prop := mounted ∧ s.volume.drainExpired = false ∧ (ProtectWaits a ∨ PowerWaits a)
    let q : Sequencer := { s.seq with gate := false, phase := .none }
    let quiet : Prop := ∀ e ∈ s.work, e.state ≠ .watching
    let learns (fault : Bool) (t : State) : Prop :=
      ∀ e ∈ s.work, e.state = .watching → p.order ∈ e.watched → e.discard = false → e.flags.quiet = false →
        ((∀ n ∈ e.watched, n = p.order) → Ended e (if fault || e.faultSeen then .faulted else .done) t)
          ∧ ((∃ n ∈ e.watched, n ≠ p.order) → ∃ y ∈ t.work, bareEntry y = bareEntry
              { e with watched := e.watched.filter (fun n => n ≠ p.order), faultSeen := e.faultSeen || fault })
    (∀ ws, mounted → s.seq.state = .transferring → s.seq.phase = .data → a.kind = .writeRun → a.verify = false → a.sector + 1 = a.runEnd →
       p.kind = .write → p.buffers = [ws] → p.torn = false →
       ∃ t, exec .dataPhaseComplete s = .next t ∧ t.logs = s.logs ∧ learns false t
         ∧ (quiet → SameButReservations
             (postedLeft p
               { s with
                 medium := mediumSet (placeOf a) { header := .whole (headerOn (placeOf a) .written), data := .whole ws (crc ws) } s.medium
                 ctlBuffer := .free, seq := ended (if p.force = true then defectRemoved a q else q) }) t))
      ∧ (∀ ws, mounted → s.seq.state = .transferring → s.seq.phase = .data → a.kind = .appendRun → a.slot = some p.slot → a.verify = false →
           p.kind = .append → p.buffers = [ws] → p.torn = true →
           ∃ t, exec .dataPhaseComplete s = .next t ∧ learns true t
             ∧ (quiet → SameButReservations
                 (postedFaulted { p with committed := p.committed + 1, buffers := [] } .mediumError
                   (updFill p.slot (fun g => { g with pending := g.pending - 1 })
                     { s with
                       medium := mediumSet (placeOf a) { header := .whole (headerOn (placeOf a) .written), data := .whole ws (crc ws) } s.medium
                       ctlBuffer := .free, seq := ended q })) t))
      ∧ (∀ ws rest, s.seq.state = .transferring → s.seq.phase = .data → a.kind = .writeRun → a.verify = false → p.buffers = ws :: rest →
           rest ≠ [] → quiet →
           let y : Posted := { p with committed := p.committed + 1, buffers := rest }
           let u : State :=
             { s with
               medium := mediumSet (placeOf a) { header := .whole (headerOn (placeOf a) .written), data := .whole ws (crc ws) } s.medium
               ctlBuffer := .free, posted := s.posted.map (fun x => if x.order = p.order then y else x)
               seq := ended (if p.force = true then defectRemoved a q else q) }
           (a.sector + 1 = a.runEnd → mounted → Unstopped a s → ∃ t, exec .dataPhaseComplete s = .next t ∧ AtPostedBoundary y u t)
             ∧ (a.sector + 1 ≤ a.runEnd → stopped → ∃ t, exec .dataPhaseComplete s = .next t ∧ PostedStopped a y u t)
             ∧ (a.sector + 1 ≤ a.runEnd → DrainWaitsInWrite a s → ∃ t, exec .dataPhaseComplete s = .next t ∧ DrainEnded u t))
      ∧ (∀ ws rest x f, s.seq.state = .transferring → s.seq.phase = .data → a.kind = .appendRun → a.slot = some p.slot → a.verify = false →
           p.kind = .append → p.buffers = ws :: rest → rest ≠ [] → s.extent p.slot = some x → x.fill = some f → f.mark < a.size → quiet →
           let y : Posted := { p with committed := p.committed + 1, buffers := rest }
           let u : State :=
             updFill p.slot (fun g => { g with pending := g.pending - 1 })
               { s with
                 medium := mediumSet (placeOf a) { header := .whole (headerOn (placeOf a) .written), data := .whole ws (crc ws) } s.medium
                 ctlBuffer := .free, posted := s.posted.map (fun z => if z.order = p.order then y else z), seq := ended q }
           (a.runEnd ≤ f.mark → mounted → Unstopped a s → ∃ t, exec .dataPhaseComplete s = .next t ∧ AtPostedBoundary y u t)
             ∧ (stopped → ∃ t, exec .dataPhaseComplete s = .next t ∧ PostedStopped a y u t)
             ∧ (DrainWaitsInWrite a s → ∃ t, exec .dataPhaseComplete s = .next t ∧ DrainEnded u t))
      ∧ (mounted → a.stops = [] → s.ownerActive .fault = false → s.seq.state = .transferring ∨ s.seq.state = .searching ∨ s.seq.state = .seeking →
           a.kind = .writeRun → ∃ t, exec .faultActive (takenBy .owner s) = .next t ∧ learns true t)

/-- DATA_READ_COMPLETE of a READ's run (R90, R124, R125, R126): a good field fills the sector's buffer as read, with CHECK-MISMATCH where its
check span's sum differs; then the next sector is sought, or, at the request's last sector, the entry ends with its highest-ranked
condition or DONE, or, at the run's last with sectors remaining, it is at a run boundary (R84, R98). A bad field with attempts left is read
again; after the last one the sector is recorded with cause READ (R135), its buffer filled with zero words and MEDIUM-ERROR reported, and
the run goes on, the sector counted like any other. Under an expired drain timer the run stops at the sector's end, and with sectors
remaining the entry ends VOLUME-GONE, the sectors read counted, with the rest of the volume work (R158). -/
def Obligations.DataReadComplete : Prop :=
  ∀ (f : FieldImage) (a : Access) (e : Entry) (s : State), s.seq.state = .transferring → s.seq.phase = .dataRead →
    s.seq.access = some a → a.pass = .work → a.kind = .readRun → a.owner = .entry e.order → e ∈ s.work → e.kind = .read →
    a.stops = [] → OrdersLawful s → RepliesLawful s →
    let mounted : Prop := s.volume.state = .mounted
    let unstopped : Prop := mounted ∧ s.volume.drainExpired = false
    let stoppedBy (y : Entry) (q : Sequencer) : State :=
      { s with ctlBuffer := .free, work := s.work.map (fun x => if x.order = e.order then y else x), seq := ended q }
    let more : Prop := a.sector + 1 < a.runEnd ∨ (a.sector + 1 = a.runEnd ∧ e.done + a.done + 1 < e.count)
    let conditions := if spanHolds e.span f.data.toList = true then e.conditions
      else addCondition (a.sector - e.first) .checkMismatch e.conditions
    let filled : Entry :=
      { e with readBuffers := e.readBuffers ++ [f.data.toList], allocated := e.allocated - 1, conditions := conditions }
    (f.check = crc f.data.toList → a.sector + 1 < a.runEnd → unstopped →
      ∃ t, exec (.dataReadComplete f) s = .next t
        ∧ SameButReservations
            { s with
              work := s.work.map (fun x => if x.order = e.order then filled else x)
              seq := retried (turned { a with done := a.done + 1 } (a.sector + 1)) s.seq } t)
      ∧ (f.check = crc f.data.toList → a.sector + 1 = a.runEnd → e.done + a.done + 1 = e.count → mounted →
          let last : Entry := { filled with done := e.count }
          let has (c : Condition) : Prop := ∃ i, (i, c) ∈ conditions
          ∃ t code, exec (.dataReadComplete f) s = .next t
            ∧ (has .mediumError → code = .mediumError)
            ∧ (¬ has .mediumError → has .checkMismatch → code = .checkMismatch)
            ∧ (¬ has .mediumError → ¬ has .checkMismatch → has .void → code = .void)
            ∧ (¬ has .mediumError → ¬ has .checkMismatch → ¬ has .void → has .blank → code = .blank)
            ∧ (conditions = [] → code = .done)
            ∧ SameButReservations
                (entryEnded last code
                  { s with ctlBuffer := .free, work := s.work.map (fun x => if x.order = e.order then last else x), seq := ended s.seq })
                t)
      ∧ (f.check ≠ crc f.data.toList → a.failed < s.readRetries a → mounted →
          ∃ t, exec (.dataReadComplete f) s = .next t
            ∧ SameButReservations { s with seq := retried { a with failed := a.failed + 1, further := false } s.seq } t)
      ∧ (f.check = crc f.data.toList → a.sector + 1 = a.runEnd → e.done + a.done + 1 < e.count → unstopped →
          let y : Entry := { filled with done := e.done + (a.done + 1) }
          ∃ t, exec (.dataReadComplete f) s = .next t ∧ AtBoundary y (stoppedBy y s.seq) t)
      ∧ (f.check = crc f.data.toList → DrainWaits a s →
          let y : Entry := { filled with done := e.done + (a.done + 1) }
          (more → ∃ t, exec (.dataReadComplete f) s = .next t ∧ DrainEnded (stoppedBy y s.seq) t)
            ∧ (a.sector + 1 = a.runEnd → e.done + a.done + 1 = e.count → conditions = [] → e.discard = false → e.flags.quiet = false →
                ∃ t, exec (.dataReadComplete f) s = .next t ∧ Ended e .done t))
      ∧ (f.check ≠ crc f.data.toList → s.readRetries a ≤ a.failed →
          let zeroed : Entry :=
            { e with readBuffers := e.readBuffers ++ [List.replicate 256 0], allocated := e.allocated - 1
                     conditions := addCondition (a.sector - e.first) .mediumError e.conditions }
          let q := defectRecorded a .read s.clock s.seq
          (a.sector + 1 < a.runEnd → unstopped →
            ∃ t, exec (.dataReadComplete f) s = .next t
              ∧ SameButReservations
                  { s with
                    work := s.work.map (fun x => if x.order = e.order then zeroed else x)
                    seq := retried (turned { a with done := a.done + 1 } (a.sector + 1)) q } t)
            ∧ (a.sector + 1 = a.runEnd → e.done + a.done + 1 = e.count → mounted →
                let last : Entry := { zeroed with done := e.count }
                ∃ t, exec (.dataReadComplete f) s = .next t
                  ∧ SameButReservations
                      (entryEnded last .mediumError
                        { s with ctlBuffer := .free, work := s.work.map (fun x => if x.order = e.order then last else x), seq := ended q })
                      t)
            ∧ (a.sector + 1 = a.runEnd → e.done + a.done + 1 < e.count → unstopped →
                let y : Entry := { zeroed with done := e.done + (a.done + 1) }
                ∃ t, exec (.dataReadComplete f) s = .next t ∧ AtBoundary y (stoppedBy y q) t)
            ∧ (more → DrainWaits a s →
                let y : Entry := { zeroed with done := e.done + (a.done + 1) }
                ∃ t, exec (.dataReadComplete f) s = .next t ∧ DrainEnded (stoppedBy y q) t))

/-- READ_BACK_COMPLETE of a WRITE's run (R128, R129): a read-back that shows the sector as written counts it, under FORCE its defect list
entry is removed (R136), and the next sector of the run is sought; at the request's last sector the entry ends DONE, and at the run's last
with sectors remaining it is at a run boundary (R84). Any other, an unreadable or another header among them, is a failed
attempt: with attempts left the sector is written again; after the last one it is recorded, with cause WRITE, or HEADER when this was the one
further attempt after the last allowed one failed at its address check, and the entry ends MEDIUM-ERROR with that condition at the sector's
index. A stop that waits is taken at the sector's end with sectors remaining: under PROTECT the entry ends
WRITE-PROTECTED (R146), under POWER it is PARKED (R144), under an expired drain timer it ends VOLUME-GONE with the rest of the volume work
(R158). That PROTECT goes before a waiting POWER stop is log 14; that a read-back's header moves the count of mismatches is log 23.
READ_BACK_COMPLETE of a label write (R159, R161, R162): one that shows the label as written ends a MAP-STORE DONE, the label state VALID
with the serial written, the map-modified flag clear but for a MAP-LOAD seen since the access began; the store of STORING leaves the label
state VALID and the flag clear, and STOP is issued in RELEASING. After the last failed attempt a MAP-STORE ends MEDIUM-ERROR with that
condition at index 0, nothing else changed, and the store ends in RELEASING with the flag as it was. That command accepted is no with no
command outstanding is log 33. -/
def Obligations.ReadBackComplete : Prop :=
  (∀ (h : HeaderImage) (f : FieldImage) (a : Access) (e : Entry) (ws : List Word) (rest : List (List Word)) (s : State),
    s.seq.state = .transferring → s.seq.phase = .readBack → s.seq.access = some a → a.pass = .readBack → a.kind = .writeRun →
    a.owner = .entry e.order → e ∈ s.work → e.kind = .write → e.writeBuffers = ws :: rest → OrdersLawful s → RepliesLawful s →
    let mounted : Prop := s.volume.state = .mounted
    let good : Prop := AddressRight a h ∧ h.state = .written ∧ f.check = crc f.data.toList ∧ f.data.toList = ws
    let passed : Sequencer :=
      if e.flags.force = true then defectRemoved a { s.seq with mismatches := 0 } else { s.seq with mismatches := 0 }
    let y : Entry := { e with writeBuffers := rest, done := e.done + (a.done + 1) }
    let u : State := { s with ctlBuffer := .free, work := s.work.map (fun x => if x.order = e.order then y else x), seq := ended passed }
    let cause : DefectCause := if a.further = true then .header else .write
    (good → a.sector + 1 < a.runEnd → mounted → Unstopped a s →
      ∃ t, exec (.readBackComplete h f) s = .next t
        ∧ SameButReservations
            { s with
              work := s.work.map (fun x => if x.order = e.order then { x with writeBuffers := rest } else x)
              seq := retried (turned { a with done := a.done + 1 } (a.sector + 1)) passed } t)
      ∧ (good → a.sector + 1 = a.runEnd → e.done + a.done + 1 < e.count → mounted → Unstopped a s →
          ∃ t, exec (.readBackComplete h f) s = .next t ∧ AtBoundary y u t)
      ∧ (good → a.sector + 1 = a.runEnd → e.done + a.done + 1 = e.count →
          (mounted → ∃ t, exec (.readBackComplete h f) s = .next t ∧ SameButReservations (entryEnded y .done u) t)
            ∧ (DrainWaits a s → e.discard = false → e.flags.quiet = false → ∃ t, exec (.readBackComplete h f) s = .next t ∧ Ended e .done t))
      ∧ (good → a.sector + 1 < a.runEnd ∨ (a.sector + 1 = a.runEnd ∧ e.done + a.done + 1 < e.count) →
          (mounted → s.volume.drainExpired = false → ProtectWaits a ∨ PowerWaits a →
            ∃ t, exec (.readBackComplete h f) s = .next t ∧ EntryStopped a y u t)
            ∧ (DrainWaitsInWrite a s → ∃ t, exec (.readBackComplete h f) s = .next t ∧ DrainEnded u t))
      ∧ (¬ good → a.failed < s.writeRetries a → mounted →
          ∃ t, exec (.readBackComplete h f) s = .next t
            ∧ SameButReservations
                { s with
                  seq := retried
                    { a with checkPassed := if AddressRight a h then true else a.checkPassed, failed := a.failed + 1
                             further := false, pass := .work }
                    (headerSeen a h s.seq) } t)
      ∧ (¬ good → s.writeRetries a ≤ a.failed → mounted →
          let y : Entry :=
            { e with done := e.done + a.done, conditions := addCondition (a.sector - e.first) .mediumError e.conditions }
          ∃ t, exec (.readBackComplete h f) s = .next t
            ∧ SameButReservations
                (entryEnded y .mediumError
                  { s with
                    ctlBuffer := .free, work := s.work.map (fun x => if x.order = e.order then y else x)
                    seq := ended (defectRecorded a cause s.clock (headerSeen a h s.seq)) }) t))
    ∧ (∀ (h : HeaderImage) (f : FieldImage) (a : Access) (l : Label) (s : State), s.seq.state = .transferring → s.seq.phase = .readBack →
         s.seq.access = some a → a.pass = .readBack → a.kind = .labelWrite → s.ctlBuffer = .label l → OrdersLawful s → RepliesLawful s →
         let good : Prop :=
           AddressRight a h ∧ h.state = .written ∧ f.check = crc f.data.toList ∧ f.data.toList = (Config.labelWords l).toList
         let cause : DefectCause := if a.further = true then .header else .write
         let stopping (q : Sequencer) : Sequencer :=
           { ended q with state := .stopping, accepted := false, seekTimer := none, restoreTimer := none, faultTimer := none }
         (∀ e ∈ s.work, a.owner = .entry e.order → e.kind = .mapStore → s.volume.state = .mounted →
           (good → ∃ t, exec (.readBackComplete h f) s = .next t
             ∧ SameButReservations
                 (entryEnded e .done
                   { s with
                     ctlBuffer := .free, seq := ended { s.seq with mismatches := 0 }
                     volume := { s.volume with
                       label := some .valid, serial := some l.serial, mapModified := a.mapLoadSeen && s.volume.mapModified } }) t)
             ∧ (¬ good → s.writeRetries a ≤ a.failed →
                 let y : Entry := { e with done := e.done + a.done, conditions := addCondition 0 .mediumError e.conditions }
                 ∃ t, exec (.readBackComplete h f) s = .next t
                   ∧ SameButReservations
                       (entryEnded y .mediumError
                         { s with
                           ctlBuffer := .free, work := s.work.map (fun x => if x.order = e.order then y else x)
                           seq := ended (defectRecorded a cause s.clock (headerSeen a h s.seq)) }) t))
           ∧ (a.owner = .volume → s.volume.state = .storing →
               (good → ∃ t, exec (.readBackComplete h f) s = .next t
                 ∧ SameButReservations
                     { s with
                       ctlBuffer := .free, seq := stopping { s.seq with mismatches := 0 }
                       volume := { s.volume with state := .releasing, label := some .valid, mapModified := false } } t)
                 ∧ (¬ good → s.writeRetries a ≤ a.failed → ∃ t, exec (.readBackComplete h f) s = .next t
                     ∧ SameButReservations
                         { s with
                           ctlBuffer := .free, seq := stopping (defectRecorded a cause s.clock (headerSeen a h s.seq))
                           volume := { s.volume with state := .releasing } } t))
           ∧ (¬ good → a.failed < s.writeRetries a → s.volume.state = .mounted ∨ s.volume.state = .storing →
               ∃ t, exec (.readBackComplete h f) s = .next t
                 ∧ SameButReservations
                     { s with
                       seq := retried
                         { a with checkPassed := if AddressRight a h then true else a.checkPassed, failed := a.failed + 1
                                  further := false, pass := .work }
                         (headerSeen a h s.seq) } t))

/-- The end of a sweep's step (R124, R125, R127, R128, R129, R167, R169, R170, R171, R172, R173). A clearing step, done with its DATA phase
or, with verify, once its read-back finds a BLANK header, takes its sector off the defect list and goes down, and at relative sector 0 an
APPEND extent has fill mark 0 and is KNOWN; a scanning step, over a sector with a good data field or with a BLANK or VOID header, goes up to
the size. The item's pass complete, its result is DONE, or FAILED-SECTORS after a failure, and the next item is current, or the sweep is
over. A failed sector is recorded and fails its item; of a CLEAR of an APPEND extent it ends the item with the fill mark just above it. A
step cut by FAULT, or a clearing step cut by POWER in IMMEDIATE mode, at once or as its SEEK or RESTORE ends (R133, R140, R145), leaves the
sweep where it stood, and, cut on the sector at fill mark - 1 of a KNOWN extent, whose HEADER phase has then not completed, the fill state
UNKNOWN (R23).
With a halt or a PROTECT stop waiting the sweep ends at the step's end, done or failed, HALT with PARTIAL, PROTECT with PROTECTED and
PARTIAL, but for the last step of the last item, whose result stands. That the stop's result stands for an item completed under it that is
not the last is log 19; that the last item of a halted CLEAR keeps its result also when PROTECT came after the halt is log 47; that the
header of a read-back, as that of an address check, moves the count of mismatches (R122) is log 23; that POWER is taken by the sequencer before the line monitor or after it is log 9; that a cut waits for a command
outstanding is log 15; that command accepted is no with no command outstanding is log 33. -/
def Obligations.SweepStepEnds : Prop :=
  (∀ (a : Access) (sw : Sweep) (i : Nat) (it : SweepItem) (x : Extent) (s : State), s.seq.state = .transferring → s.seq.access = some a →
    a.owner = .sweep → a.slot = some it.slot → s.sweep = some sw → sw.current = some i → sw.items[i]? = some it →
    s.extent it.slot = some x → placeOf a < 7680 → OrdersLawful s → RepliesLawful s → s.volume.state = .mounted →
    let q : Sequencer := { s.seq with gate := false, phase := .none }
    let passed : SweepResult := if it.failed = true then .failedSectors else .done
    let failed : Sweep := { sw with items := sw.items.modify i (fun y => { y with failed := true }) }
    let resulted (w : Sweep) (r : SweepResult) : Sweep := { w with items := w.items.modify i (fun y => { y with result := some r }) }
    let zeros : List Word := List.replicate 256 0
    let left (q : Sequencer) : State := { s with ctlBuffer := .free, seq := ended q }
    let comes (c : Instr) (u : State) : Prop := ∃ t, exec c s = .next t ∧ SameButReservations u t
    let cleared (c : Instr) (u : State) : Prop :=
      let v := if a.sector = 0 then updFill it.slot (fun f => { f with mark := 0, state := .known }) u else u
      let wholly : Prop := a.sector = 0 ∧ i + 1 = sw.items.length
      (sw.cause = none → a.sector ≠ 0 → comes c { u with sweep := some { sw with sector := some (a.sector - 1) } })
        ∧ (sw.cause = none → a.sector = 0 → comes c (itemDone sw i passed v))
        ∧ (sw.cause = some .halt → ¬ wholly → comes c (sweepHalted sw v))
        ∧ (sw.cause = some .halt → wholly → comes c (sweepHalted (resulted sw passed) v))
        ∧ (sw.cause = some .protect → ¬ wholly → comes c (sweepProtected sw v))
        ∧ (sw.cause = some .protect → wholly → comes c (sweepProtected (resulted sw passed) v))
    let uncleared (c : Instr) (u : State) : Prop :=
      let v := if x.fill.isSome = true then updFill it.slot (fun f => { f with mark := a.sector + 1 }) u else u
      let ends : Prop := x.fill.isSome = true ∨ a.sector = 0
      let wholly : Prop := ends ∧ i + 1 = sw.items.length
      (sw.cause = none → ¬ ends → comes c { u with sweep := some { failed with sector := some (a.sector - 1) } })
        ∧ (sw.cause = none → ends → comes c (itemDone failed i .failedSectors v))
        ∧ (sw.cause = some .halt → ¬ wholly → comes c (sweepHalted sw v))
        ∧ (sw.cause = some .halt → wholly → comes c (sweepHalted (resulted failed .failedSectors) v))
        ∧ (sw.cause = some .protect → ¬ wholly → comes c (sweepProtected sw v))
        ∧ (sw.cause = some .protect → wholly → comes c (sweepProtected (resulted failed .failedSectors) v))
    let scanned (c : Instr) (w : Sweep) (r : SweepResult) (u : State) : Prop :=
      let wholly : Prop := a.sector + 1 = a.size ∧ i + 1 = sw.items.length
      (sw.cause = none → a.sector + 1 < a.size → comes c { u with sweep := some { w with sector := some (a.sector + 1) } })
        ∧ (sw.cause = none → a.sector + 1 = a.size → comes c (itemDone w i r u))
        ∧ (sw.cause = some .halt → a.sector + 1 ≤ a.size → ¬ wholly → comes c (sweepHalted sw u))
        ∧ (sw.cause = some .halt → wholly → comes c (sweepHalted (resulted w r) u))
    (s.seq.phase = .data → a.kind = .clearStep → a.pass = .work → a.verify = false →
      cleared .dataPhaseComplete
        { left (defectRemoved a q) with
          medium := mediumSet (placeOf a) { header := .whole (headerOn (placeOf a) .blank), data := .whole zeros (crc zeros) } s.medium })
      ∧ (∀ (h : HeaderImage) (f : FieldImage), s.seq.phase = .readBack → a.kind = .clearStep → a.pass = .readBack →
          let good : Prop := AddressRight a h ∧ h.state = .blank
          let cause : DefectCause := if a.further = true then .header else .write
          (good → cleared (.readBackComplete h f) (left (defectRemoved a { s.seq with mismatches := 0 })))
            ∧ (¬ good → a.failed < s.writeRetries a →
                comes (.readBackComplete h f)
                  { s with
                    seq := retried
                      { a with checkPassed := if AddressRight a h then true else a.checkPassed, failed := a.failed + 1
                               further := false, pass := .work }
                      (headerSeen a h s.seq) })
            ∧ (¬ good → s.writeRetries a ≤ a.failed →
                uncleared (.readBackComplete h f) (left (defectRecorded a cause s.clock (headerSeen a h s.seq)))))
      ∧ (∀ h : HeaderImage, s.seq.phase = .headerCheck → a.kind = .clearStep → a.pass = .work → a.further = true →
          s.writeRetries a ≤ a.failed → AddressWrong a h →
          uncleared (.headerReadComplete h) (left (defectRecorded a .header s.clock (headerSeen a h s.seq))))
      ∧ (∀ h : HeaderImage, s.seq.phase = .headerCheck → a.kind = .scanStep → a.pass = .work →
          (AddressRight a h → h.state ≠ .written → scanned (.headerReadComplete h) sw passed (left { s.seq with mismatches := 0 }))
            ∧ (¬ AddressRight a h → s.readRetries a ≤ a.failed →
                scanned (.headerReadComplete h) failed .failedSectors (left (defectRecorded a .header s.clock (headerSeen a h s.seq)))))
      ∧ (∀ f : FieldImage, s.seq.phase = .dataRead → a.kind = .scanStep → a.pass = .work →
          (f.check = crc f.data.toList → scanned (.dataReadComplete f) sw passed (left s.seq))
            ∧ (f.check ≠ crc f.data.toList → s.readRetries a ≤ a.failed →
                scanned (.dataReadComplete f) failed .failedSectors (left (defectRecorded a .read s.clock s.seq)))))
    ∧ (∀ (a : Access) (sw : Sweep) (k : Slot) (s : State), s.seq.access = some a → a.owner = .sweep → a.slot = some k →
         s.sweep = some sw → sw.cause = none → OrdersLawful s → RepliesLawful s → s.volume.state = .mounted →
         let known : Prop := (s.fill k).map (fun f => (f.state, f.mark)) = some (.known, a.sector + 1)
         let alone : Prop := (∀ z ∈ s.work, ¬ (z.kind = .append ∧ z.slot = some k)) ∧ ∀ p ∈ s.posted, ¬ (p.kind = .append ∧ p.slot = k)
         let leaves (c : Instr) (v u : State) : Prop :=
           let cut : State := { u with ctlBuffer := .free, medium := cutMedium s }
           (a.kind = .scanStep ∨ ¬ known → ∃ t, exec c v = .next t ∧ SameButReservations cut t)
             ∧ (a.kind = .clearStep → known → alone →
                 ∃ t, exec c v = .next t ∧ SameButReservations (updFill k (fun f => { f with state := .unknown }) cut) t)
         (s.ownerActive .fault = false → a.stops = [] → a.kind = .clearStep ∨ a.kind = .scanStep →
           s.seq.state ∈ [SeqState.restoring, .seeking, .searching, .transferring] →
           leaves .faultActive (takenBy .owner s)
             { actedOn .fault true s with
               seq := { s.seq with
                 access := none, state := .notSafe, cylinder := none, target := none, phase := .none, gate := false, accepted := false
                 seekTimer := none, restoreTimer := none, faultTimer := some 2000 } })
           ∧ (∀ rest early, s.ownerActive .power = false → a.kind = .clearStep → s.seq.state ≠ .seeking → s.seq.state ≠ .restoring →
               (s.powerOwed = .immediate :: rest ∧ early = s.powerEarly)
                 ∨ (s.powerOwed = [] ∧ rest = [] ∧ s.settings.powerMode = .immediate ∧ early = s.powerEarly + 1) →
               leaves .powerActive (takenBy .owner s)
                 { actedOn .power true s with
                   powerTaken := some .immediate, powerOwed := rest, powerEarly := early, seq := ended s.seq })
           ∧ (a.kind = .clearStep → a.stops = [.cut] → s.seq.state = .seeking ∨ s.seq.state = .restoring → s.seq.accepted = true →
               leaves .seekDone s
                 { s with seq := ended { s.seq with
                     cylinder := some (if s.seq.state = .restoring then 0 else s.seq.seekTo), seekTimer := none, restoreTimer := none
                     accepted := false } }))

/-- The accesses of a mount (R11, R34, R151, R152, R153). A label read whole and valid by R11 gives the volume its label state VALID, its
serial, its extents and its defect list, and the fill search begins at the first APPEND extent, or, with none, the mount completes; a
label read invalid, a BLANK or VOID one or one not read in its last attempt among them, leaves the volume UNLABELLED with its tables
empty, as they were before, a failed label sector not recorded (R135), and the mount completes. A probe that reads a header halves its search; where the bounds meet stands the fill mark, KNOWN; one
that fails its last attempt is recorded and leaves the mark 0, UNKNOWN; then the search goes on with the next APPEND extent, or the mount
completes: MOUNTED, with VOLUME-CHANGE at both ports. The fill fields before an extent's search ends are log 31. -/
def Obligations.MountLabelAndFillSearch : Prop :=
  (∀ (a : Access) (s : State), s.seq.state = .transferring → s.seq.access = some a → a.kind = .labelRead → a.owner = .volume →
     a.cls = none → a.pass = .work → a.base = 0 → a.sector = 0 → s.volume.state = .mounting → RepliesLawful s →
     (∀ k, s.extent k = none) → s.seq.defects = [] →
     let u : State := { s with ctlBuffer := .free, seq := ended s.seq }
     let unlabelled (u : State) : State := mounted { u with volume := { s.volume with label := some .unlabelled } }
     let tablesEmpty (t : State) : Prop := (∀ k, t.extent k = none) ∧ t.seq.defects = []
     (∀ (f : FieldImage) (l : Label), s.seq.phase = .dataRead → f.check = crc f.data.toList → f.contents = some l → LabelLawful l →
       ∃ ds : List Defect,
         ds.map (fun d => ({ cylinder := d.cylinder, head := d.head, sector := d.sector, cause := d.cause.code,
                             firstSeen := d.firstSeen, count := d.count } : RawDefect)) = l.defects
           ∧ ∃ t, exec (.dataReadComplete f) s = .next t
             ∧ SameButReservations
                 (searchOn 0
                   { u with
                     volume := { s.volume with label := some .valid, serial := some l.serial }
                     extents := Vector.ofFn (fun k => ((l.map.get k).bind wellFormedDefinition).map (fun d =>
                       { defn := d, fill := if d.kind = .append then some { mark := 0, state := .unknown, pending := 0 } else none
                         clearing := false }))
                     seq := { ended s.seq with defects := ds, overflow := false } }) t)
       ∧ (∀ f : FieldImage, s.seq.phase = .dataRead → f.check = crc f.data.toList → (∀ l, f.contents = some l → ¬ LabelLawful l) →
           ∃ t, exec (.dataReadComplete f) s = .next t ∧ SameButReservations (unlabelled u) t ∧ tablesEmpty t)
       ∧ (∀ f : FieldImage, s.seq.phase = .dataRead → f.check ≠ crc f.data.toList → 4 ≤ a.failed →
           ∃ t, exec (.dataReadComplete f) s = .next t ∧ SameButReservations (unlabelled u) t ∧ tablesEmpty t)
       ∧ (∀ h : HeaderImage, s.seq.phase = .headerCheck → AddressRight a h → h.state ≠ .written →
           ∃ t, exec (.headerReadComplete h) s = .next t
             ∧ SameButReservations (unlabelled { u with seq := ended { s.seq with mismatches := 0 } }) t ∧ tablesEmpty t))
    ∧ (∀ (h : HeaderImage) (a : Access) (k : Slot) (lo hi : Nat) (x : Extent) (s : State), s.seq.state = .transferring →
         s.seq.phase = .headerCheck → s.seq.access = some a → a.kind = .probe → a.owner = .volume → a.cls = none → a.pass = .work →
         s.volume.state = .mounting → s.volume.mount = .search k lo hi → s.extent k = some x → RepliesLawful s →
         let u : State := { s with ctlBuffer := .free, seq := ended { s.seq with mismatches := 0 } }
         let lo' := if h.state = .blank then lo else (lo + hi) / 2 + 1
         let hi' := if h.state = .blank then (lo + hi) / 2 else hi
         (AddressRight a h → lo' < hi' →
           ∃ t, exec (.headerReadComplete h) s = .next t ∧ SameButReservations (probing k x.defn lo' hi' u) t)
           ∧ (AddressRight a h → hi' ≤ lo' →
               ∃ t, exec (.headerReadComplete h) s = .next t
                 ∧ SameButReservations (searchOn (k.val + 1) (updFill k (fun f => { f with mark := lo', state := .known }) u)) t)
           ∧ (¬ AddressRight a h → 4 ≤ a.failed →
               ∃ t, exec (.headerReadComplete h) s = .next t
                 ∧ SameButReservations
                     (searchOn (k.val + 1) (updFill k (fun f => { f with mark := 0, state := .unknown })
                       { u with seq := ended (defectRecorded a .header s.clock (headerSeen a h s.seq)) })) t))

/-- STORE_BEGIN (R159): in STORING, with the drive free and no write hold, the label's contents as the state holds them go to the controller
buffer and the label write begins; with PROTECT active the store is not made, and STOP is issued in RELEASING. That command accepted is no
with no command outstanding is log 33. -/
def Obligations.StoreBegin : Prop :=
  ∀ s : State, s.volume.state = .storing → s.seq.access = none → s.seq.state = .idle → s.powerPeriod = none → RepliesLawful s →
    (∀ serial, s.ownerActive .protect = false → s.volume.serial = some serial →
      ∃ t, exec .storeBegin s = .next t
        ∧ SameButReservations
            { s with
              ctlBuffer := .label (labelOf serial s)
              seq := begun (Access.begin .volume .labelWrite (some .setup) true none 0 0 1 1) s.seq } t)
      ∧ (s.ownerActive .protect = true →
          ∃ t, exec .storeBegin s = .next t
            ∧ SameButReservations
                { s with volume := { s.volume with state := .releasing }
                         seq := { s.seq with state := .stopping, target := none, phase := .none, gate := false, accepted := false,
                                             seekTimer := none, restoreTimer := none, faultTimer := none } } t)

/-! ## The reported lines -/

/-- A line's change as the line monitor and the blocks that act on it take it, each as an event of its own and in no order (R137): taken by
the monitor alone it changes the level and is reported to the ports whose masks include the line (R138); taken by an acting block alone,
where the change has no action (DOOR_CLOSE, UNLOAD_RELEASED, PROTECT_INACTIVE: R139, R146), it leaves every level and report as they were;
taken by both, it is the one after the other. So a STATUS may fall between them. A change to the level that the taker has changes
nothing (log 1). That who takes a change is said beside the queue of commands, both where nothing is said, and that the blocks that act on a
line take it in one step, is the model's choice (log 9). -/
def Obligations.LinesByTaker : Prop :=
  (∀ (l : Line) (active : Bool) (s : State),
     (s.lineActive l = active → exec (lineCommand l active) (takenBy .monitor s) = .next s)
       ∧ (s.ownerActive l = active → exec (lineCommand l active) (takenBy .owner s) = .next s)
       ∧ (l ≠ .power → s.lineActive l ≠ active → exec (lineCommand l active) (takenBy .monitor s) = .next (lineTaken l active s))
       ∧ ∃ u t, exec (lineCommand l active) (takenBy .monitor s) = .next u ∧ exec (lineCommand l active) (takenBy .owner u) = .next t
           ∧ exec (lineCommand l active) (takenBy .both s) = .next t ∧ (s.takers = [] → exec (lineCommand l active) s = .next t))
    ∧ (∀ (l : Line) (active : Bool) (s : State), s.lineActive l ≠ active → s.ownerActive l ≠ active →
         ∃ u t, exec (lineCommand l active) (takenBy .owner s) = .next u ∧ u.lineActive l = s.lineActive l ∧ u.ownerActive l = active
           ∧ exec (lineCommand l active) (takenBy .monitor u) = .next t ∧ t.lineActive l = active ∧ t.ownerActive l = active)
    ∧ (∀ s : State,
         (s.ownerActive .door = true → exec .doorClose (takenBy .owner s) = .next (actedOn .door false s))
           ∧ (s.ownerActive .unload = true → exec .unloadReleased (takenBy .owner s) = .next (actedOn .unload false s))
           ∧ (s.ownerActive .protect = true → exec .protectInactive (takenBy .owner s) = .next (actedOn .protect false s)))

/-- READY_ACTIVE (R149, R150), by the blocks that act on it: with the volume ABSENT a mount begins: MOUNTING under the next generation, after
255 again 1, and a RESTORE issued, or, with FAULT ACTIVE, the sequencer UNSAFE with FAULT-CLEAR issued; otherwise nothing follows. The
record of the medium begins anew with a cartridge that may be another (log 7). UNLOAD_PRESSED (R148, R154, R157), by the volume manager:
a MOUNTED volume drains, its drain timer started from the settings, and with no work of its own the drain ends at once, in STORING or
RELEASING; an open sweep is halted, at once with no step in progress, its items without a result PARTIAL, or, with one, at that step's end
(R171); a mount is cut to RELEASING; in every other state nothing follows. The line monitor's part is a change of its own (log 9). That a
halt after a waiting PROTECT stop leaves that stop's cause is log 36; that command accepted is no with no command outstanding is log 33. -/
def Obligations.ReadyActiveAndUnloadPressed : Prop :=
  (∀ s : State, s.ownerActive .ready = false →
     let u := actedOn .ready true s
     (s.volume.state ≠ .absent → exec .readyActive (takenBy .owner s) = .next u)
       ∧ (s.volume.state = .absent → s.seq.state = .noCartridge → s.seq.access = none →
           exec .readyActive (takenBy .owner s) = .next
             { u with
               medium := []
               volume := { s.volume with
                 state := .mounting, generation := if s.volume.generation = 255 then 1 else s.volume.generation + 1, label := none
                 serial := none, mapModified := false, mount := .restore }
               seq := { s.seq with
                 state := if s.ownerActive .fault = true then .notSafe else .restoring
                 cylinder := none, accepted := false, seekTimer := none, target := none, phase := .none, gate := false
                 restoreTimer := if s.ownerActive .fault = true then none else some 600
                 faultTimer := if s.ownerActive .fault = true then some 2000 else s.seq.faultTimer } }))
    ∧ (∀ s : State, s.ownerActive .unload = false → RepliesLawful s →
         let u := actedOn .unload true s
         let store : Prop := s.volume.mapModified = true ∧ s.settings.storeOnUnload = true ∧ s.volume.label = some .valid
         let draining : State :=
           { u with volume := { s.volume with
               state := .draining, drainTimer := some s.settings.drainTimeout, drainExpired := false } }
         let storing : State := { u with volume := { s.volume with state := .storing, drainTimer := none, drainExpired := false } }
         let stopping : State :=
           { u with
             volume := { s.volume with state := .releasing, drainTimer := none, drainExpired := false }
             seq := { s.seq with state := .stopping, target := none, phase := .none, gate := false, accepted := false,
                                 seekTimer := none, restoreTimer := none, faultTimer := none } }
         (s.volume.state = .mounted → s.sweep = none → (s.posted ≠ [] ∨ ∃ e ∈ s.work, e.live = true) →
           ∃ t, exec .unloadPressed (takenBy .owner s) = .next t ∧ SameButReservations draining t)
           ∧ (s.volume.state = .mounted → s.sweep = none → s.posted = [] → (∀ e ∈ s.work, e.live = false) → s.seq.state = .idle →
               s.seq.access = none →
               ∃ t, exec .unloadPressed (takenBy .owner s) = .next t
                 ∧ (store → SameButReservations storing t) ∧ (¬ store → SameButReservations stopping t))
           ∧ (∀ sw, s.volume.state = .mounted → s.sweep = some sw → (∀ a, s.seq.access = some a → a.owner ≠ .sweep) →
               (s.posted ≠ [] ∨ ∃ e ∈ s.work, e.live = true) →
               ∃ t, exec .unloadPressed (takenBy .owner s) = .next t ∧ SameButReservations (sweepHalted sw draining) t)
           ∧ (∀ sw, s.volume.state = .mounted → s.sweep = some sw → s.posted = [] → (∀ e ∈ s.work, e.live = false) →
               s.seq.state = .idle → s.seq.access = none →
               ∃ t, exec .unloadPressed (takenBy .owner s) = .next t
                 ∧ (store → SameButReservations (sweepHalted sw storing) t) ∧ (¬ store → SameButReservations (sweepHalted sw stopping) t))
           ∧ (∀ sw a, s.volume.state = .mounted → s.sweep = some sw → s.seq.access = some a → a.owner = .sweep →
               ∃ t, exec .unloadPressed (takenBy .owner s) = .next t
                 ∧ SameButReservations { draining with sweep := some { sw with halt := true, cause := some (sw.cause.getD .halt) } } t)
           ∧ (s.volume.state = .mounting → s.seq.access ≠ none ∨ s.seq.state ≠ .idle →
               ∃ t, exec .unloadPressed (takenBy .owner s) = .next t
                 ∧ SameButReservations { u with volume := { s.volume with state := .releasing, mount := .none } } t)
           ∧ (s.volume.state ≠ .mounted → s.volume.state ≠ .mounting → exec .unloadPressed (takenBy .owner s) = .next u))

/-- PROTECT_ACTIVE (R146, R172), by the write shutdown and the sweep unit: with no write in progress nothing follows for it; a write with a
sector under way or a command outstanding has a stop to take; a WRITE's run with none ends at once, WRITE-PROTECTED, with its sectors
done kept. A CLEAR that has not ended ends at once, PROTECTED and PARTIAL, or with a step under way at that step's end; one already
halted keeps its cause. A SCAN goes on. The line monitor's part is a change of its own (log 9). -/
def Obligations.ProtectActive : Prop :=
  ∀ s : State, s.ownerActive .protect = false → RepliesLawful s → OrdersLawful s → s.volume.state = .mounted →
    let u := actedOn .protect true s
    let scans : Prop := ∀ sw, s.sweep = some sw → sw.kind = .scan
    (scans → (∀ a, s.seq.access = some a → a.kind.writes = false) → ∃ t, exec .protectActive (takenBy .owner s) = .next t ∧ SameButReservations u t)
      ∧ (∀ a, scans → s.seq.access = some a → a.kind.writes = true →
          (a.underWay = true ∨ s.seq.state = .seeking ∨ s.seq.state = .restoring) → .protect ∉ a.stops →
          ∃ t, exec .protectActive (takenBy .owner s) = .next t
            ∧ SameButReservations { u with seq := { s.seq with access := some { a with stops := a.stops ++ [.protect] } } } t)
      ∧ (∀ a e, scans → s.seq.access = some a → a.kind = .writeRun → a.owner = .entry e.order → e ∈ s.work → e.kind = .write →
          a.underWay = false → s.seq.state ≠ .seeking → s.seq.state ≠ .restoring →
          ∃ t, exec .protectActive (takenBy .owner s) = .next t
            ∧ SameButReservations
                (entryEnded { e with done := e.done + a.done } .writeProtected
                  { u with
                    ctlBuffer := .free
                    work := s.work.map (fun x => if x.order = e.order then { x with done := e.done + a.done } else x)
                    seq := ended s.seq }) t)
      ∧ (∀ sw, s.sweep = some sw → sw.kind = .clear → (∀ a, s.seq.access = some a → a.kind.writes = false ∧ a.owner ≠ .sweep) →
          ∃ t, exec .protectActive (takenBy .owner s) = .next t ∧ SameButReservations (sweepProtected sw u) t)
      ∧ (∀ sw a, s.sweep = some sw → sw.kind = .clear → s.seq.access = some a → a.owner = .sweep → a.kind = .clearStep → a.stops = [] →
          let stopping : Sweep := { sw with cause := some (sw.cause.getD .protect) }
          (a.underWay = true ∨ s.seq.state = .seeking ∨ s.seq.state = .restoring →
            ∃ t, exec .protectActive (takenBy .owner s) = .next t
              ∧ SameButReservations { u with sweep := some stopping, seq := { s.seq with access := some { a with stops := [.protect] } } } t)
            ∧ (a.underWay = false → s.seq.state ≠ .seeking → s.seq.state ≠ .restoring →
                let stopped : State := { u with ctlBuffer := .free, seq := ended s.seq }
                (sw.cause = none → ∃ t, exec .protectActive (takenBy .owner s) = .next t ∧ SameButReservations (sweepProtected sw stopped) t)
                  ∧ (sw.cause = some .halt →
                      ∃ t, exec .protectActive (takenBy .owner s) = .next t ∧ SameButReservations (sweepHalted sw stopped) t)))

/-- FAULT_ACTIVE (R9, R140), by the sequencer: it is UNSAFE, its gate closed, its command abandoned, the arm's position unknown, FAULT-
CLEAR issued for 2,000 ms. A WRITE cut in its DATA phase ends WRITE-FAULT and leaves its sector torn; a READ is PARKED; a commit
run's posted write faults WRITE-FAULT. In UNSAFE, STOPPING, OFFLINE and NO-CARTRIDGE nothing follows. FAULT_INACTIVE (R142): in UNSAFE
the persistence timer stops and a RESTORE is issued; in every other state nothing follows. The line monitor's part is a change of its
own (log 9). That command accepted is no with no command outstanding is log 33. -/
def Obligations.FaultLine : Prop :=
  (∀ s : State, s.ownerActive .fault = false → RepliesLawful s → OrdersLawful s →
     let u := actedOn .fault true s
     let q : Sequencer := { s.seq with
       access := none, state := .notSafe, cylinder := none, target := none, phase := .none, gate := false, accepted := false
       seekTimer := none, restoreTimer := none, faultTimer := some 2000 }
     let takes : Prop := s.seq.state ≠ .noCartridge ∧ s.seq.state ≠ .notSafe ∧ s.seq.state ≠ .stopping ∧ s.seq.state ≠ .offline
     (¬ takes → exec .faultActive (takenBy .owner s) = .next u)
       ∧ (takes → s.seq.access = none → s.volume.state = .mounted →
           ∃ t, exec .faultActive (takenBy .owner s) = .next t ∧ SameButReservations { u with seq := q } t)
       ∧ (∀ a e, takes → s.seq.access = some a → a.stops = [] → a.kind = .writeRun → a.pass = .work → a.owner = .entry e.order →
           e ∈ s.work → e.kind = .write → s.seq.phase = .data → placeOf a < 7680 → s.volume.state = .mounted →
           ∃ t, exec .faultActive (takenBy .owner s) = .next t
             ∧ SameButReservations
                 (entryEnded { e with done := e.done + a.done } .writeFault
                   { u with
                     ctlBuffer := .free
                     medium := mediumSet (placeOf a) { header := .whole (headerOn (placeOf a) .written), data := .torn } s.medium
                     work := s.work.map (fun x => if x.order = e.order then { x with done := e.done + a.done } else x)
                     seq := q }) t)
       ∧ (∀ a e, takes → s.seq.access = some a → a.stops = [] → a.kind = .readRun → a.owner = .entry e.order → e ∈ s.work →
           s.seq.phase ≠ .header → s.seq.phase ≠ .data → s.volume.state = .mounted →
           ∃ t, exec .faultActive (takenBy .owner s) = .next t
             ∧ SameButReservations
                 { u with
                   ctlBuffer := .free
                   work := s.work.map (fun x => if x.order = e.order then
                     { x with done := e.done + a.done, state := .parked, run := none, allocated := 0, tornNext := false } else x)
                   seq := q } t)
       ∧ (∀ a p, takes → s.seq.access = some a → a.stops = [] → a.kind = .writeRun → a.owner = .posted p.order → p ∈ s.posted →
           s.seq.phase ≠ .header → s.seq.phase ≠ .data → (∀ e ∈ s.work, e.state ≠ .watching) → s.volume.state = .mounted →
           ∃ t, exec .faultActive (takenBy .owner s) = .next t
             ∧ SameButReservations (postedFaulted p .writeFault { u with ctlBuffer := .free, seq := q }) t))
    ∧ (∀ s : State, s.ownerActive .fault = true →
         let u := actedOn .fault false s
         (s.seq.state = .notSafe →
           exec .faultInactive (takenBy .owner s) = .next
             { u with seq := { s.seq with
                 state := .restoring, cylinder := none, accepted := false, seekTimer := none, restoreTimer := some 600, faultTimer := none
                 target := none, phase := .none, gate := false, access := s.seq.access.map (fun a => { a with restored := true }) } })
           ∧ (s.seq.state ≠ .notSafe → exec .faultInactive (takenBy .owner s) = .next u))

/-- POWER_ACTIVE and POWER_INACTIVE (R143, R144, R145). As the line monitor takes them a period begins with the shutdown mode as it stands,
and ends, withdrawing a stop not yet taken. The sequencer takes POWER active after the line monitor or before it (R137), in the mode of the
oldest period that it has still to take, or, with none, of the settings (log 9): in SECTOR-END mode a run with a sector under way has a stop
to take, but none when that period has ended before, which has withdrawn it; in IMMEDIATE mode the gate closes and a WRITE's run cut in its
DATA phase is PARKED, its sector torn and not counted, or, with PROTECT taken first, ends WRITE-PROTECTED (R146, log 34), and a MAP-STORE's
label write so cut is PARKED, PROTECT taken first or not (R146, R161); without a write in progress nothing more follows. -/
def Obligations.PowerLine : Prop :=
  ∀ s : State,
    (s.lineActive .power = false →
      exec .powerActive (takenBy .monitor s) = .next
        { lineTaken .power true s with
          powerPeriod := some s.settings.powerMode, powerEarly := s.powerEarly - 1
          powerOwed := if s.powerEarly = 0 then s.powerOwed ++ [s.settings.powerMode] else s.powerOwed })
      ∧ (s.lineActive .power = true → s.powerEarly = 0 →
          exec .powerInactive (takenBy .monitor s) = .next
            { lineTaken .power false s with
              powerPeriod := none
              seq := { s.seq with access := s.seq.access.map (fun a => { a with stops := a.stops.filter (fun c => c ≠ .power) }) } })
      ∧ (s.lineActive .power = true → s.powerEarly ≠ 0 →
          exec .powerInactive (takenBy .monitor s) = .next { lineTaken .power false s with powerPeriod := none })
      ∧ (s.ownerActive .power = true →
          exec .powerInactive (takenBy .owner s) = .next { actedOn .power false s with powerTaken := none })
      ∧ (∀ mode rest early, s.ownerActive .power = false →
          (s.powerOwed = mode :: rest ∧ early = s.powerEarly)
            ∨ (s.powerOwed = [] ∧ rest = [] ∧ mode = s.settings.powerMode ∧ early = s.powerEarly + 1) →
          RepliesLawful s → OrdersLawful s → s.volume.state = .mounted →
          let u : State := { actedOn .power true s with powerTaken := some mode, powerOwed := rest, powerEarly := early }
          let past : Prop := s.powerOwed ≠ [] ∧ (rest ≠ [] ∨ s.powerPeriod = none)
          (mode = .sectorEnd → past → ∃ t, exec .powerActive (takenBy .owner s) = .next t ∧ SameButReservations u t)
            ∧ ((∀ a, s.seq.access = some a → a.kind.writes = false) → s.seq.gate = false →
              ∃ t, exec .powerActive (takenBy .owner s) = .next t ∧ SameButReservations u t)
            ∧ (∀ a, mode = .sectorEnd → ¬ past → s.seq.access = some a → a.kind = .writeRun ∨ a.kind = .appendRun → a.underWay = true →
                .power ∉ a.stops →
                ∃ t, exec .powerActive (takenBy .owner s) = .next t
                  ∧ SameButReservations { u with seq := { s.seq with access := some { a with stops := a.stops ++ [.power] } } } t)
            ∧ (∀ a e, mode = .immediate → s.seq.access = some a → a.kind = .writeRun → a.pass = .work → a.owner = .entry e.order →
                e ∈ s.work → e.kind = .write → s.seq.state = .transferring → s.seq.phase = .data → placeOf a < 7680 → ProtectWaits a →
                let y : Entry := { e with done := e.done + a.done }
                ∃ t, exec .powerActive (takenBy .owner s) = .next t
                  ∧ SameButReservations
                      (entryEnded y .writeProtected
                        { u with
                          ctlBuffer := .free
                          medium := mediumSet (placeOf a) { header := .whole (headerOn (placeOf a) .written), data := .torn } s.medium
                          work := s.work.map (fun x => if x.order = e.order then y else x)
                          seq := ended s.seq }) t)
            ∧ (∀ a e, mode = .immediate → s.seq.access = some a → a.kind = .writeRun → a.pass = .work → a.owner = .entry e.order →
                e ∈ s.work → s.seq.state = .transferring → s.seq.phase = .data → placeOf a < 7680 → .protect ∉ a.stops →
                ∃ t, exec .powerActive (takenBy .owner s) = .next t
                  ∧ SameButReservations
                      { u with
                        ctlBuffer := .free
                        medium := mediumSet (placeOf a) { header := .whole (headerOn (placeOf a) .written), data := .torn } s.medium
                        work := s.work.map (fun x => if x.order = e.order then
                          { x with done := e.done + a.done, state := .parked, run := none, allocated := 0, tornNext := true } else x)
                        seq := ended s.seq } t)
            ∧ (∀ a e, mode = .immediate → s.seq.access = some a → a.kind = .labelWrite → a.pass = .work → a.owner = .entry e.order →
                e ∈ s.work → a.underWay = true → s.seq.state = .transferring → s.seq.phase = .data → placeOf a < 7680 →
                ∃ t, exec .powerActive (takenBy .owner s) = .next t
                  ∧ SameButReservations
                      { u with
                        ctlBuffer := .free
                        medium := mediumSet (placeOf a) { header := .whole (headerOn (placeOf a) .written), data := .torn } s.medium
                        work := s.work.map (fun x => if x.order = e.order then
                          { x with done := e.done + a.done, state := .parked, run := none, allocated := 0, tornNext := false } else x)
                        seq := ended s.seq } t))

/-- An APPEND's sector write cut by FAULT, or by POWER in IMMEDIATE mode (R9, R23, R25, R133, R141). In a HEADER phase it leaves the header
torn and the fill state UNKNOWN, and the APPEND ends, WRITE-FAULT under FAULT, MEDIUM-ERROR with that condition under POWER. In the DATA
phase of its own write, with the fill mark past the sector, the data sector is counted appended as TORN: its condition reported, its
buffer released, appends pending one lower, the fill state as it was; under FAULT the APPEND ends WRITE-FAULT, under POWER it is PARKED,
or ends DONE with its last sector. POWER is taken by the sequencer, before the line monitor or after it (log 9); that command accepted is
no once FAULT is taken is log 33. -/
def Obligations.AppendCuts : Prop :=
  ∀ (a : Access) (k : Slot) (x : Extent) (f : Fill) (e : Entry) (s : State), s.seq.state = .transferring → s.seq.access = some a →
    a.kind = .appendRun → a.slot = some k → a.owner = .entry e.order → e ∈ s.work → e.kind = .append → e.slot = some k →
    e.writeBuffers ≠ [] → s.extent k = some x → x.fill = some f → a.stops = [] → OrdersLawful s → RepliesLawful s →
    s.volume.state = .mounted → s.volume.drainExpired = false →
    (∀ z ∈ s.work, z.kind = .append → z.slot = some k → z.order = e.order) → (∀ p ∈ s.posted, ¬ (p.kind = .append ∧ p.slot = k)) →
    let index := e.count - e.writeBuffers.length
    let credited : Entry := { e with done := e.done + a.done }
    let marred : Entry := { credited with conditions := addCondition index .mediumError e.conditions }
    let torn : Entry :=
      { e with done := e.done + (a.done + 1), conditions := addCondition index .torn e.conditions, writeBuffers := e.writeBuffers.tail }
    let with_ (y : Entry) : List Entry := s.work.map (fun z => if z.order = e.order then y else z)
    let unknown (u : State) : State := updFill k (fun g => { g with state := .unknown }) u
    let lower (u : State) : State := updFill k (fun g => { g with pending := g.pending - 1 }) u
    (s.ownerActive .fault = false →
      let u : State :=
        { actedOn .fault true s with
          ctlBuffer := .free, medium := cutMedium s
          seq := { s.seq with
            access := none, state := .notSafe, cylinder := none, target := none, phase := .none, gate := false, accepted := false
            seekTimer := none, restoreTimer := none, faultTimer := some 2000 } }
      (s.seq.phase = .header →
        ∃ t, exec .faultActive (takenBy .owner s) = .next t
          ∧ SameButReservations (unknown (entryEnded credited .writeFault { u with work := with_ credited })) t)
        ∧ (s.seq.phase = .data → a.pass = .work → a.sector < f.mark →
            ∃ t, exec .faultActive (takenBy .owner s) = .next t
              ∧ SameButReservations (entryEnded torn .writeFault { lower u with work := with_ torn }) t))
      ∧ (∀ rest early, s.ownerActive .power = false →
          (s.powerOwed = .immediate :: rest ∧ early = s.powerEarly)
            ∨ (s.powerOwed = [] ∧ rest = [] ∧ s.settings.powerMode = .immediate ∧ early = s.powerEarly + 1) →
          let u : State :=
            { actedOn .power true s with
              powerTaken := some .immediate, powerOwed := rest, powerEarly := early, ctlBuffer := .free, medium := cutMedium s
              seq := ended s.seq }
          (s.seq.phase = .header →
            ∃ t, exec .powerActive (takenBy .owner s) = .next t
              ∧ SameButReservations (unknown (entryEnded marred .mediumError { u with work := with_ marred })) t)
            ∧ (s.seq.phase = .data → a.pass = .work → a.sector < f.mark → e.writeBuffers.tail ≠ [] →
                ∃ t, exec .powerActive (takenBy .owner s) = .next t
                  ∧ SameButReservations
                      { lower u with work := with_ { torn with state := .parked, run := none, allocated := 0, tornNext := false } } t)
            ∧ (s.seq.phase = .data → a.pass = .work → a.sector < f.mark → e.writeBuffers.tail = [] → e.done + (a.done + 1) = e.count →
                ∃ t, exec .powerActive (takenBy .owner s) = .next t
                  ∧ SameButReservations (entryEnded torn .done { lower u with work := with_ torn }) t))

/-! ## Values -/

/-- The spec's arithmetic: the relative address relation (R2, R3); a run's length (R4). The ones'-complement sum (R101), for every two words,
and for every check span and sector: the insert word holds the sum of the span's words, 0 only when all of them are 0, every other word
stays, and the sum read back holds the span (R126). The check of a header, a data field and a frame against the generator
x^16+x^15+x^2+1 with initial value 0 (R6, R176), for every word list: each word enters it bit by bit, most significant first, and the
words with their check word have the check 0. The bit order for headers and data fields, and a header's four words, are the model's
choice (log 5). -/
def Obligations.ArithmeticOfTheSpec : Prop :=
  (∀ base m : Nat, cylinderOf base m * 24 + headOf m * 12 + sectorOf m = base * 24 + m ∧ headOf m < 2 ∧ sectorOf m < 12)
    ∧ (∀ n k : Nat, n / 24 * 24 ≤ n + runLength n k ∧ n + runLength n k ≤ (n / 24 + 1) * 24 ∧ runLength n k ≤ k
        ∧ (runLength n k < k → n + runLength n k = (n / 24 + 1) * 24))
    ∧ (∀ v w : Word, onesAdd v.toNat w.toNat ≤ 65535 ∧ onesAdd v.toNat w.toNat % 65535 = (v.toNat + w.toNat) % 65535
        ∧ (onesAdd v.toNat w.toNat = 0 ↔ v = 0 ∧ w = 0))
    ∧ (∀ ws : List Word, insertSpan none ws = ws ∧ spanHolds none ws = true)
    ∧ (∀ (sp : CheckSpan) (ws : List Word), ws.length = 256 → sp.first ≤ sp.last → sp.last ≤ 255 → sp.insert ≤ 255 →
        sp.insert < sp.first ∨ sp.last < sp.insert →
        let summed : List Word := (ws.drop sp.first).take (sp.last - sp.first + 1)
        (∃ sum : Word, insertSpan (some sp) ws = ws.set sp.insert sum
            ∧ sum.toNat % 65535 = (summed.map (fun w => w.toNat)).sum % 65535 ∧ (sum = 0 ↔ ∀ w ∈ summed, w = 0))
          ∧ spanHolds (some sp) (insertSpan (some sp) ws) = true
          ∧ (spanHolds (some sp) ws = true ↔ insertSpan (some sp) ws = ws))
    ∧ (∀ (c : Word) (b : Bool), crcBit c b = (if c.msb = b then c <<< 1 else (c <<< 1) ^^^ 0x8005#16))
    ∧ (∀ c w : Word, crcWord c w = (List.range 16).foldl (fun c i => crcBit c (w.getLsbD (15 - i))) c)
    ∧ crc [] = 0
    ∧ (∀ (ws : List Word) (w : Word), crc (ws ++ [w]) = crcWord (crc ws) w ∧ crc (ws ++ [crc ws]) = 0)
    ∧ (∀ c h n : Word, headerCheck c h n .blank = crc [c, h, n, 0] ∧ headerCheck c h n .written = crc [c, h, n, 1]
        ∧ headerCheck c h n .void = crc [c, h, n, 2])
    ∧ (∀ h : HeaderImage, headerReadable h = true ↔ h.check = headerCheck h.cylinder h.head h.sector h.state)
    ∧ (∀ f : FieldImage, fieldGood f = true ↔ f.check = crc f.data.toList)
    ∧ (∀ (kind tag : Nat) (ws : List Word), crc (frameWords kind tag ws) = 0)
end

