-- ==== Sys2Proof/Laws/State.lean ====
section
/-! SUPPORT. One lemma for each field of the state under each plain update: what the update leaves is what was there. -/

namespace Sys2Proof.Machine


/-! ### `State.updPort` -/

@[simp] theorem State.updPort_logs (ch : Channel) (f : Port → Port) (s : State) : (s.updPort ch f).logs = s.logs := rfl
@[simp] theorem State.updPort_settings (ch : Channel) (f : Port → Port) (s : State) : (s.updPort ch f).settings = s.settings := rfl
@[simp] theorem State.updPort_extents (ch : Channel) (f : Port → Port) (s : State) : (s.updPort ch f).extents = s.extents := rfl
@[simp] theorem State.updPort_ctlClaim (ch : Channel) (f : Port → Port) (s : State) : (s.updPort ch f).ctlClaim = s.ctlClaim := rfl
@[simp] theorem State.updPort_extClaims (ch : Channel) (f : Port → Port) (s : State) : (s.updPort ch f).extClaims = s.extClaims := rfl
@[simp] theorem State.updPort_work (ch : Channel) (f : Port → Port) (s : State) : (s.updPort ch f).work = s.work := rfl
@[simp] theorem State.updPort_posted (ch : Channel) (f : Port → Port) (s : State) : (s.updPort ch f).posted = s.posted := rfl
@[simp] theorem State.updPort_nextOrder (ch : Channel) (f : Port → Port) (s : State) : (s.updPort ch f).nextOrder = s.nextOrder := rfl
@[simp] theorem State.updPort_direction (ch : Channel) (f : Port → Port) (s : State) : (s.updPort ch f).direction = s.direction := rfl
@[simp] theorem State.updPort_seq (ch : Channel) (f : Port → Port) (s : State) : (s.updPort ch f).seq = s.seq := rfl
@[simp] theorem State.updPort_ctlBuffer (ch : Channel) (f : Port → Port) (s : State) : (s.updPort ch f).ctlBuffer = s.ctlBuffer := rfl
@[simp] theorem State.updPort_volume (ch : Channel) (f : Port → Port) (s : State) : (s.updPort ch f).volume = s.volume := rfl
@[simp] theorem State.updPort_sweep (ch : Channel) (f : Port → Port) (s : State) : (s.updPort ch f).sweep = s.sweep := rfl
@[simp] theorem State.updPort_sweepSeen (ch : Channel) (f : Port → Port) (s : State) : (s.updPort ch f).sweepSeen = s.sweepSeen := rfl
@[simp] theorem State.updPort_levels (ch : Channel) (f : Port → Port) (s : State) : (s.updPort ch f).levels = s.levels := rfl
@[simp] theorem State.updPort_acted (ch : Channel) (f : Port → Port) (s : State) : (s.updPort ch f).acted = s.acted := rfl
@[simp] theorem State.updPort_powerPeriod (ch : Channel) (f : Port → Port) (s : State) : (s.updPort ch f).powerPeriod = s.powerPeriod := rfl
@[simp] theorem State.updPort_powerTaken (ch : Channel) (f : Port → Port) (s : State) : (s.updPort ch f).powerTaken = s.powerTaken := rfl
@[simp] theorem State.updPort_powerOwed (ch : Channel) (f : Port → Port) (s : State) : (s.updPort ch f).powerOwed = s.powerOwed := rfl
@[simp] theorem State.updPort_powerEarly (ch : Channel) (f : Port → Port) (s : State) : (s.updPort ch f).powerEarly = s.powerEarly := rfl
@[simp] theorem State.updPort_clock (ch : Channel) (f : Port → Port) (s : State) : (s.updPort ch f).clock = s.clock := rfl
@[simp] theorem State.updPort_medium (ch : Channel) (f : Port → Port) (s : State) : (s.updPort ch f).medium = s.medium := rfl
@[simp] theorem State.updPort_pending (ch : Channel) (f : Port → Port) (s : State) : (s.updPort ch f).pending = s.pending := rfl
@[simp] theorem State.updPort_takers (ch : Channel) (f : Port → Port) (s : State) : (s.updPort ch f).takers = s.takers := rfl

/-! ### `raise` -/

@[simp] theorem raise_logs (ch : Channel) (k : EventKind) (s : State) : (raise ch k s).logs = s.logs := rfl
@[simp] theorem raise_settings (ch : Channel) (k : EventKind) (s : State) : (raise ch k s).settings = s.settings := rfl
@[simp] theorem raise_extents (ch : Channel) (k : EventKind) (s : State) : (raise ch k s).extents = s.extents := rfl
@[simp] theorem raise_ctlClaim (ch : Channel) (k : EventKind) (s : State) : (raise ch k s).ctlClaim = s.ctlClaim := rfl
@[simp] theorem raise_extClaims (ch : Channel) (k : EventKind) (s : State) : (raise ch k s).extClaims = s.extClaims := rfl
@[simp] theorem raise_work (ch : Channel) (k : EventKind) (s : State) : (raise ch k s).work = s.work := rfl
@[simp] theorem raise_posted (ch : Channel) (k : EventKind) (s : State) : (raise ch k s).posted = s.posted := rfl
@[simp] theorem raise_nextOrder (ch : Channel) (k : EventKind) (s : State) : (raise ch k s).nextOrder = s.nextOrder := rfl
@[simp] theorem raise_direction (ch : Channel) (k : EventKind) (s : State) : (raise ch k s).direction = s.direction := rfl
@[simp] theorem raise_seq (ch : Channel) (k : EventKind) (s : State) : (raise ch k s).seq = s.seq := rfl
@[simp] theorem raise_ctlBuffer (ch : Channel) (k : EventKind) (s : State) : (raise ch k s).ctlBuffer = s.ctlBuffer := rfl
@[simp] theorem raise_volume (ch : Channel) (k : EventKind) (s : State) : (raise ch k s).volume = s.volume := rfl
@[simp] theorem raise_sweep (ch : Channel) (k : EventKind) (s : State) : (raise ch k s).sweep = s.sweep := rfl
@[simp] theorem raise_sweepSeen (ch : Channel) (k : EventKind) (s : State) : (raise ch k s).sweepSeen = s.sweepSeen := rfl
@[simp] theorem raise_levels (ch : Channel) (k : EventKind) (s : State) : (raise ch k s).levels = s.levels := rfl
@[simp] theorem raise_acted (ch : Channel) (k : EventKind) (s : State) : (raise ch k s).acted = s.acted := rfl
@[simp] theorem raise_powerPeriod (ch : Channel) (k : EventKind) (s : State) : (raise ch k s).powerPeriod = s.powerPeriod := rfl
@[simp] theorem raise_powerTaken (ch : Channel) (k : EventKind) (s : State) : (raise ch k s).powerTaken = s.powerTaken := rfl
@[simp] theorem raise_powerOwed (ch : Channel) (k : EventKind) (s : State) : (raise ch k s).powerOwed = s.powerOwed := rfl
@[simp] theorem raise_powerEarly (ch : Channel) (k : EventKind) (s : State) : (raise ch k s).powerEarly = s.powerEarly := rfl
@[simp] theorem raise_clock (ch : Channel) (k : EventKind) (s : State) : (raise ch k s).clock = s.clock := rfl
@[simp] theorem raise_medium (ch : Channel) (k : EventKind) (s : State) : (raise ch k s).medium = s.medium := rfl
@[simp] theorem raise_pending (ch : Channel) (k : EventKind) (s : State) : (raise ch k s).pending = s.pending := rfl
@[simp] theorem raise_takers (ch : Channel) (k : EventKind) (s : State) : (raise ch k s).takers = s.takers := rfl

/-! ### `raiseBoth` -/

@[simp] theorem raiseBoth_logs (k : EventKind) (s : State) : (raiseBoth k s).logs = s.logs := rfl
@[simp] theorem raiseBoth_settings (k : EventKind) (s : State) : (raiseBoth k s).settings = s.settings := rfl
@[simp] theorem raiseBoth_extents (k : EventKind) (s : State) : (raiseBoth k s).extents = s.extents := rfl
@[simp] theorem raiseBoth_ctlClaim (k : EventKind) (s : State) : (raiseBoth k s).ctlClaim = s.ctlClaim := rfl
@[simp] theorem raiseBoth_extClaims (k : EventKind) (s : State) : (raiseBoth k s).extClaims = s.extClaims := rfl
@[simp] theorem raiseBoth_work (k : EventKind) (s : State) : (raiseBoth k s).work = s.work := rfl
@[simp] theorem raiseBoth_posted (k : EventKind) (s : State) : (raiseBoth k s).posted = s.posted := rfl
@[simp] theorem raiseBoth_nextOrder (k : EventKind) (s : State) : (raiseBoth k s).nextOrder = s.nextOrder := rfl
@[simp] theorem raiseBoth_direction (k : EventKind) (s : State) : (raiseBoth k s).direction = s.direction := rfl
@[simp] theorem raiseBoth_seq (k : EventKind) (s : State) : (raiseBoth k s).seq = s.seq := rfl
@[simp] theorem raiseBoth_ctlBuffer (k : EventKind) (s : State) : (raiseBoth k s).ctlBuffer = s.ctlBuffer := rfl
@[simp] theorem raiseBoth_volume (k : EventKind) (s : State) : (raiseBoth k s).volume = s.volume := rfl
@[simp] theorem raiseBoth_sweep (k : EventKind) (s : State) : (raiseBoth k s).sweep = s.sweep := rfl
@[simp] theorem raiseBoth_sweepSeen (k : EventKind) (s : State) : (raiseBoth k s).sweepSeen = s.sweepSeen := rfl
@[simp] theorem raiseBoth_levels (k : EventKind) (s : State) : (raiseBoth k s).levels = s.levels := rfl
@[simp] theorem raiseBoth_acted (k : EventKind) (s : State) : (raiseBoth k s).acted = s.acted := rfl
@[simp] theorem raiseBoth_powerPeriod (k : EventKind) (s : State) : (raiseBoth k s).powerPeriod = s.powerPeriod := rfl
@[simp] theorem raiseBoth_powerTaken (k : EventKind) (s : State) : (raiseBoth k s).powerTaken = s.powerTaken := rfl
@[simp] theorem raiseBoth_powerOwed (k : EventKind) (s : State) : (raiseBoth k s).powerOwed = s.powerOwed := rfl
@[simp] theorem raiseBoth_powerEarly (k : EventKind) (s : State) : (raiseBoth k s).powerEarly = s.powerEarly := rfl
@[simp] theorem raiseBoth_clock (k : EventKind) (s : State) : (raiseBoth k s).clock = s.clock := rfl
@[simp] theorem raiseBoth_medium (k : EventKind) (s : State) : (raiseBoth k s).medium = s.medium := rfl
@[simp] theorem raiseBoth_pending (k : EventKind) (s : State) : (raiseBoth k s).pending = s.pending := rfl
@[simp] theorem raiseBoth_takers (k : EventKind) (s : State) : (raiseBoth k s).takers = s.takers := rfl

/-! ### `takeLine` -/

@[simp] theorem takeLine_logs (l : Line) (on : Bool) (s : State) : (takeLine l on s).logs = s.logs := rfl
@[simp] theorem takeLine_settings (l : Line) (on : Bool) (s : State) : (takeLine l on s).settings = s.settings := rfl
@[simp] theorem takeLine_extents (l : Line) (on : Bool) (s : State) : (takeLine l on s).extents = s.extents := rfl
@[simp] theorem takeLine_ctlClaim (l : Line) (on : Bool) (s : State) : (takeLine l on s).ctlClaim = s.ctlClaim := rfl
@[simp] theorem takeLine_extClaims (l : Line) (on : Bool) (s : State) : (takeLine l on s).extClaims = s.extClaims := rfl
@[simp] theorem takeLine_work (l : Line) (on : Bool) (s : State) : (takeLine l on s).work = s.work := rfl
@[simp] theorem takeLine_posted (l : Line) (on : Bool) (s : State) : (takeLine l on s).posted = s.posted := rfl
@[simp] theorem takeLine_nextOrder (l : Line) (on : Bool) (s : State) : (takeLine l on s).nextOrder = s.nextOrder := rfl
@[simp] theorem takeLine_direction (l : Line) (on : Bool) (s : State) : (takeLine l on s).direction = s.direction := rfl
@[simp] theorem takeLine_seq (l : Line) (on : Bool) (s : State) : (takeLine l on s).seq = s.seq := rfl
@[simp] theorem takeLine_ctlBuffer (l : Line) (on : Bool) (s : State) : (takeLine l on s).ctlBuffer = s.ctlBuffer := rfl
@[simp] theorem takeLine_volume (l : Line) (on : Bool) (s : State) : (takeLine l on s).volume = s.volume := rfl
@[simp] theorem takeLine_sweep (l : Line) (on : Bool) (s : State) : (takeLine l on s).sweep = s.sweep := rfl
@[simp] theorem takeLine_sweepSeen (l : Line) (on : Bool) (s : State) : (takeLine l on s).sweepSeen = s.sweepSeen := rfl
@[simp] theorem takeLine_acted (l : Line) (on : Bool) (s : State) : (takeLine l on s).acted = s.acted := rfl
@[simp] theorem takeLine_powerPeriod (l : Line) (on : Bool) (s : State) : (takeLine l on s).powerPeriod = s.powerPeriod := rfl
@[simp] theorem takeLine_powerTaken (l : Line) (on : Bool) (s : State) : (takeLine l on s).powerTaken = s.powerTaken := rfl
@[simp] theorem takeLine_powerOwed (l : Line) (on : Bool) (s : State) : (takeLine l on s).powerOwed = s.powerOwed := rfl
@[simp] theorem takeLine_powerEarly (l : Line) (on : Bool) (s : State) : (takeLine l on s).powerEarly = s.powerEarly := rfl
@[simp] theorem takeLine_clock (l : Line) (on : Bool) (s : State) : (takeLine l on s).clock = s.clock := rfl
@[simp] theorem takeLine_medium (l : Line) (on : Bool) (s : State) : (takeLine l on s).medium = s.medium := rfl
@[simp] theorem takeLine_pending (l : Line) (on : Bool) (s : State) : (takeLine l on s).pending = s.pending := rfl
@[simp] theorem takeLine_takers (l : Line) (on : Bool) (s : State) : (takeLine l on s).takers = s.takers := rfl

/-! ### `placeFreed` -/

@[simp] theorem placeFreed_logs (s : State) : (placeFreed s).logs = s.logs := rfl
@[simp] theorem placeFreed_settings (s : State) : (placeFreed s).settings = s.settings := rfl
@[simp] theorem placeFreed_extents (s : State) : (placeFreed s).extents = s.extents := rfl
@[simp] theorem placeFreed_ctlClaim (s : State) : (placeFreed s).ctlClaim = s.ctlClaim := rfl
@[simp] theorem placeFreed_extClaims (s : State) : (placeFreed s).extClaims = s.extClaims := rfl
@[simp] theorem placeFreed_work (s : State) : (placeFreed s).work = s.work := rfl
@[simp] theorem placeFreed_posted (s : State) : (placeFreed s).posted = s.posted := rfl
@[simp] theorem placeFreed_nextOrder (s : State) : (placeFreed s).nextOrder = s.nextOrder := rfl
@[simp] theorem placeFreed_direction (s : State) : (placeFreed s).direction = s.direction := rfl
@[simp] theorem placeFreed_seq (s : State) : (placeFreed s).seq = s.seq := rfl
@[simp] theorem placeFreed_ctlBuffer (s : State) : (placeFreed s).ctlBuffer = s.ctlBuffer := rfl
@[simp] theorem placeFreed_volume (s : State) : (placeFreed s).volume = s.volume := rfl
@[simp] theorem placeFreed_sweep (s : State) : (placeFreed s).sweep = s.sweep := rfl
@[simp] theorem placeFreed_sweepSeen (s : State) : (placeFreed s).sweepSeen = s.sweepSeen := rfl
@[simp] theorem placeFreed_levels (s : State) : (placeFreed s).levels = s.levels := rfl
@[simp] theorem placeFreed_acted (s : State) : (placeFreed s).acted = s.acted := rfl
@[simp] theorem placeFreed_powerPeriod (s : State) : (placeFreed s).powerPeriod = s.powerPeriod := rfl
@[simp] theorem placeFreed_powerTaken (s : State) : (placeFreed s).powerTaken = s.powerTaken := rfl
@[simp] theorem placeFreed_powerOwed (s : State) : (placeFreed s).powerOwed = s.powerOwed := rfl
@[simp] theorem placeFreed_powerEarly (s : State) : (placeFreed s).powerEarly = s.powerEarly := rfl
@[simp] theorem placeFreed_clock (s : State) : (placeFreed s).clock = s.clock := rfl
@[simp] theorem placeFreed_medium (s : State) : (placeFreed s).medium = s.medium := rfl
@[simp] theorem placeFreed_pending (s : State) : (placeFreed s).pending = s.pending := rfl
@[simp] theorem placeFreed_takers (s : State) : (placeFreed s).takers = s.takers := rfl

/-! ### `updExtent` -/

@[simp] theorem updExtent_ports (k : Slot) (f : Extent → Extent) (s : State) : (updExtent k f s).ports = s.ports := rfl
@[simp] theorem updExtent_logs (k : Slot) (f : Extent → Extent) (s : State) : (updExtent k f s).logs = s.logs := rfl
@[simp] theorem updExtent_settings (k : Slot) (f : Extent → Extent) (s : State) : (updExtent k f s).settings = s.settings := rfl
@[simp] theorem updExtent_ctlClaim (k : Slot) (f : Extent → Extent) (s : State) : (updExtent k f s).ctlClaim = s.ctlClaim := rfl
@[simp] theorem updExtent_extClaims (k : Slot) (f : Extent → Extent) (s : State) : (updExtent k f s).extClaims = s.extClaims := rfl
@[simp] theorem updExtent_work (k : Slot) (f : Extent → Extent) (s : State) : (updExtent k f s).work = s.work := rfl
@[simp] theorem updExtent_posted (k : Slot) (f : Extent → Extent) (s : State) : (updExtent k f s).posted = s.posted := rfl
@[simp] theorem updExtent_nextOrder (k : Slot) (f : Extent → Extent) (s : State) : (updExtent k f s).nextOrder = s.nextOrder := rfl
@[simp] theorem updExtent_direction (k : Slot) (f : Extent → Extent) (s : State) : (updExtent k f s).direction = s.direction := rfl
@[simp] theorem updExtent_seq (k : Slot) (f : Extent → Extent) (s : State) : (updExtent k f s).seq = s.seq := rfl
@[simp] theorem updExtent_ctlBuffer (k : Slot) (f : Extent → Extent) (s : State) : (updExtent k f s).ctlBuffer = s.ctlBuffer := rfl
@[simp] theorem updExtent_volume (k : Slot) (f : Extent → Extent) (s : State) : (updExtent k f s).volume = s.volume := rfl
@[simp] theorem updExtent_sweep (k : Slot) (f : Extent → Extent) (s : State) : (updExtent k f s).sweep = s.sweep := rfl
@[simp] theorem updExtent_sweepSeen (k : Slot) (f : Extent → Extent) (s : State) : (updExtent k f s).sweepSeen = s.sweepSeen := rfl
@[simp] theorem updExtent_levels (k : Slot) (f : Extent → Extent) (s : State) : (updExtent k f s).levels = s.levels := rfl
@[simp] theorem updExtent_acted (k : Slot) (f : Extent → Extent) (s : State) : (updExtent k f s).acted = s.acted := rfl
@[simp] theorem updExtent_powerPeriod (k : Slot) (f : Extent → Extent) (s : State) : (updExtent k f s).powerPeriod = s.powerPeriod := rfl
@[simp] theorem updExtent_powerTaken (k : Slot) (f : Extent → Extent) (s : State) : (updExtent k f s).powerTaken = s.powerTaken := rfl
@[simp] theorem updExtent_powerOwed (k : Slot) (f : Extent → Extent) (s : State) : (updExtent k f s).powerOwed = s.powerOwed := rfl
@[simp] theorem updExtent_powerEarly (k : Slot) (f : Extent → Extent) (s : State) : (updExtent k f s).powerEarly = s.powerEarly := rfl
@[simp] theorem updExtent_clock (k : Slot) (f : Extent → Extent) (s : State) : (updExtent k f s).clock = s.clock := rfl
@[simp] theorem updExtent_medium (k : Slot) (f : Extent → Extent) (s : State) : (updExtent k f s).medium = s.medium := rfl
@[simp] theorem updExtent_pending (k : Slot) (f : Extent → Extent) (s : State) : (updExtent k f s).pending = s.pending := rfl
@[simp] theorem updExtent_takers (k : Slot) (f : Extent → Extent) (s : State) : (updExtent k f s).takers = s.takers := rfl

/-! ### `updFill` -/

@[simp] theorem updFill_ports (k : Slot) (f : Fill → Fill) (s : State) : (updFill k f s).ports = s.ports := rfl
@[simp] theorem updFill_logs (k : Slot) (f : Fill → Fill) (s : State) : (updFill k f s).logs = s.logs := rfl
@[simp] theorem updFill_settings (k : Slot) (f : Fill → Fill) (s : State) : (updFill k f s).settings = s.settings := rfl
@[simp] theorem updFill_ctlClaim (k : Slot) (f : Fill → Fill) (s : State) : (updFill k f s).ctlClaim = s.ctlClaim := rfl
@[simp] theorem updFill_extClaims (k : Slot) (f : Fill → Fill) (s : State) : (updFill k f s).extClaims = s.extClaims := rfl
@[simp] theorem updFill_work (k : Slot) (f : Fill → Fill) (s : State) : (updFill k f s).work = s.work := rfl
@[simp] theorem updFill_posted (k : Slot) (f : Fill → Fill) (s : State) : (updFill k f s).posted = s.posted := rfl
@[simp] theorem updFill_nextOrder (k : Slot) (f : Fill → Fill) (s : State) : (updFill k f s).nextOrder = s.nextOrder := rfl
@[simp] theorem updFill_direction (k : Slot) (f : Fill → Fill) (s : State) : (updFill k f s).direction = s.direction := rfl
@[simp] theorem updFill_seq (k : Slot) (f : Fill → Fill) (s : State) : (updFill k f s).seq = s.seq := rfl
@[simp] theorem updFill_ctlBuffer (k : Slot) (f : Fill → Fill) (s : State) : (updFill k f s).ctlBuffer = s.ctlBuffer := rfl
@[simp] theorem updFill_volume (k : Slot) (f : Fill → Fill) (s : State) : (updFill k f s).volume = s.volume := rfl
@[simp] theorem updFill_sweep (k : Slot) (f : Fill → Fill) (s : State) : (updFill k f s).sweep = s.sweep := rfl
@[simp] theorem updFill_sweepSeen (k : Slot) (f : Fill → Fill) (s : State) : (updFill k f s).sweepSeen = s.sweepSeen := rfl
@[simp] theorem updFill_levels (k : Slot) (f : Fill → Fill) (s : State) : (updFill k f s).levels = s.levels := rfl
@[simp] theorem updFill_acted (k : Slot) (f : Fill → Fill) (s : State) : (updFill k f s).acted = s.acted := rfl
@[simp] theorem updFill_powerPeriod (k : Slot) (f : Fill → Fill) (s : State) : (updFill k f s).powerPeriod = s.powerPeriod := rfl
@[simp] theorem updFill_powerTaken (k : Slot) (f : Fill → Fill) (s : State) : (updFill k f s).powerTaken = s.powerTaken := rfl
@[simp] theorem updFill_powerOwed (k : Slot) (f : Fill → Fill) (s : State) : (updFill k f s).powerOwed = s.powerOwed := rfl
@[simp] theorem updFill_powerEarly (k : Slot) (f : Fill → Fill) (s : State) : (updFill k f s).powerEarly = s.powerEarly := rfl
@[simp] theorem updFill_clock (k : Slot) (f : Fill → Fill) (s : State) : (updFill k f s).clock = s.clock := rfl
@[simp] theorem updFill_medium (k : Slot) (f : Fill → Fill) (s : State) : (updFill k f s).medium = s.medium := rfl
@[simp] theorem updFill_pending (k : Slot) (f : Fill → Fill) (s : State) : (updFill k f s).pending = s.pending := rfl
@[simp] theorem updFill_takers (k : Slot) (f : Fill → Fill) (s : State) : (updFill k f s).takers = s.takers := rfl

/-! ### `lowerPending` -/

@[simp] theorem lowerPending_ports (k : Slot) (n : Nat) (s : State) : (lowerPending k n s).ports = s.ports := rfl
@[simp] theorem lowerPending_logs (k : Slot) (n : Nat) (s : State) : (lowerPending k n s).logs = s.logs := rfl
@[simp] theorem lowerPending_settings (k : Slot) (n : Nat) (s : State) : (lowerPending k n s).settings = s.settings := rfl
@[simp] theorem lowerPending_ctlClaim (k : Slot) (n : Nat) (s : State) : (lowerPending k n s).ctlClaim = s.ctlClaim := rfl
@[simp] theorem lowerPending_extClaims (k : Slot) (n : Nat) (s : State) : (lowerPending k n s).extClaims = s.extClaims := rfl
@[simp] theorem lowerPending_work (k : Slot) (n : Nat) (s : State) : (lowerPending k n s).work = s.work := rfl
@[simp] theorem lowerPending_posted (k : Slot) (n : Nat) (s : State) : (lowerPending k n s).posted = s.posted := rfl
@[simp] theorem lowerPending_nextOrder (k : Slot) (n : Nat) (s : State) : (lowerPending k n s).nextOrder = s.nextOrder := rfl
@[simp] theorem lowerPending_direction (k : Slot) (n : Nat) (s : State) : (lowerPending k n s).direction = s.direction := rfl
@[simp] theorem lowerPending_seq (k : Slot) (n : Nat) (s : State) : (lowerPending k n s).seq = s.seq := rfl
@[simp] theorem lowerPending_ctlBuffer (k : Slot) (n : Nat) (s : State) : (lowerPending k n s).ctlBuffer = s.ctlBuffer := rfl
@[simp] theorem lowerPending_volume (k : Slot) (n : Nat) (s : State) : (lowerPending k n s).volume = s.volume := rfl
@[simp] theorem lowerPending_sweep (k : Slot) (n : Nat) (s : State) : (lowerPending k n s).sweep = s.sweep := rfl
@[simp] theorem lowerPending_sweepSeen (k : Slot) (n : Nat) (s : State) : (lowerPending k n s).sweepSeen = s.sweepSeen := rfl
@[simp] theorem lowerPending_levels (k : Slot) (n : Nat) (s : State) : (lowerPending k n s).levels = s.levels := rfl
@[simp] theorem lowerPending_acted (k : Slot) (n : Nat) (s : State) : (lowerPending k n s).acted = s.acted := rfl
@[simp] theorem lowerPending_powerPeriod (k : Slot) (n : Nat) (s : State) : (lowerPending k n s).powerPeriod = s.powerPeriod := rfl
@[simp] theorem lowerPending_powerTaken (k : Slot) (n : Nat) (s : State) : (lowerPending k n s).powerTaken = s.powerTaken := rfl
@[simp] theorem lowerPending_powerOwed (k : Slot) (n : Nat) (s : State) : (lowerPending k n s).powerOwed = s.powerOwed := rfl
@[simp] theorem lowerPending_powerEarly (k : Slot) (n : Nat) (s : State) : (lowerPending k n s).powerEarly = s.powerEarly := rfl
@[simp] theorem lowerPending_clock (k : Slot) (n : Nat) (s : State) : (lowerPending k n s).clock = s.clock := rfl
@[simp] theorem lowerPending_medium (k : Slot) (n : Nat) (s : State) : (lowerPending k n s).medium = s.medium := rfl
@[simp] theorem lowerPending_pending (k : Slot) (n : Nat) (s : State) : (lowerPending k n s).pending = s.pending := rfl
@[simp] theorem lowerPending_takers (k : Slot) (n : Nat) (s : State) : (lowerPending k n s).takers = s.takers := rfl

/-! ### `updEntry` -/

@[simp] theorem updEntry_ports (n : Nat) (f : Entry → Entry) (s : State) : (updEntry n f s).ports = s.ports := rfl
@[simp] theorem updEntry_logs (n : Nat) (f : Entry → Entry) (s : State) : (updEntry n f s).logs = s.logs := rfl
@[simp] theorem updEntry_settings (n : Nat) (f : Entry → Entry) (s : State) : (updEntry n f s).settings = s.settings := rfl
@[simp] theorem updEntry_extents (n : Nat) (f : Entry → Entry) (s : State) : (updEntry n f s).extents = s.extents := rfl
@[simp] theorem updEntry_ctlClaim (n : Nat) (f : Entry → Entry) (s : State) : (updEntry n f s).ctlClaim = s.ctlClaim := rfl
@[simp] theorem updEntry_extClaims (n : Nat) (f : Entry → Entry) (s : State) : (updEntry n f s).extClaims = s.extClaims := rfl
@[simp] theorem updEntry_posted (n : Nat) (f : Entry → Entry) (s : State) : (updEntry n f s).posted = s.posted := rfl
@[simp] theorem updEntry_nextOrder (n : Nat) (f : Entry → Entry) (s : State) : (updEntry n f s).nextOrder = s.nextOrder := rfl
@[simp] theorem updEntry_direction (n : Nat) (f : Entry → Entry) (s : State) : (updEntry n f s).direction = s.direction := rfl
@[simp] theorem updEntry_seq (n : Nat) (f : Entry → Entry) (s : State) : (updEntry n f s).seq = s.seq := rfl
@[simp] theorem updEntry_ctlBuffer (n : Nat) (f : Entry → Entry) (s : State) : (updEntry n f s).ctlBuffer = s.ctlBuffer := rfl
@[simp] theorem updEntry_volume (n : Nat) (f : Entry → Entry) (s : State) : (updEntry n f s).volume = s.volume := rfl
@[simp] theorem updEntry_sweep (n : Nat) (f : Entry → Entry) (s : State) : (updEntry n f s).sweep = s.sweep := rfl
@[simp] theorem updEntry_sweepSeen (n : Nat) (f : Entry → Entry) (s : State) : (updEntry n f s).sweepSeen = s.sweepSeen := rfl
@[simp] theorem updEntry_levels (n : Nat) (f : Entry → Entry) (s : State) : (updEntry n f s).levels = s.levels := rfl
@[simp] theorem updEntry_acted (n : Nat) (f : Entry → Entry) (s : State) : (updEntry n f s).acted = s.acted := rfl
@[simp] theorem updEntry_powerPeriod (n : Nat) (f : Entry → Entry) (s : State) : (updEntry n f s).powerPeriod = s.powerPeriod := rfl
@[simp] theorem updEntry_powerTaken (n : Nat) (f : Entry → Entry) (s : State) : (updEntry n f s).powerTaken = s.powerTaken := rfl
@[simp] theorem updEntry_powerOwed (n : Nat) (f : Entry → Entry) (s : State) : (updEntry n f s).powerOwed = s.powerOwed := rfl
@[simp] theorem updEntry_powerEarly (n : Nat) (f : Entry → Entry) (s : State) : (updEntry n f s).powerEarly = s.powerEarly := rfl
@[simp] theorem updEntry_clock (n : Nat) (f : Entry → Entry) (s : State) : (updEntry n f s).clock = s.clock := rfl
@[simp] theorem updEntry_medium (n : Nat) (f : Entry → Entry) (s : State) : (updEntry n f s).medium = s.medium := rfl
@[simp] theorem updEntry_pending (n : Nat) (f : Entry → Entry) (s : State) : (updEntry n f s).pending = s.pending := rfl
@[simp] theorem updEntry_takers (n : Nat) (f : Entry → Entry) (s : State) : (updEntry n f s).takers = s.takers := rfl

/-! ### `updPosted` -/

@[simp] theorem updPosted_ports (n : Nat) (f : Posted → Posted) (s : State) : (updPosted n f s).ports = s.ports := rfl
@[simp] theorem updPosted_logs (n : Nat) (f : Posted → Posted) (s : State) : (updPosted n f s).logs = s.logs := rfl
@[simp] theorem updPosted_settings (n : Nat) (f : Posted → Posted) (s : State) : (updPosted n f s).settings = s.settings := rfl
@[simp] theorem updPosted_extents (n : Nat) (f : Posted → Posted) (s : State) : (updPosted n f s).extents = s.extents := rfl
@[simp] theorem updPosted_ctlClaim (n : Nat) (f : Posted → Posted) (s : State) : (updPosted n f s).ctlClaim = s.ctlClaim := rfl
@[simp] theorem updPosted_extClaims (n : Nat) (f : Posted → Posted) (s : State) : (updPosted n f s).extClaims = s.extClaims := rfl
@[simp] theorem updPosted_work (n : Nat) (f : Posted → Posted) (s : State) : (updPosted n f s).work = s.work := rfl
@[simp] theorem updPosted_nextOrder (n : Nat) (f : Posted → Posted) (s : State) : (updPosted n f s).nextOrder = s.nextOrder := rfl
@[simp] theorem updPosted_direction (n : Nat) (f : Posted → Posted) (s : State) : (updPosted n f s).direction = s.direction := rfl
@[simp] theorem updPosted_seq (n : Nat) (f : Posted → Posted) (s : State) : (updPosted n f s).seq = s.seq := rfl
@[simp] theorem updPosted_ctlBuffer (n : Nat) (f : Posted → Posted) (s : State) : (updPosted n f s).ctlBuffer = s.ctlBuffer := rfl
@[simp] theorem updPosted_volume (n : Nat) (f : Posted → Posted) (s : State) : (updPosted n f s).volume = s.volume := rfl
@[simp] theorem updPosted_sweep (n : Nat) (f : Posted → Posted) (s : State) : (updPosted n f s).sweep = s.sweep := rfl
@[simp] theorem updPosted_sweepSeen (n : Nat) (f : Posted → Posted) (s : State) : (updPosted n f s).sweepSeen = s.sweepSeen := rfl
@[simp] theorem updPosted_levels (n : Nat) (f : Posted → Posted) (s : State) : (updPosted n f s).levels = s.levels := rfl
@[simp] theorem updPosted_acted (n : Nat) (f : Posted → Posted) (s : State) : (updPosted n f s).acted = s.acted := rfl
@[simp] theorem updPosted_powerPeriod (n : Nat) (f : Posted → Posted) (s : State) : (updPosted n f s).powerPeriod = s.powerPeriod := rfl
@[simp] theorem updPosted_powerTaken (n : Nat) (f : Posted → Posted) (s : State) : (updPosted n f s).powerTaken = s.powerTaken := rfl
@[simp] theorem updPosted_powerOwed (n : Nat) (f : Posted → Posted) (s : State) : (updPosted n f s).powerOwed = s.powerOwed := rfl
@[simp] theorem updPosted_powerEarly (n : Nat) (f : Posted → Posted) (s : State) : (updPosted n f s).powerEarly = s.powerEarly := rfl
@[simp] theorem updPosted_clock (n : Nat) (f : Posted → Posted) (s : State) : (updPosted n f s).clock = s.clock := rfl
@[simp] theorem updPosted_medium (n : Nat) (f : Posted → Posted) (s : State) : (updPosted n f s).medium = s.medium := rfl
@[simp] theorem updPosted_pending (n : Nat) (f : Posted → Posted) (s : State) : (updPosted n f s).pending = s.pending := rfl
@[simp] theorem updPosted_takers (n : Nat) (f : Posted → Posted) (s : State) : (updPosted n f s).takers = s.takers := rfl

/-! ### `dropEntry` -/

@[simp] theorem dropEntry_logs (n : Nat) (s : State) : (dropEntry n s).logs = s.logs := rfl
@[simp] theorem dropEntry_settings (n : Nat) (s : State) : (dropEntry n s).settings = s.settings := rfl
@[simp] theorem dropEntry_extents (n : Nat) (s : State) : (dropEntry n s).extents = s.extents := rfl
@[simp] theorem dropEntry_ctlClaim (n : Nat) (s : State) : (dropEntry n s).ctlClaim = s.ctlClaim := rfl
@[simp] theorem dropEntry_extClaims (n : Nat) (s : State) : (dropEntry n s).extClaims = s.extClaims := rfl
@[simp] theorem dropEntry_posted (n : Nat) (s : State) : (dropEntry n s).posted = s.posted := rfl
@[simp] theorem dropEntry_nextOrder (n : Nat) (s : State) : (dropEntry n s).nextOrder = s.nextOrder := rfl
@[simp] theorem dropEntry_direction (n : Nat) (s : State) : (dropEntry n s).direction = s.direction := rfl
@[simp] theorem dropEntry_seq (n : Nat) (s : State) : (dropEntry n s).seq = s.seq := rfl
@[simp] theorem dropEntry_ctlBuffer (n : Nat) (s : State) : (dropEntry n s).ctlBuffer = s.ctlBuffer := rfl
@[simp] theorem dropEntry_volume (n : Nat) (s : State) : (dropEntry n s).volume = s.volume := rfl
@[simp] theorem dropEntry_sweep (n : Nat) (s : State) : (dropEntry n s).sweep = s.sweep := rfl
@[simp] theorem dropEntry_sweepSeen (n : Nat) (s : State) : (dropEntry n s).sweepSeen = s.sweepSeen := rfl
@[simp] theorem dropEntry_levels (n : Nat) (s : State) : (dropEntry n s).levels = s.levels := rfl
@[simp] theorem dropEntry_acted (n : Nat) (s : State) : (dropEntry n s).acted = s.acted := rfl
@[simp] theorem dropEntry_powerPeriod (n : Nat) (s : State) : (dropEntry n s).powerPeriod = s.powerPeriod := rfl
@[simp] theorem dropEntry_powerTaken (n : Nat) (s : State) : (dropEntry n s).powerTaken = s.powerTaken := rfl
@[simp] theorem dropEntry_powerOwed (n : Nat) (s : State) : (dropEntry n s).powerOwed = s.powerOwed := rfl
@[simp] theorem dropEntry_powerEarly (n : Nat) (s : State) : (dropEntry n s).powerEarly = s.powerEarly := rfl
@[simp] theorem dropEntry_clock (n : Nat) (s : State) : (dropEntry n s).clock = s.clock := rfl
@[simp] theorem dropEntry_medium (n : Nat) (s : State) : (dropEntry n s).medium = s.medium := rfl
@[simp] theorem dropEntry_pending (n : Nat) (s : State) : (dropEntry n s).pending = s.pending := rfl
@[simp] theorem dropEntry_takers (n : Nat) (s : State) : (dropEntry n s).takers = s.takers := rfl

/-! ### `addDue` -/

@[simp] theorem addDue_logs (ch : Channel) (d : Due) (s : State) : (addDue ch d s).logs = s.logs := rfl
@[simp] theorem addDue_settings (ch : Channel) (d : Due) (s : State) : (addDue ch d s).settings = s.settings := rfl
@[simp] theorem addDue_extents (ch : Channel) (d : Due) (s : State) : (addDue ch d s).extents = s.extents := rfl
@[simp] theorem addDue_ctlClaim (ch : Channel) (d : Due) (s : State) : (addDue ch d s).ctlClaim = s.ctlClaim := rfl
@[simp] theorem addDue_extClaims (ch : Channel) (d : Due) (s : State) : (addDue ch d s).extClaims = s.extClaims := rfl
@[simp] theorem addDue_work (ch : Channel) (d : Due) (s : State) : (addDue ch d s).work = s.work := rfl
@[simp] theorem addDue_posted (ch : Channel) (d : Due) (s : State) : (addDue ch d s).posted = s.posted := rfl
@[simp] theorem addDue_nextOrder (ch : Channel) (d : Due) (s : State) : (addDue ch d s).nextOrder = s.nextOrder := rfl
@[simp] theorem addDue_direction (ch : Channel) (d : Due) (s : State) : (addDue ch d s).direction = s.direction := rfl
@[simp] theorem addDue_seq (ch : Channel) (d : Due) (s : State) : (addDue ch d s).seq = s.seq := rfl
@[simp] theorem addDue_ctlBuffer (ch : Channel) (d : Due) (s : State) : (addDue ch d s).ctlBuffer = s.ctlBuffer := rfl
@[simp] theorem addDue_volume (ch : Channel) (d : Due) (s : State) : (addDue ch d s).volume = s.volume := rfl
@[simp] theorem addDue_sweep (ch : Channel) (d : Due) (s : State) : (addDue ch d s).sweep = s.sweep := rfl
@[simp] theorem addDue_sweepSeen (ch : Channel) (d : Due) (s : State) : (addDue ch d s).sweepSeen = s.sweepSeen := rfl
@[simp] theorem addDue_levels (ch : Channel) (d : Due) (s : State) : (addDue ch d s).levels = s.levels := rfl
@[simp] theorem addDue_acted (ch : Channel) (d : Due) (s : State) : (addDue ch d s).acted = s.acted := rfl
@[simp] theorem addDue_powerPeriod (ch : Channel) (d : Due) (s : State) : (addDue ch d s).powerPeriod = s.powerPeriod := rfl
@[simp] theorem addDue_powerTaken (ch : Channel) (d : Due) (s : State) : (addDue ch d s).powerTaken = s.powerTaken := rfl
@[simp] theorem addDue_powerOwed (ch : Channel) (d : Due) (s : State) : (addDue ch d s).powerOwed = s.powerOwed := rfl
@[simp] theorem addDue_powerEarly (ch : Channel) (d : Due) (s : State) : (addDue ch d s).powerEarly = s.powerEarly := rfl
@[simp] theorem addDue_clock (ch : Channel) (d : Due) (s : State) : (addDue ch d s).clock = s.clock := rfl
@[simp] theorem addDue_medium (ch : Channel) (d : Due) (s : State) : (addDue ch d s).medium = s.medium := rfl
@[simp] theorem addDue_pending (ch : Channel) (d : Due) (s : State) : (addDue ch d s).pending = s.pending := rfl
@[simp] theorem addDue_takers (ch : Channel) (d : Due) (s : State) : (addDue ch d s).takers = s.takers := rfl

/-! ### `updSeq` -/

@[simp] theorem updSeq_ports (f : Sequencer → Sequencer) (s : State) : (updSeq f s).ports = s.ports := rfl
@[simp] theorem updSeq_logs (f : Sequencer → Sequencer) (s : State) : (updSeq f s).logs = s.logs := rfl
@[simp] theorem updSeq_settings (f : Sequencer → Sequencer) (s : State) : (updSeq f s).settings = s.settings := rfl
@[simp] theorem updSeq_extents (f : Sequencer → Sequencer) (s : State) : (updSeq f s).extents = s.extents := rfl
@[simp] theorem updSeq_ctlClaim (f : Sequencer → Sequencer) (s : State) : (updSeq f s).ctlClaim = s.ctlClaim := rfl
@[simp] theorem updSeq_extClaims (f : Sequencer → Sequencer) (s : State) : (updSeq f s).extClaims = s.extClaims := rfl
@[simp] theorem updSeq_work (f : Sequencer → Sequencer) (s : State) : (updSeq f s).work = s.work := rfl
@[simp] theorem updSeq_posted (f : Sequencer → Sequencer) (s : State) : (updSeq f s).posted = s.posted := rfl
@[simp] theorem updSeq_nextOrder (f : Sequencer → Sequencer) (s : State) : (updSeq f s).nextOrder = s.nextOrder := rfl
@[simp] theorem updSeq_direction (f : Sequencer → Sequencer) (s : State) : (updSeq f s).direction = s.direction := rfl
@[simp] theorem updSeq_ctlBuffer (f : Sequencer → Sequencer) (s : State) : (updSeq f s).ctlBuffer = s.ctlBuffer := rfl
@[simp] theorem updSeq_volume (f : Sequencer → Sequencer) (s : State) : (updSeq f s).volume = s.volume := rfl
@[simp] theorem updSeq_sweep (f : Sequencer → Sequencer) (s : State) : (updSeq f s).sweep = s.sweep := rfl
@[simp] theorem updSeq_sweepSeen (f : Sequencer → Sequencer) (s : State) : (updSeq f s).sweepSeen = s.sweepSeen := rfl
@[simp] theorem updSeq_levels (f : Sequencer → Sequencer) (s : State) : (updSeq f s).levels = s.levels := rfl
@[simp] theorem updSeq_acted (f : Sequencer → Sequencer) (s : State) : (updSeq f s).acted = s.acted := rfl
@[simp] theorem updSeq_powerPeriod (f : Sequencer → Sequencer) (s : State) : (updSeq f s).powerPeriod = s.powerPeriod := rfl
@[simp] theorem updSeq_powerTaken (f : Sequencer → Sequencer) (s : State) : (updSeq f s).powerTaken = s.powerTaken := rfl
@[simp] theorem updSeq_powerOwed (f : Sequencer → Sequencer) (s : State) : (updSeq f s).powerOwed = s.powerOwed := rfl
@[simp] theorem updSeq_powerEarly (f : Sequencer → Sequencer) (s : State) : (updSeq f s).powerEarly = s.powerEarly := rfl
@[simp] theorem updSeq_clock (f : Sequencer → Sequencer) (s : State) : (updSeq f s).clock = s.clock := rfl
@[simp] theorem updSeq_medium (f : Sequencer → Sequencer) (s : State) : (updSeq f s).medium = s.medium := rfl
@[simp] theorem updSeq_pending (f : Sequencer → Sequencer) (s : State) : (updSeq f s).pending = s.pending := rfl
@[simp] theorem updSeq_takers (f : Sequencer → Sequencer) (s : State) : (updSeq f s).takers = s.takers := rfl

/-! ### `updAccess` -/

@[simp] theorem updAccess_ports (f : Access → Access) (s : State) : (updAccess f s).ports = s.ports := rfl
@[simp] theorem updAccess_logs (f : Access → Access) (s : State) : (updAccess f s).logs = s.logs := rfl
@[simp] theorem updAccess_settings (f : Access → Access) (s : State) : (updAccess f s).settings = s.settings := rfl
@[simp] theorem updAccess_extents (f : Access → Access) (s : State) : (updAccess f s).extents = s.extents := rfl
@[simp] theorem updAccess_ctlClaim (f : Access → Access) (s : State) : (updAccess f s).ctlClaim = s.ctlClaim := rfl
@[simp] theorem updAccess_extClaims (f : Access → Access) (s : State) : (updAccess f s).extClaims = s.extClaims := rfl
@[simp] theorem updAccess_work (f : Access → Access) (s : State) : (updAccess f s).work = s.work := rfl
@[simp] theorem updAccess_posted (f : Access → Access) (s : State) : (updAccess f s).posted = s.posted := rfl
@[simp] theorem updAccess_nextOrder (f : Access → Access) (s : State) : (updAccess f s).nextOrder = s.nextOrder := rfl
@[simp] theorem updAccess_direction (f : Access → Access) (s : State) : (updAccess f s).direction = s.direction := rfl
@[simp] theorem updAccess_ctlBuffer (f : Access → Access) (s : State) : (updAccess f s).ctlBuffer = s.ctlBuffer := rfl
@[simp] theorem updAccess_volume (f : Access → Access) (s : State) : (updAccess f s).volume = s.volume := rfl
@[simp] theorem updAccess_sweep (f : Access → Access) (s : State) : (updAccess f s).sweep = s.sweep := rfl
@[simp] theorem updAccess_sweepSeen (f : Access → Access) (s : State) : (updAccess f s).sweepSeen = s.sweepSeen := rfl
@[simp] theorem updAccess_levels (f : Access → Access) (s : State) : (updAccess f s).levels = s.levels := rfl
@[simp] theorem updAccess_acted (f : Access → Access) (s : State) : (updAccess f s).acted = s.acted := rfl
@[simp] theorem updAccess_powerPeriod (f : Access → Access) (s : State) : (updAccess f s).powerPeriod = s.powerPeriod := rfl
@[simp] theorem updAccess_powerTaken (f : Access → Access) (s : State) : (updAccess f s).powerTaken = s.powerTaken := rfl
@[simp] theorem updAccess_powerOwed (f : Access → Access) (s : State) : (updAccess f s).powerOwed = s.powerOwed := rfl
@[simp] theorem updAccess_powerEarly (f : Access → Access) (s : State) : (updAccess f s).powerEarly = s.powerEarly := rfl
@[simp] theorem updAccess_clock (f : Access → Access) (s : State) : (updAccess f s).clock = s.clock := rfl
@[simp] theorem updAccess_medium (f : Access → Access) (s : State) : (updAccess f s).medium = s.medium := rfl
@[simp] theorem updAccess_pending (f : Access → Access) (s : State) : (updAccess f s).pending = s.pending := rfl
@[simp] theorem updAccess_takers (f : Access → Access) (s : State) : (updAccess f s).takers = s.takers := rfl

/-! ### `issueSeek` -/

@[simp] theorem issueSeek_ports (c : Nat) (s : State) : (issueSeek c s).ports = s.ports := rfl
@[simp] theorem issueSeek_logs (c : Nat) (s : State) : (issueSeek c s).logs = s.logs := rfl
@[simp] theorem issueSeek_settings (c : Nat) (s : State) : (issueSeek c s).settings = s.settings := rfl
@[simp] theorem issueSeek_extents (c : Nat) (s : State) : (issueSeek c s).extents = s.extents := rfl
@[simp] theorem issueSeek_ctlClaim (c : Nat) (s : State) : (issueSeek c s).ctlClaim = s.ctlClaim := rfl
@[simp] theorem issueSeek_extClaims (c : Nat) (s : State) : (issueSeek c s).extClaims = s.extClaims := rfl
@[simp] theorem issueSeek_work (c : Nat) (s : State) : (issueSeek c s).work = s.work := rfl
@[simp] theorem issueSeek_posted (c : Nat) (s : State) : (issueSeek c s).posted = s.posted := rfl
@[simp] theorem issueSeek_nextOrder (c : Nat) (s : State) : (issueSeek c s).nextOrder = s.nextOrder := rfl
@[simp] theorem issueSeek_direction (c : Nat) (s : State) : (issueSeek c s).direction = s.direction := rfl
@[simp] theorem issueSeek_ctlBuffer (c : Nat) (s : State) : (issueSeek c s).ctlBuffer = s.ctlBuffer := rfl
@[simp] theorem issueSeek_volume (c : Nat) (s : State) : (issueSeek c s).volume = s.volume := rfl
@[simp] theorem issueSeek_sweep (c : Nat) (s : State) : (issueSeek c s).sweep = s.sweep := rfl
@[simp] theorem issueSeek_sweepSeen (c : Nat) (s : State) : (issueSeek c s).sweepSeen = s.sweepSeen := rfl
@[simp] theorem issueSeek_levels (c : Nat) (s : State) : (issueSeek c s).levels = s.levels := rfl
@[simp] theorem issueSeek_acted (c : Nat) (s : State) : (issueSeek c s).acted = s.acted := rfl
@[simp] theorem issueSeek_powerPeriod (c : Nat) (s : State) : (issueSeek c s).powerPeriod = s.powerPeriod := rfl
@[simp] theorem issueSeek_powerTaken (c : Nat) (s : State) : (issueSeek c s).powerTaken = s.powerTaken := rfl
@[simp] theorem issueSeek_powerOwed (c : Nat) (s : State) : (issueSeek c s).powerOwed = s.powerOwed := rfl
@[simp] theorem issueSeek_powerEarly (c : Nat) (s : State) : (issueSeek c s).powerEarly = s.powerEarly := rfl
@[simp] theorem issueSeek_clock (c : Nat) (s : State) : (issueSeek c s).clock = s.clock := rfl
@[simp] theorem issueSeek_medium (c : Nat) (s : State) : (issueSeek c s).medium = s.medium := rfl
@[simp] theorem issueSeek_pending (c : Nat) (s : State) : (issueSeek c s).pending = s.pending := rfl
@[simp] theorem issueSeek_takers (c : Nat) (s : State) : (issueSeek c s).takers = s.takers := rfl

/-! ### `issueRestore` -/

@[simp] theorem issueRestore_ports (s : State) : (issueRestore s).ports = s.ports := rfl
@[simp] theorem issueRestore_logs (s : State) : (issueRestore s).logs = s.logs := rfl
@[simp] theorem issueRestore_settings (s : State) : (issueRestore s).settings = s.settings := rfl
@[simp] theorem issueRestore_extents (s : State) : (issueRestore s).extents = s.extents := rfl
@[simp] theorem issueRestore_ctlClaim (s : State) : (issueRestore s).ctlClaim = s.ctlClaim := rfl
@[simp] theorem issueRestore_extClaims (s : State) : (issueRestore s).extClaims = s.extClaims := rfl
@[simp] theorem issueRestore_work (s : State) : (issueRestore s).work = s.work := rfl
@[simp] theorem issueRestore_posted (s : State) : (issueRestore s).posted = s.posted := rfl
@[simp] theorem issueRestore_nextOrder (s : State) : (issueRestore s).nextOrder = s.nextOrder := rfl
@[simp] theorem issueRestore_direction (s : State) : (issueRestore s).direction = s.direction := rfl
@[simp] theorem issueRestore_ctlBuffer (s : State) : (issueRestore s).ctlBuffer = s.ctlBuffer := rfl
@[simp] theorem issueRestore_volume (s : State) : (issueRestore s).volume = s.volume := rfl
@[simp] theorem issueRestore_sweep (s : State) : (issueRestore s).sweep = s.sweep := rfl
@[simp] theorem issueRestore_sweepSeen (s : State) : (issueRestore s).sweepSeen = s.sweepSeen := rfl
@[simp] theorem issueRestore_levels (s : State) : (issueRestore s).levels = s.levels := rfl
@[simp] theorem issueRestore_acted (s : State) : (issueRestore s).acted = s.acted := rfl
@[simp] theorem issueRestore_powerPeriod (s : State) : (issueRestore s).powerPeriod = s.powerPeriod := rfl
@[simp] theorem issueRestore_powerTaken (s : State) : (issueRestore s).powerTaken = s.powerTaken := rfl
@[simp] theorem issueRestore_powerOwed (s : State) : (issueRestore s).powerOwed = s.powerOwed := rfl
@[simp] theorem issueRestore_powerEarly (s : State) : (issueRestore s).powerEarly = s.powerEarly := rfl
@[simp] theorem issueRestore_clock (s : State) : (issueRestore s).clock = s.clock := rfl
@[simp] theorem issueRestore_medium (s : State) : (issueRestore s).medium = s.medium := rfl
@[simp] theorem issueRestore_pending (s : State) : (issueRestore s).pending = s.pending := rfl
@[simp] theorem issueRestore_takers (s : State) : (issueRestore s).takers = s.takers := rfl

/-! ### `issueFaultClear` -/

@[simp] theorem issueFaultClear_ports (s : State) : (issueFaultClear s).ports = s.ports := rfl
@[simp] theorem issueFaultClear_logs (s : State) : (issueFaultClear s).logs = s.logs := rfl
@[simp] theorem issueFaultClear_settings (s : State) : (issueFaultClear s).settings = s.settings := rfl
@[simp] theorem issueFaultClear_extents (s : State) : (issueFaultClear s).extents = s.extents := rfl
@[simp] theorem issueFaultClear_ctlClaim (s : State) : (issueFaultClear s).ctlClaim = s.ctlClaim := rfl
@[simp] theorem issueFaultClear_extClaims (s : State) : (issueFaultClear s).extClaims = s.extClaims := rfl
@[simp] theorem issueFaultClear_work (s : State) : (issueFaultClear s).work = s.work := rfl
@[simp] theorem issueFaultClear_posted (s : State) : (issueFaultClear s).posted = s.posted := rfl
@[simp] theorem issueFaultClear_nextOrder (s : State) : (issueFaultClear s).nextOrder = s.nextOrder := rfl
@[simp] theorem issueFaultClear_direction (s : State) : (issueFaultClear s).direction = s.direction := rfl
@[simp] theorem issueFaultClear_ctlBuffer (s : State) : (issueFaultClear s).ctlBuffer = s.ctlBuffer := rfl
@[simp] theorem issueFaultClear_volume (s : State) : (issueFaultClear s).volume = s.volume := rfl
@[simp] theorem issueFaultClear_sweep (s : State) : (issueFaultClear s).sweep = s.sweep := rfl
@[simp] theorem issueFaultClear_sweepSeen (s : State) : (issueFaultClear s).sweepSeen = s.sweepSeen := rfl
@[simp] theorem issueFaultClear_levels (s : State) : (issueFaultClear s).levels = s.levels := rfl
@[simp] theorem issueFaultClear_acted (s : State) : (issueFaultClear s).acted = s.acted := rfl
@[simp] theorem issueFaultClear_powerPeriod (s : State) : (issueFaultClear s).powerPeriod = s.powerPeriod := rfl
@[simp] theorem issueFaultClear_powerTaken (s : State) : (issueFaultClear s).powerTaken = s.powerTaken := rfl
@[simp] theorem issueFaultClear_powerOwed (s : State) : (issueFaultClear s).powerOwed = s.powerOwed := rfl
@[simp] theorem issueFaultClear_powerEarly (s : State) : (issueFaultClear s).powerEarly = s.powerEarly := rfl
@[simp] theorem issueFaultClear_clock (s : State) : (issueFaultClear s).clock = s.clock := rfl
@[simp] theorem issueFaultClear_medium (s : State) : (issueFaultClear s).medium = s.medium := rfl
@[simp] theorem issueFaultClear_pending (s : State) : (issueFaultClear s).pending = s.pending := rfl
@[simp] theorem issueFaultClear_takers (s : State) : (issueFaultClear s).takers = s.takers := rfl

/-! ### `issueStop` -/

@[simp] theorem issueStop_ports (s : State) : (issueStop s).ports = s.ports := rfl
@[simp] theorem issueStop_logs (s : State) : (issueStop s).logs = s.logs := rfl
@[simp] theorem issueStop_settings (s : State) : (issueStop s).settings = s.settings := rfl
@[simp] theorem issueStop_extents (s : State) : (issueStop s).extents = s.extents := rfl
@[simp] theorem issueStop_ctlClaim (s : State) : (issueStop s).ctlClaim = s.ctlClaim := rfl
@[simp] theorem issueStop_extClaims (s : State) : (issueStop s).extClaims = s.extClaims := rfl
@[simp] theorem issueStop_work (s : State) : (issueStop s).work = s.work := rfl
@[simp] theorem issueStop_posted (s : State) : (issueStop s).posted = s.posted := rfl
@[simp] theorem issueStop_nextOrder (s : State) : (issueStop s).nextOrder = s.nextOrder := rfl
@[simp] theorem issueStop_direction (s : State) : (issueStop s).direction = s.direction := rfl
@[simp] theorem issueStop_ctlBuffer (s : State) : (issueStop s).ctlBuffer = s.ctlBuffer := rfl
@[simp] theorem issueStop_volume (s : State) : (issueStop s).volume = s.volume := rfl
@[simp] theorem issueStop_sweep (s : State) : (issueStop s).sweep = s.sweep := rfl
@[simp] theorem issueStop_sweepSeen (s : State) : (issueStop s).sweepSeen = s.sweepSeen := rfl
@[simp] theorem issueStop_levels (s : State) : (issueStop s).levels = s.levels := rfl
@[simp] theorem issueStop_acted (s : State) : (issueStop s).acted = s.acted := rfl
@[simp] theorem issueStop_powerPeriod (s : State) : (issueStop s).powerPeriod = s.powerPeriod := rfl
@[simp] theorem issueStop_powerTaken (s : State) : (issueStop s).powerTaken = s.powerTaken := rfl
@[simp] theorem issueStop_powerOwed (s : State) : (issueStop s).powerOwed = s.powerOwed := rfl
@[simp] theorem issueStop_powerEarly (s : State) : (issueStop s).powerEarly = s.powerEarly := rfl
@[simp] theorem issueStop_clock (s : State) : (issueStop s).clock = s.clock := rfl
@[simp] theorem issueStop_medium (s : State) : (issueStop s).medium = s.medium := rfl
@[simp] theorem issueStop_pending (s : State) : (issueStop s).pending = s.pending := rfl
@[simp] theorem issueStop_takers (s : State) : (issueStop s).takers = s.takers := rfl

/-! ### `startSearch` -/

@[simp] theorem startSearch_ports (a : Access) (s : State) : (startSearch a s).ports = s.ports := rfl
@[simp] theorem startSearch_logs (a : Access) (s : State) : (startSearch a s).logs = s.logs := rfl
@[simp] theorem startSearch_settings (a : Access) (s : State) : (startSearch a s).settings = s.settings := rfl
@[simp] theorem startSearch_extents (a : Access) (s : State) : (startSearch a s).extents = s.extents := rfl
@[simp] theorem startSearch_ctlClaim (a : Access) (s : State) : (startSearch a s).ctlClaim = s.ctlClaim := rfl
@[simp] theorem startSearch_extClaims (a : Access) (s : State) : (startSearch a s).extClaims = s.extClaims := rfl
@[simp] theorem startSearch_work (a : Access) (s : State) : (startSearch a s).work = s.work := rfl
@[simp] theorem startSearch_posted (a : Access) (s : State) : (startSearch a s).posted = s.posted := rfl
@[simp] theorem startSearch_nextOrder (a : Access) (s : State) : (startSearch a s).nextOrder = s.nextOrder := rfl
@[simp] theorem startSearch_direction (a : Access) (s : State) : (startSearch a s).direction = s.direction := rfl
@[simp] theorem startSearch_ctlBuffer (a : Access) (s : State) : (startSearch a s).ctlBuffer = s.ctlBuffer := rfl
@[simp] theorem startSearch_volume (a : Access) (s : State) : (startSearch a s).volume = s.volume := rfl
@[simp] theorem startSearch_sweep (a : Access) (s : State) : (startSearch a s).sweep = s.sweep := rfl
@[simp] theorem startSearch_sweepSeen (a : Access) (s : State) : (startSearch a s).sweepSeen = s.sweepSeen := rfl
@[simp] theorem startSearch_levels (a : Access) (s : State) : (startSearch a s).levels = s.levels := rfl
@[simp] theorem startSearch_acted (a : Access) (s : State) : (startSearch a s).acted = s.acted := rfl
@[simp] theorem startSearch_powerPeriod (a : Access) (s : State) : (startSearch a s).powerPeriod = s.powerPeriod := rfl
@[simp] theorem startSearch_powerTaken (a : Access) (s : State) : (startSearch a s).powerTaken = s.powerTaken := rfl
@[simp] theorem startSearch_powerOwed (a : Access) (s : State) : (startSearch a s).powerOwed = s.powerOwed := rfl
@[simp] theorem startSearch_powerEarly (a : Access) (s : State) : (startSearch a s).powerEarly = s.powerEarly := rfl
@[simp] theorem startSearch_clock (a : Access) (s : State) : (startSearch a s).clock = s.clock := rfl
@[simp] theorem startSearch_medium (a : Access) (s : State) : (startSearch a s).medium = s.medium := rfl
@[simp] theorem startSearch_pending (a : Access) (s : State) : (startSearch a s).pending = s.pending := rfl
@[simp] theorem startSearch_takers (a : Access) (s : State) : (startSearch a s).takers = s.takers := rfl

/-! ### `endAccess` -/

@[simp] theorem endAccess_ports (s : State) : (endAccess s).ports = s.ports := rfl
@[simp] theorem endAccess_logs (s : State) : (endAccess s).logs = s.logs := rfl
@[simp] theorem endAccess_settings (s : State) : (endAccess s).settings = s.settings := rfl
@[simp] theorem endAccess_extents (s : State) : (endAccess s).extents = s.extents := rfl
@[simp] theorem endAccess_ctlClaim (s : State) : (endAccess s).ctlClaim = s.ctlClaim := rfl
@[simp] theorem endAccess_extClaims (s : State) : (endAccess s).extClaims = s.extClaims := rfl
@[simp] theorem endAccess_work (s : State) : (endAccess s).work = s.work := rfl
@[simp] theorem endAccess_posted (s : State) : (endAccess s).posted = s.posted := rfl
@[simp] theorem endAccess_nextOrder (s : State) : (endAccess s).nextOrder = s.nextOrder := rfl
@[simp] theorem endAccess_direction (s : State) : (endAccess s).direction = s.direction := rfl
@[simp] theorem endAccess_volume (s : State) : (endAccess s).volume = s.volume := rfl
@[simp] theorem endAccess_sweep (s : State) : (endAccess s).sweep = s.sweep := rfl
@[simp] theorem endAccess_sweepSeen (s : State) : (endAccess s).sweepSeen = s.sweepSeen := rfl
@[simp] theorem endAccess_levels (s : State) : (endAccess s).levels = s.levels := rfl
@[simp] theorem endAccess_acted (s : State) : (endAccess s).acted = s.acted := rfl
@[simp] theorem endAccess_powerPeriod (s : State) : (endAccess s).powerPeriod = s.powerPeriod := rfl
@[simp] theorem endAccess_powerTaken (s : State) : (endAccess s).powerTaken = s.powerTaken := rfl
@[simp] theorem endAccess_powerOwed (s : State) : (endAccess s).powerOwed = s.powerOwed := rfl
@[simp] theorem endAccess_powerEarly (s : State) : (endAccess s).powerEarly = s.powerEarly := rfl
@[simp] theorem endAccess_clock (s : State) : (endAccess s).clock = s.clock := rfl
@[simp] theorem endAccess_medium (s : State) : (endAccess s).medium = s.medium := rfl
@[simp] theorem endAccess_pending (s : State) : (endAccess s).pending = s.pending := rfl
@[simp] theorem endAccess_takers (s : State) : (endAccess s).takers = s.takers := rfl

/-! ### `enterNotSafe` -/

@[simp] theorem enterNotSafe_ports (s : State) : (enterNotSafe s).ports = s.ports := rfl
@[simp] theorem enterNotSafe_logs (s : State) : (enterNotSafe s).logs = s.logs := rfl
@[simp] theorem enterNotSafe_settings (s : State) : (enterNotSafe s).settings = s.settings := rfl
@[simp] theorem enterNotSafe_extents (s : State) : (enterNotSafe s).extents = s.extents := rfl
@[simp] theorem enterNotSafe_ctlClaim (s : State) : (enterNotSafe s).ctlClaim = s.ctlClaim := rfl
@[simp] theorem enterNotSafe_extClaims (s : State) : (enterNotSafe s).extClaims = s.extClaims := rfl
@[simp] theorem enterNotSafe_work (s : State) : (enterNotSafe s).work = s.work := rfl
@[simp] theorem enterNotSafe_posted (s : State) : (enterNotSafe s).posted = s.posted := rfl
@[simp] theorem enterNotSafe_nextOrder (s : State) : (enterNotSafe s).nextOrder = s.nextOrder := rfl
@[simp] theorem enterNotSafe_direction (s : State) : (enterNotSafe s).direction = s.direction := rfl
@[simp] theorem enterNotSafe_ctlBuffer (s : State) : (enterNotSafe s).ctlBuffer = s.ctlBuffer := rfl
@[simp] theorem enterNotSafe_volume (s : State) : (enterNotSafe s).volume = s.volume := rfl
@[simp] theorem enterNotSafe_sweep (s : State) : (enterNotSafe s).sweep = s.sweep := rfl
@[simp] theorem enterNotSafe_sweepSeen (s : State) : (enterNotSafe s).sweepSeen = s.sweepSeen := rfl
@[simp] theorem enterNotSafe_levels (s : State) : (enterNotSafe s).levels = s.levels := rfl
@[simp] theorem enterNotSafe_acted (s : State) : (enterNotSafe s).acted = s.acted := rfl
@[simp] theorem enterNotSafe_powerPeriod (s : State) : (enterNotSafe s).powerPeriod = s.powerPeriod := rfl
@[simp] theorem enterNotSafe_powerTaken (s : State) : (enterNotSafe s).powerTaken = s.powerTaken := rfl
@[simp] theorem enterNotSafe_powerOwed (s : State) : (enterNotSafe s).powerOwed = s.powerOwed := rfl
@[simp] theorem enterNotSafe_powerEarly (s : State) : (enterNotSafe s).powerEarly = s.powerEarly := rfl
@[simp] theorem enterNotSafe_clock (s : State) : (enterNotSafe s).clock = s.clock := rfl
@[simp] theorem enterNotSafe_medium (s : State) : (enterNotSafe s).medium = s.medium := rfl
@[simp] theorem enterNotSafe_pending (s : State) : (enterNotSafe s).pending = s.pending := rfl
@[simp] theorem enterNotSafe_takers (s : State) : (enterNotSafe s).takers = s.takers := rfl

/-! ### `enterNoCartridge` -/

@[simp] theorem enterNoCartridge_ports (s : State) : (enterNoCartridge s).ports = s.ports := rfl
@[simp] theorem enterNoCartridge_logs (s : State) : (enterNoCartridge s).logs = s.logs := rfl
@[simp] theorem enterNoCartridge_settings (s : State) : (enterNoCartridge s).settings = s.settings := rfl
@[simp] theorem enterNoCartridge_extents (s : State) : (enterNoCartridge s).extents = s.extents := rfl
@[simp] theorem enterNoCartridge_ctlClaim (s : State) : (enterNoCartridge s).ctlClaim = s.ctlClaim := rfl
@[simp] theorem enterNoCartridge_extClaims (s : State) : (enterNoCartridge s).extClaims = s.extClaims := rfl
@[simp] theorem enterNoCartridge_work (s : State) : (enterNoCartridge s).work = s.work := rfl
@[simp] theorem enterNoCartridge_posted (s : State) : (enterNoCartridge s).posted = s.posted := rfl
@[simp] theorem enterNoCartridge_nextOrder (s : State) : (enterNoCartridge s).nextOrder = s.nextOrder := rfl
@[simp] theorem enterNoCartridge_direction (s : State) : (enterNoCartridge s).direction = s.direction := rfl
@[simp] theorem enterNoCartridge_ctlBuffer (s : State) : (enterNoCartridge s).ctlBuffer = s.ctlBuffer := rfl
@[simp] theorem enterNoCartridge_volume (s : State) : (enterNoCartridge s).volume = s.volume := rfl
@[simp] theorem enterNoCartridge_sweep (s : State) : (enterNoCartridge s).sweep = s.sweep := rfl
@[simp] theorem enterNoCartridge_sweepSeen (s : State) : (enterNoCartridge s).sweepSeen = s.sweepSeen := rfl
@[simp] theorem enterNoCartridge_levels (s : State) : (enterNoCartridge s).levels = s.levels := rfl
@[simp] theorem enterNoCartridge_acted (s : State) : (enterNoCartridge s).acted = s.acted := rfl
@[simp] theorem enterNoCartridge_powerPeriod (s : State) : (enterNoCartridge s).powerPeriod = s.powerPeriod := rfl
@[simp] theorem enterNoCartridge_powerTaken (s : State) : (enterNoCartridge s).powerTaken = s.powerTaken := rfl
@[simp] theorem enterNoCartridge_powerOwed (s : State) : (enterNoCartridge s).powerOwed = s.powerOwed := rfl
@[simp] theorem enterNoCartridge_powerEarly (s : State) : (enterNoCartridge s).powerEarly = s.powerEarly := rfl
@[simp] theorem enterNoCartridge_clock (s : State) : (enterNoCartridge s).clock = s.clock := rfl
@[simp] theorem enterNoCartridge_medium (s : State) : (enterNoCartridge s).medium = s.medium := rfl
@[simp] theorem enterNoCartridge_pending (s : State) : (enterNoCartridge s).pending = s.pending := rfl
@[simp] theorem enterNoCartridge_takers (s : State) : (enterNoCartridge s).takers = s.takers := rfl

/-! ### `setMount` -/

@[simp] theorem setMount_ports (m : MountStage) (s : State) : (setMount m s).ports = s.ports := rfl
@[simp] theorem setMount_logs (m : MountStage) (s : State) : (setMount m s).logs = s.logs := rfl
@[simp] theorem setMount_settings (m : MountStage) (s : State) : (setMount m s).settings = s.settings := rfl
@[simp] theorem setMount_extents (m : MountStage) (s : State) : (setMount m s).extents = s.extents := rfl
@[simp] theorem setMount_ctlClaim (m : MountStage) (s : State) : (setMount m s).ctlClaim = s.ctlClaim := rfl
@[simp] theorem setMount_extClaims (m : MountStage) (s : State) : (setMount m s).extClaims = s.extClaims := rfl
@[simp] theorem setMount_work (m : MountStage) (s : State) : (setMount m s).work = s.work := rfl
@[simp] theorem setMount_posted (m : MountStage) (s : State) : (setMount m s).posted = s.posted := rfl
@[simp] theorem setMount_nextOrder (m : MountStage) (s : State) : (setMount m s).nextOrder = s.nextOrder := rfl
@[simp] theorem setMount_direction (m : MountStage) (s : State) : (setMount m s).direction = s.direction := rfl
@[simp] theorem setMount_seq (m : MountStage) (s : State) : (setMount m s).seq = s.seq := rfl
@[simp] theorem setMount_ctlBuffer (m : MountStage) (s : State) : (setMount m s).ctlBuffer = s.ctlBuffer := rfl
@[simp] theorem setMount_sweep (m : MountStage) (s : State) : (setMount m s).sweep = s.sweep := rfl
@[simp] theorem setMount_sweepSeen (m : MountStage) (s : State) : (setMount m s).sweepSeen = s.sweepSeen := rfl
@[simp] theorem setMount_levels (m : MountStage) (s : State) : (setMount m s).levels = s.levels := rfl
@[simp] theorem setMount_acted (m : MountStage) (s : State) : (setMount m s).acted = s.acted := rfl
@[simp] theorem setMount_powerPeriod (m : MountStage) (s : State) : (setMount m s).powerPeriod = s.powerPeriod := rfl
@[simp] theorem setMount_powerTaken (m : MountStage) (s : State) : (setMount m s).powerTaken = s.powerTaken := rfl
@[simp] theorem setMount_powerOwed (m : MountStage) (s : State) : (setMount m s).powerOwed = s.powerOwed := rfl
@[simp] theorem setMount_powerEarly (m : MountStage) (s : State) : (setMount m s).powerEarly = s.powerEarly := rfl
@[simp] theorem setMount_clock (m : MountStage) (s : State) : (setMount m s).clock = s.clock := rfl
@[simp] theorem setMount_medium (m : MountStage) (s : State) : (setMount m s).medium = s.medium := rfl
@[simp] theorem setMount_pending (m : MountStage) (s : State) : (setMount m s).pending = s.pending := rfl
@[simp] theorem setMount_takers (m : MountStage) (s : State) : (setMount m s).takers = s.takers := rfl

/-! ### `setClaim` -/

@[simp] theorem setClaim_ports (t : ClaimTarget) (c : ClaimRecord) (s : State) : (setClaim t c s).ports = s.ports := by
  cases t <;> rfl
@[simp] theorem setClaim_logs (t : ClaimTarget) (c : ClaimRecord) (s : State) : (setClaim t c s).logs = s.logs := by
  cases t <;> rfl
@[simp] theorem setClaim_settings (t : ClaimTarget) (c : ClaimRecord) (s : State) : (setClaim t c s).settings = s.settings := by
  cases t <;> rfl
@[simp] theorem setClaim_extents (t : ClaimTarget) (c : ClaimRecord) (s : State) : (setClaim t c s).extents = s.extents := by
  cases t <;> rfl
@[simp] theorem setClaim_work (t : ClaimTarget) (c : ClaimRecord) (s : State) : (setClaim t c s).work = s.work := by
  cases t <;> rfl
@[simp] theorem setClaim_posted (t : ClaimTarget) (c : ClaimRecord) (s : State) : (setClaim t c s).posted = s.posted := by
  cases t <;> rfl
@[simp] theorem setClaim_nextOrder (t : ClaimTarget) (c : ClaimRecord) (s : State) : (setClaim t c s).nextOrder = s.nextOrder := by
  cases t <;> rfl
@[simp] theorem setClaim_direction (t : ClaimTarget) (c : ClaimRecord) (s : State) : (setClaim t c s).direction = s.direction := by
  cases t <;> rfl
@[simp] theorem setClaim_seq (t : ClaimTarget) (c : ClaimRecord) (s : State) : (setClaim t c s).seq = s.seq := by
  cases t <;> rfl
@[simp] theorem setClaim_ctlBuffer (t : ClaimTarget) (c : ClaimRecord) (s : State) : (setClaim t c s).ctlBuffer = s.ctlBuffer := by
  cases t <;> rfl
@[simp] theorem setClaim_volume (t : ClaimTarget) (c : ClaimRecord) (s : State) : (setClaim t c s).volume = s.volume := by
  cases t <;> rfl
@[simp] theorem setClaim_sweep (t : ClaimTarget) (c : ClaimRecord) (s : State) : (setClaim t c s).sweep = s.sweep := by
  cases t <;> rfl
@[simp] theorem setClaim_sweepSeen (t : ClaimTarget) (c : ClaimRecord) (s : State) : (setClaim t c s).sweepSeen = s.sweepSeen := by
  cases t <;> rfl
@[simp] theorem setClaim_levels (t : ClaimTarget) (c : ClaimRecord) (s : State) : (setClaim t c s).levels = s.levels := by
  cases t <;> rfl
@[simp] theorem setClaim_acted (t : ClaimTarget) (c : ClaimRecord) (s : State) : (setClaim t c s).acted = s.acted := by
  cases t <;> rfl
@[simp] theorem setClaim_powerPeriod (t : ClaimTarget) (c : ClaimRecord) (s : State) : (setClaim t c s).powerPeriod = s.powerPeriod := by
  cases t <;> rfl
@[simp] theorem setClaim_powerTaken (t : ClaimTarget) (c : ClaimRecord) (s : State) : (setClaim t c s).powerTaken = s.powerTaken := by
  cases t <;> rfl
@[simp] theorem setClaim_powerOwed (t : ClaimTarget) (c : ClaimRecord) (s : State) : (setClaim t c s).powerOwed = s.powerOwed := by
  cases t <;> rfl
@[simp] theorem setClaim_powerEarly (t : ClaimTarget) (c : ClaimRecord) (s : State) : (setClaim t c s).powerEarly = s.powerEarly := by
  cases t <;> rfl
@[simp] theorem setClaim_clock (t : ClaimTarget) (c : ClaimRecord) (s : State) : (setClaim t c s).clock = s.clock := by
  cases t <;> rfl
@[simp] theorem setClaim_medium (t : ClaimTarget) (c : ClaimRecord) (s : State) : (setClaim t c s).medium = s.medium := by
  cases t <;> rfl
@[simp] theorem setClaim_pending (t : ClaimTarget) (c : ClaimRecord) (s : State) : (setClaim t c s).pending = s.pending := by
  cases t <;> rfl
@[simp] theorem setClaim_takers (t : ClaimTarget) (c : ClaimRecord) (s : State) : (setClaim t c s).takers = s.takers := by
  cases t <;> rfl

/-! ### Ports -/

@[simp] theorem PerChannel.get_set_same {α : Type} (p : PerChannel α) (ch : Channel) (v : α) : (p.set ch v).get ch = v := by
  cases ch <;> rfl

@[simp] theorem PerChannel.get_set_other {α : Type} (p : PerChannel α) (ch : Channel) (v : α) :
    (p.set ch v).get ch.other = p.get ch.other := by
  cases ch <;> rfl

theorem PerChannel.get_set {α : Type} (p : PerChannel α) (ch dh : Channel) (v : α) :
    (p.set ch v).get dh = if dh = ch then v else p.get dh := by
  cases ch <;> cases dh <;> rfl

@[simp] theorem updPort_port_same (s : State) (ch : Channel) (f : Port → Port) : (s.updPort ch f).port ch = f (s.port ch) := by
  cases ch <;> rfl

@[simp] theorem updPort_port_other (s : State) (ch : Channel) (f : Port → Port) :
    (s.updPort ch f).port ch.other = s.port ch.other := by
  cases ch <;> rfl

theorem updPort_port (s : State) (ch dh : Channel) (f : Port → Port) :
    (s.updPort ch f).port dh = if dh = ch then f (s.port ch) else s.port dh := by
  cases ch <;> cases dh <;> rfl

theorem updPort_updPort (s : State) (ch : Channel) (f g : Port → Port) :
    (s.updPort ch f).updPort ch g = s.updPort ch (fun p => g (f p)) := by
  cases ch <;> rfl

/-! ### Slots of a table -/

theorem get_set {α : Type} {n : Nat} (v : Vector α n) (i j : Fin n) (x : α) :
    (v.set i.val x i.isLt).get j = if j = i then x else v.get j := by
  have h : (v.set i.val x i.isLt).get j = (v.set i.val x i.isLt)[j.val] := rfl
  have h' : v.get j = v[j.val] := rfl
  rw [h, h', Vector.getElem_set]
  by_cases e : j = i
  · subst e; simp
  · have hv : i.val ≠ j.val := fun q => e (Fin.ext q).symm
    simp [e, hv]

@[simp] theorem get_replicate {α : Type} (n : Nat) (x : α) (i : Fin n) : (Vector.replicate n x).get i = x := by
  have h : (Vector.replicate n x).get i = (Vector.replicate n x)[i.val] := rfl
  rw [h, Vector.getElem_replicate]

@[simp] theorem get_map {α β : Type} {n : Nat} (v : Vector α n) (f : α → β) (i : Fin n) : (v.map f).get i = f (v.get i) := by
  have h : (v.map f).get i = (v.map f)[i.val] := rfl
  have h' : v.get i = v[i.val] := rfl
  rw [h, h', Vector.getElem_map]

/-! ### Claims -/

@[simp] theorem setClaim_claim_same (t : ClaimTarget) (c : ClaimRecord) (s : State) : (setClaim t c s).claim t = c := by
  cases t with
  | controller => rfl
  | extent k => simp [setClaim, State.claim, get_set]

theorem setClaim_claim_other {t u : ClaimTarget} (h : u ≠ t) (c : ClaimRecord) (s : State) :
    (setClaim t c s).claim u = s.claim u := by
  cases t with
  | controller => cases u with
    | controller => exact absurd rfl h
    | extent k => rfl
  | extent k => cases u with
    | controller => rfl
    | extent j =>
      have hjk : j ≠ k := fun e => h (by rw [e])
      simp [setClaim, State.claim, get_set, hjk]

/-! ### Extents -/

theorem updExtent_extent (k j : Slot) (f : Extent → Extent) (s : State) :
    (updExtent k f s).extent j = if j = k then (s.extent j).map f else s.extent j := by
  by_cases h : j = k
  · subst h; simp [updExtent, State.extent, get_set]
  · simp [updExtent, State.extent, get_set, h]

end Sys2Proof.Machine
end

