-- ==== Sys2Proof/Laws/Control.lean ====
section
/-! SUPPORT. The controls of the machine: settings, levels, levels acted on, POWER period, clock, controller claim, the queue of commands and who
takes the line changes among them. Nothing a drive passage, an ending, a placing of replies or a settling does touches them; one lemma for each operation. -/

namespace Sys2Proof.Machine

/-- What no inner operation changes. -/
def State.control (s : State) : Settings × LineSet × LineSet × Option ShutdownMode × Option ShutdownMode × List ShutdownMode × Nat × Millis × ClaimRecord × List Instr × List Taker :=
  (s.settings, s.levels, s.acted, s.powerPeriod, s.powerTaken, s.powerOwed, s.powerEarly, s.clock, s.ctlClaim, s.pending, s.takers)

@[simp] theorem control_mk {ports} {logs} {settings} {extents} {ctlClaim} {extClaims} {work} {posted} {nextOrder} {direction} {seq} {ctlBuffer} {volume} {sweep} {sweepSeen} {levels} {acted} {powerPeriod} {powerTaken} {powerOwed} {powerEarly} {clock} {medium} {pending} {takers} :
    State.control (State.mk ports logs settings extents ctlClaim extClaims work posted nextOrder direction seq ctlBuffer volume sweep sweepSeen levels acted powerPeriod powerTaken powerOwed powerEarly clock medium pending takers) = (settings, levels, acted, powerPeriod, powerTaken, powerOwed, powerEarly, clock, ctlClaim, pending, takers) := rfl

@[simp] theorem control_eta (s : State) : (s.settings, s.levels, s.acted, s.powerPeriod, s.powerTaken, s.powerOwed, s.powerEarly, s.clock, s.ctlClaim, s.pending, s.takers) = s.control := rfl

theorem foldl_control {α : Type} (f : State → α → State) (h : ∀ s a, (f s a).control = s.control) (l : List α) (s : State) :
    (l.foldl f s).control = s.control := by
  induction l generalizing s with
  | nil => rfl
  | cons a l ih => rw [List.foldl_cons, ih, h]

theorem settings_of_control {s t : State} (h : t.control = s.control) : t.settings = s.settings := by
  simp only [State.control, Prod.mk.injEq] at h
  exact h.1

theorem levels_of_control {s t : State} (h : t.control = s.control) : t.levels = s.levels := by
  simp only [State.control, Prod.mk.injEq] at h
  exact h.2.1

theorem acted_of_control {s t : State} (h : t.control = s.control) : t.acted = s.acted := by
  simp only [State.control, Prod.mk.injEq] at h
  exact h.2.2.1

theorem powerPeriod_of_control {s t : State} (h : t.control = s.control) : t.powerPeriod = s.powerPeriod := by
  simp only [State.control, Prod.mk.injEq] at h
  exact h.2.2.2.1

theorem powerTaken_of_control {s t : State} (h : t.control = s.control) : t.powerTaken = s.powerTaken := by
  simp only [State.control, Prod.mk.injEq] at h
  exact h.2.2.2.2.1

theorem powerOwed_of_control {s t : State} (h : t.control = s.control) : t.powerOwed = s.powerOwed := by
  simp only [State.control, Prod.mk.injEq] at h
  exact h.2.2.2.2.2.1

theorem powerEarly_of_control {s t : State} (h : t.control = s.control) : t.powerEarly = s.powerEarly := by
  simp only [State.control, Prod.mk.injEq] at h
  exact h.2.2.2.2.2.2.1

theorem clock_of_control {s t : State} (h : t.control = s.control) : t.clock = s.clock := by
  simp only [State.control, Prod.mk.injEq] at h
  exact h.2.2.2.2.2.2.2.1

theorem ctlClaim_of_control {s t : State} (h : t.control = s.control) : t.ctlClaim = s.ctlClaim := by
  simp only [State.control, Prod.mk.injEq] at h
  exact h.2.2.2.2.2.2.2.2.1

theorem pending_of_control {s t : State} (h : t.control = s.control) : t.pending = s.pending := by
  simp only [State.control, Prod.mk.injEq] at h
  exact h.2.2.2.2.2.2.2.2.2.1

theorem takers_of_control {s t : State} (h : t.control = s.control) : t.takers = s.takers := by
  simp only [State.control, Prod.mk.injEq] at h
  exact h.2.2.2.2.2.2.2.2.2.2

@[simp] theorem State.updPort_control (s : State) (ch : Channel) (f : Port → Port) : (State.updPort s ch f).control = s.control := rfl

@[simp] theorem raise_control (ch : Channel) (k : EventKind) (s : State) : (raise ch k s).control = s.control := rfl

@[simp] theorem raiseBoth_control (k : EventKind) (s : State) : (raiseBoth k s).control = s.control := rfl

@[simp] theorem placeFreed_control (s : State) : (placeFreed s).control = s.control := rfl

@[simp] theorem updExtent_control (k : Slot) (f : Extent → Extent) (s : State) : (updExtent k f s).control = s.control := rfl

@[simp] theorem updFill_control (k : Slot) (f : Fill → Fill) (s : State) : (updFill k f s).control = s.control := rfl

@[simp] theorem lowerPending_control (k : Slot) (n : Nat) (s : State) : (lowerPending k n s).control = s.control := rfl

@[simp] theorem updEntry_control (n : Nat) (f : Entry → Entry) (s : State) : (updEntry n f s).control = s.control := rfl

@[simp] theorem dropEntry_control (n : Nat) (s : State) : (dropEntry n s).control = s.control := rfl

@[simp] theorem updPosted_control (n : Nat) (f : Posted → Posted) (s : State) : (updPosted n f s).control = s.control := rfl

@[simp] theorem reportCondition_control (n i : Nat) (c : Condition) (s : State) : (reportCondition n i c s).control = s.control := rfl

@[simp] theorem placeReply_control (ch : Channel) (d : Due) (s : State) : (placeReply ch d s).control = s.control := by
  unfold placeReply
  try dsimp only
  repeat' split
  all_goals simp

@[simp] theorem placeList_control (ch : Channel) (ds : List Due) (s : State) : (placeList ch ds s).control = s.control := by
  induction ds generalizing s with
  | nil => rfl
  | cons d ds ih => unfold placeList; split <;> simp [ih]

@[simp] theorem placeDue_control (ch : Channel) (s : State) : (placeDue ch s).control = s.control := by
  simp [placeDue]

@[simp] theorem placeBoth_control (s : State) : (placeBoth s).control = s.control := by
  unfold placeBoth
  try dsimp only
  all_goals simp

@[simp] theorem addDue_control (ch : Channel) (d : Due) (s : State) : (addDue ch d s).control = s.control := rfl

@[simp] theorem formReply_control (ch : Channel) (r : Reply) (s : State) : (formReply ch r s).control = s.control := by
  unfold formReply
  try dsimp only
  all_goals simp

@[simp] theorem complete_control (ch : Channel) (r : Request) (outcome : Code) (body : Body) (s : State) : (complete ch r outcome body s).control = s.control := by
  unfold complete
  try dsimp only
  all_goals simp

@[simp] theorem topUpOne_control (ch : Channel) (s : State) (e : Entry) : (topUpOne ch s e).control = s.control := by
  unfold topUpOne
  try dsimp only
  repeat' split
  all_goals simp

@[simp] theorem topUp_control (ch : Channel) (s : State) : (topUp ch s).control = s.control :=
  foldl_control _ (fun s x => by simp) _ s

@[simp] theorem topUpBoth_control (s : State) : (topUpBoth s).control = s.control := by
  unfold topUpBoth
  try dsimp only
  all_goals simp

@[simp] theorem refuse_control (ch : Channel) (r : Request) (code : Code) (s : State) : (refuse ch r code s).control = s.control := by
  unfold refuse
  try dsimp only
  all_goals simp

@[simp] theorem endEntry_control (n : Nat) (code : Code) (s : State) : (endEntry n code s).control = s.control := by
  unfold endEntry
  try dsimp only
  repeat' split
  all_goals simp

@[simp] theorem endEntries_control (ns : List Nat) (code : Code) (s : State) : (endEntries ns code s).control = s.control :=
  foldl_control _ (fun s x => by simp) _ s

@[simp] theorem endFlush_control (s : State) (e : Entry) : (endFlush s e).control = s.control := by
  unfold endFlush
  try dsimp only
  repeat' split
  all_goals simp

@[simp] theorem postedLeaves_control (n : Nat) (fault : Bool) (s : State) : (postedLeaves n fault s).control = s.control := by
  simp only [postedLeaves]
  rw [foldl_control _ (fun s x => by simp)]
  simp [placeFreed]

@[simp] theorem commitPosted_control (n : Nat) (s : State) : (commitPosted n s).control = s.control := by
  unfold commitPosted
  try dsimp only
  all_goals simp

@[simp] theorem logFault_control (cause : Code) (s : State) (p : Posted) : (logFault cause s p).control = s.control := rfl

@[simp] theorem leaveFaulted_control (p : Posted) (s : State) : (leaveFaulted p s).control = s.control := by
  unfold leaveFaulted
  try dsimp only
  repeat' split
  all_goals simp

@[simp] theorem faultOne_control (n : Nat) (cause : Code) (s : State) : (faultOne n cause s).control = s.control := by
  unfold faultOne
  try dsimp only
  repeat' split
  all_goals simp

@[simp] theorem faultAll_control (ns : List Nat) (cause : Code) (s : State) : (faultAll ns cause s).control = s.control :=
  foldl_control _ (fun s x => by simp) _ s

@[simp] theorem faultPosted_control (n : Nat) (cause : Code) (s : State) : (faultPosted n cause s).control = s.control := by
  unfold faultPosted
  split <;> simp

@[simp] theorem fillBecomesUnknown_control (k : Slot) (s : State) : (fillBecomesUnknown k s).control = s.control := by
  unfold fillBecomesUnknown
  dsimp only
  rw [foldl_control _ (fun s x => by simp)]
  simp

@[simp] theorem recordDefect_control (c h n : Nat) (cause : DefectCause) (s : State) : (recordDefect c h n cause s).control = s.control := by
  unfold recordDefect
  try dsimp only
  repeat' split
  all_goals simp

@[simp] theorem removeDefect_control (c h n : Nat) (s : State) : (removeDefect c h n s).control = s.control := rfl

@[simp] theorem putHeader_control (a : Nat) (h : HeaderRecord) (s : State) : (putHeader a h s).control = s.control := by
  unfold putHeader
  try dsimp only
  repeat' split
  all_goals simp

@[simp] theorem putData_control (a : Nat) (st : HeaderState) (d : DataRecord) (s : State) : (putData a st d s).control = s.control := by
  unfold putData
  try dsimp only
  repeat' split
  all_goals simp

@[simp] theorem issueStop_control (s : State) : (issueStop s).control = s.control := rfl

@[simp] theorem releaseStop_control (s : State) : (releaseStop s).control = s.control := by
  unfold releaseStop
  try dsimp only
  repeat' split
  all_goals simp

@[simp] theorem enterReleasing_control (s : State) : (enterReleasing s).control = s.control := by
  unfold enterReleasing
  try dsimp only
  all_goals simp

@[simp] theorem drainEnds_control (s : State) : (drainEnds s).control = s.control := by
  unfold drainEnds
  try dsimp only
  repeat' split
  all_goals simp

@[simp] theorem markSlots_control (on : Bool) (ks : List Slot) (s : State) : (markSlots on ks s).control = s.control :=
  foldl_control _ (fun s x => by simp) _ s

@[simp] theorem endSweep_control (cause : Option StopCause) (s : State) : (endSweep cause s).control = s.control := by
  unfold endSweep
  try dsimp only
  repeat' split
  all_goals simp

@[simp] theorem haltSweep_control (s : State) : (haltSweep s).control = s.control := by
  unfold haltSweep
  try dsimp only
  repeat' split
  all_goals simp

@[simp] theorem nextItem_control (s : State) : (nextItem s).control = s.control := by
  unfold nextItem
  try dsimp only
  repeat' split
  all_goals simp

@[simp] theorem giveResult_control (r : SweepResult) (s : State) : (giveResult r s).control = s.control := by
  unfold giveResult
  try dsimp only
  repeat' split
  all_goals simp

@[simp] theorem stopAfterStep_control (r : Option SweepResult) (s : State) : (stopAfterStep r s).control = s.control := by
  unfold stopAfterStep
  try dsimp only
  repeat' split
  all_goals simp

@[simp] theorem stepEnded_control (r : Option SweepResult) (s : State) : (stepEnded r s).control = s.control := by
  unfold stepEnded
  try dsimp only
  repeat' split
  all_goals simp

@[simp] theorem setSweepSector_control (m : Nat) (s : State) : (setSweepSector m s).control = s.control := rfl

@[simp] theorem failItem_control (s : State) : (failItem s).control = s.control := rfl

@[simp] theorem passComplete_control (k : Slot) (s : State) : (passComplete k s).control = s.control := rfl

@[simp] theorem clearingStepDone_control (k : Slot) (m : Nat) (s : State) : (clearingStepDone k m s).control = s.control := by
  unfold clearingStepDone
  try dsimp only
  repeat' split
  all_goals simp

@[simp] theorem clearingStepFailed_control (k : Slot) (m : Nat) (s : State) : (clearingStepFailed k m s).control = s.control := by
  unfold clearingStepFailed
  try dsimp only
  repeat' split
  all_goals simp

@[simp] theorem scanningStepEnded_control (m size : Nat) (failed : Bool) (s : State) : (scanningStepEnded m size failed s).control = s.control := by
  unfold scanningStepEnded
  try dsimp only
  repeat' split
  all_goals simp

@[simp] theorem fillAsLastDone_control (m : Nat) (k : Slot) (s : State) : (fillAsLastDone m k s).control = s.control :=
  updFill_control _ _ _

@[simp] theorem stepSeekError_control (s : State) : (stepSeekError s).control = s.control := by
  unfold stepSeekError
  repeat' split
  all_goals simp

@[simp] theorem stepUnmade_control (s : State) : (stepUnmade s).control = s.control := by
  unfold stepUnmade
  try dsimp only
  all_goals simp

@[simp] theorem endVolumeWork_control (s : State) : (endVolumeWork s).control = s.control := by
  unfold endVolumeWork
  try dsimp only
  repeat' split
  all_goals simp

@[simp] theorem drainExpiry_control (s : State) : (drainExpiry s).control = s.control := by
  unfold drainExpiry
  try dsimp only
  repeat' split
  all_goals simp

@[simp] theorem drainCheck_control (s : State) : (drainCheck s).control = s.control := by
  unfold drainCheck
  try dsimp only
  repeat' split
  all_goals simp

@[simp] theorem settle_control (s : State) : (settle s).control = s.control := by
  unfold settle
  try dsimp only
  all_goals simp

@[simp] theorem waitForPlace_control (ch : Channel) (r : Request) (s : State) : (waitForPlace ch r s).control = s.control := rfl

@[simp] theorem joinWork_control (ch : Channel) (e : Entry) (s : State) : (joinWork ch e s).control = s.control := rfl

@[simp] theorem joinOrWait_control (ch : Channel) (r : Request) (e : Entry) (s : State) : (joinOrWait ch r e s).control = s.control := by
  unfold joinOrWait
  try dsimp only
  repeat' split
  all_goals simp

@[simp] theorem post_control (ch : Channel) (r : Request) (p : Posted) (s : State) : (post ch r p s).control = s.control := by
  unfold post
  try dsimp only
  repeat' split
  all_goals simp

@[simp] theorem admitRead_control (ch : Channel) (r : Request) (s : State) : (admitRead ch r s).control = s.control := by
  unfold admitRead
  try dsimp only
  repeat' split
  all_goals simp

@[simp] theorem admitWrite_control (ch : Channel) (r : Request) (s : State) : (admitWrite ch r s).control = s.control := by
  unfold admitWrite
  try dsimp only
  repeat' split
  all_goals simp

@[simp] theorem reserveAppend_control (k : Slot) (n : Nat) (s : State) : (reserveAppend k n s).control = s.control := rfl

@[simp] theorem admitAppend_control (ch : Channel) (r : Request) (s : State) : (admitAppend ch r s).control = s.control := by
  unfold admitAppend
  try dsimp only
  repeat' split
  all_goals simp

@[simp] theorem admitFlush_control (ch : Channel) (r : Request) (s : State) : (admitFlush ch r s).control = s.control := by
  unfold admitFlush
  try dsimp only
  repeat' split
  all_goals simp

@[simp] theorem admitMapStore_control (ch : Channel) (r : Request) (s : State) : (admitMapStore ch r s).control = s.control := by
  unfold admitMapStore
  try dsimp only
  repeat' split
  all_goals simp

@[simp] theorem admitCancel_control (ch : Channel) (r : Request) (s : State) : (admitCancel ch r s).control = s.control := by
  unfold admitCancel
  try dsimp only
  repeat' split
  all_goals simp

@[simp] theorem admitMapRead_control (ch : Channel) (r : Request) (s : State) : (admitMapRead ch r s).control = s.control := by
  unfold admitMapRead
  try dsimp only
  repeat' split
  all_goals simp

@[simp] theorem applyChange_control (ch : Channel) (s : State) (g : Slot × Option Definition) : (applyChange ch s g).control = s.control := by
  have h : (setClaim (.extent g.1) ClaimRecord.free
      { s with extents := s.extents.set g.1.val (changedExtent (s.extent g.1) g.2) g.1.isLt }).control = s.control := rfl
  unfold applyChange
  try dsimp only
  repeat' split
  all_goals simp [h]

@[simp] theorem noteMapLoad_control (s : State) : (noteMapLoad s).control = s.control := rfl

theorem applyChanges_control (ch : Channel) (gs : List (Slot × Option Definition)) (s : State) :
    (gs.foldl (applyChange ch) s).control = s.control :=
  foldl_control _ (fun s x => by simp) gs s

@[simp] theorem admitMapLoad_control (ch : Channel) (r : Request) (s : State) : (admitMapLoad ch r s).control = s.control := by
  unfold admitMapLoad
  try dsimp only
  repeat' split
  all_goals simp [applyChanges_control]

@[simp] theorem admitDefectRead_control (ch : Channel) (r : Request) (s : State) : (admitDefectRead ch r s).control = s.control := by
  unfold admitDefectRead
  try dsimp only
  repeat' split
  all_goals simp

@[simp] theorem openSweep_control (ch : Channel) (r : Request) (kind : SweepKind) (ks : List Slot) (s : State) : (openSweep ch r kind ks s).control = s.control := by
  unfold openSweep
  try dsimp only
  repeat' split
  all_goals simp

@[simp] theorem joinSweep_control (ch : Channel) (r : Request) (sw : Sweep) (ks : List Slot) (s : State) : (joinSweep ch r sw ks s).control = s.control := by
  unfold joinSweep
  try dsimp only
  repeat' split
  all_goals simp

@[simp] theorem admitClear_control (ch : Channel) (r : Request) (s : State) : (admitClear ch r s).control = s.control := by
  unfold admitClear
  try dsimp only
  repeat' split
  all_goals simp

@[simp] theorem admitScan_control (ch : Channel) (r : Request) (s : State) : (admitScan ch r s).control = s.control := by
  unfold admitScan
  try dsimp only
  repeat' split
  all_goals simp

@[simp] theorem admitSweepHalt_control (ch : Channel) (r : Request) (s : State) : (admitSweepHalt ch r s).control = s.control := by
  unfold admitSweepHalt
  try dsimp only
  repeat' split
  all_goals simp

@[simp] theorem admitContext_control (ch : Channel) (r : Request) (s : State) : (admitContext ch r s).control = s.control := by
  unfold admitContext
  try dsimp only
  repeat' split
  all_goals simp

@[simp] theorem admitStatus_control (ch : Channel) (r : Request) (s : State) : (admitStatus ch r s).control = s.control := by
  unfold admitStatus
  try dsimp only
  repeat' split
  all_goals simp

@[simp] theorem admitEventAck_control (ch : Channel) (r : Request) (s : State) : (admitEventAck ch r s).control = s.control := by
  unfold admitEventAck
  try dsimp only
  repeat' split
  all_goals simp

@[simp] theorem admitFaultRead_control (ch : Channel) (r : Request) (s : State) : (admitFaultRead ch r s).control = s.control := by
  unfold admitFaultRead
  try dsimp only
  repeat' split
  all_goals simp

@[simp] theorem retakeRequest_control (ch : Channel) (r : Request) (s : State) : (retakeRequest ch r s).control = s.control := by
  unfold retakeRequest
  try dsimp only
  repeat' split
  all_goals simp

@[simp] theorem retakeStage_control (ch : Channel) (s : State) : (retakeStage ch s).control = s.control := by
  unfold retakeStage
  try dsimp only
  repeat' split
  all_goals simp

@[simp] theorem updSeq_control (f : Sequencer → Sequencer) (s : State) : (updSeq f s).control = s.control := rfl

@[simp] theorem updAccess_control (f : Access → Access) (s : State) : (updAccess f s).control = s.control := rfl

@[simp] theorem issueSeek_control (c : Nat) (s : State) : (issueSeek c s).control = s.control := rfl

@[simp] theorem issueRestore_control (s : State) : (issueRestore s).control = s.control := rfl

@[simp] theorem issueFaultClear_control (s : State) : (issueFaultClear s).control = s.control := rfl

@[simp] theorem startSearch_control (a : Access) (s : State) : (startSearch a s).control = s.control := rfl

@[simp] theorem approach_control (s : State) : (approach s).control = s.control := by
  unfold approach
  try dsimp only
  repeat' split
  all_goals simp

@[simp] theorem recalibrate_control (s : State) : (recalibrate s).control = s.control := rfl

@[simp] theorem nextPassage_control (s : State) : (nextPassage s).control = s.control := by
  unfold nextPassage
  try dsimp only
  repeat' split
  all_goals simp

@[simp] theorem turnTo_control (m : Nat) (s : State) : (turnTo m s).control = s.control := by
  unfold turnTo
  try dsimp only
  all_goals simp

@[simp] theorem beginAccess_control (a : Access) (s : State) : (beginAccess a s).control = s.control := by
  unfold beginAccess
  try dsimp only
  all_goals simp

@[simp] theorem endAccess_control (s : State) : (endAccess s).control = s.control := rfl

@[simp] theorem noteCheck_control (r : AddressCheck) (s : State) : (noteCheck r s).control = s.control := by
  unfold noteCheck
  try dsimp only
  repeat' split
  all_goals simp

@[simp] theorem openGate_control (a : Access) (s : State) : (openGate a s).control = s.control := by
  unfold openGate
  try dsimp only
  repeat' split
  all_goals simp

@[simp] theorem tear_control (s : State) : (tear s).control = s.control := by
  unfold tear
  try dsimp only
  repeat' split
  all_goals simp

@[simp] theorem enterNotSafe_control (s : State) : (enterNotSafe s).control = s.control := rfl

@[simp] theorem enterNoCartridge_control (s : State) : (enterNoCartridge s).control = s.control := rfl

@[simp] theorem beginLabelWrite_control (owner : Owner) (serial : BitVec 32) (s : State) : (beginLabelWrite owner serial s).control = s.control := by
  unfold beginLabelWrite
  try dsimp only
  all_goals simp

@[simp] theorem grantRead_control (e : Entry) (s : State) : (grantRead e s).control = s.control := by
  unfold grantRead
  try dsimp only
  all_goals simp

@[simp] theorem grantWrite_control (e : Entry) (s : State) : (grantWrite e s).control = s.control := by
  unfold grantWrite
  try dsimp only
  all_goals simp

@[simp] theorem grantAppend_control (e : Entry) (mark : Nat) (s : State) : (grantAppend e mark s).control = s.control := by
  unfold grantAppend
  try dsimp only
  all_goals simp

@[simp] theorem grantEntry_control (n : Nat) (s : State) : (grantEntry n s).control = s.control := by
  unfold grantEntry
  try dsimp only
  repeat' split
  all_goals simp

@[simp] theorem grantPosted_control (n : Nat) (s : State) : (grantPosted n s).control = s.control := by
  unfold grantPosted
  try dsimp only
  repeat' split
  all_goals simp

@[simp] theorem endProtected_control (o : Owner) (s : State) : (endProtected o s).control = s.control := by
  unfold endProtected
  try dsimp only
  repeat' split
  all_goals simp

@[simp] theorem grant_control (o : Owner) (s : State) : (grant o s).control = s.control := by
  unfold grant
  try dsimp only
  repeat' split
  all_goals simp

@[simp] theorem park_control (o : Owner) (torn : Bool) (s : State) : (park o torn s).control = s.control := by
  unfold park
  try dsimp only
  repeat' split
  all_goals simp

@[simp] theorem creditRun_control (a : Access) (s : State) : (creditRun a s).control = s.control := by
  unfold creditRun
  try dsimp only
  repeat' split
  all_goals simp

@[simp] theorem boundaryEntry_control (stop : Option Stop) (n : Nat) (s : State) : (boundaryEntry stop n s).control = s.control := by
  unfold boundaryEntry
  try dsimp only
  repeat' split
  all_goals simp

@[simp] theorem boundaryPosted_control (stop : Option Stop) (n : Nat) (s : State) : (boundaryPosted stop n s).control = s.control := by
  unfold boundaryPosted
  try dsimp only
  repeat' split
  all_goals simp

@[simp] theorem finishPosted_control (n : Nat) (s : State) : (finishPosted n s).control = s.control := by
  unfold finishPosted
  try dsimp only
  repeat' split
  all_goals simp

@[simp] theorem runEnds_control (a : Access) (s : State) : (runEnds a s).control = s.control := by
  unfold runEnds
  try dsimp only
  repeat' split
  all_goals simp

@[simp] theorem setMount_control (m : MountStage) (s : State) : (setMount m s).control = s.control := rfl

@[simp] theorem mountComplete_control (s : State) : (mountComplete s).control = s.control := by
  unfold mountComplete
  try dsimp only
  all_goals simp

@[simp] theorem beginLabelRead_control (s : State) : (beginLabelRead s).control = s.control := by
  unfold beginLabelRead
  try dsimp only
  all_goals simp

@[simp] theorem beginProbe_control (k : Slot) (m : Nat) (s : State) : (beginProbe k m s).control = s.control := by
  unfold beginProbe
  try dsimp only
  repeat' split
  all_goals simp

@[simp] theorem mountAdvance_control (s : State) : (mountAdvance s).control = s.control := by
  unfold mountAdvance
  try dsimp only
  repeat' split
  all_goals simp

@[simp] theorem searchFrom_control (i : Nat) (s : State) : (searchFrom i s).control = s.control := by
  unfold searchFrom
  try dsimp only
  repeat' split
  all_goals simp

@[simp] theorem labelFound_control (l : Option Label) (s : State) : (labelFound l s).control = s.control := by
  unfold labelFound
  try dsimp only
  repeat' split
  all_goals simp

@[simp] theorem probeFound_control (r : Option HeaderState) (s : State) : (probeFound r s).control = s.control := by
  unfold probeFound
  try dsimp only
  repeat' split
  all_goals simp

@[simp] theorem beginMount_control (s : State) : (beginMount s).control = s.control := by
  unfold beginMount
  try dsimp only
  repeat' split
  all_goals simp

@[simp] theorem seqDeparts_control (s : State) : (seqDeparts s).control = s.control := by
  unfold seqDeparts
  try dsimp only
  repeat' split
  all_goals simp

@[simp] theorem reportSector_control (a : Access) (c : Condition) (s : State) : (reportSector a c s).control = s.control := by
  unfold reportSector
  try dsimp only
  repeat' split
  all_goals simp

@[simp] theorem reportTornAppend_control (s : State) : (reportTornAppend s).control = s.control := by
  unfold reportTornAppend
  try dsimp only
  repeat' split
  all_goals simp

@[simp] theorem depart_control (s : State) : (depart s).control = s.control := by
  unfold depart
  try dsimp only
  repeat' split
  all_goals simp

@[simp] theorem dropBuffer_control (a : Access) (s : State) : (dropBuffer a s).control = s.control := by
  unfold dropBuffer
  try dsimp only
  repeat' split
  all_goals simp

@[simp] theorem countCommitted_control (a : Access) (s : State) : (countCommitted a s).control = s.control := by
  unfold countCommitted
  try dsimp only
  repeat' split
  all_goals simp

@[simp] theorem endRun_control (a : Access) (code : Code) (s : State) : (endRun a code s).control = s.control := by
  unfold endRun
  try dsimp only
  repeat' split
  all_goals simp

@[simp] theorem stopRun_control (a : Access) (torn : Bool) (s : State) : (stopRun a torn s).control = s.control := by
  unfold stopRun
  try dsimp only
  all_goals simp

@[simp] theorem storeEnds_control (s : State) : (storeEnds s).control = s.control := by
  unfold storeEnds
  try dsimp only
  all_goals simp

@[simp] theorem countTorn_control (a : Access) (s : State) : (countTorn a s).control = s.control := by
  unfold countTorn
  try dsimp only
  repeat' split
  all_goals simp

@[simp] theorem clearCut_control (m : Nat) (k : Slot) (s : State) : (clearCut m k s).control = s.control := by
  unfold clearCut
  try dsimp only
  repeat' split
  all_goals simp

theorem withSlot_control (a : Access) (f : Slot → State → State) (h : ∀ k s, (f k s).control = s.control) (s : State) :
    (withSlot a f s).control = s.control := by
  unfold withSlot
  try dsimp only
  repeat' split
  all_goals simp [h]

@[simp] theorem cutRun_control (a : Access) (torn : Bool) (s : State) : (cutRun a torn s).control = s.control := by
  unfold cutRun
  split <;> simp

@[simp] theorem appendPowerCut_control (a : Access) (k : Slot) (s : State) : (appendPowerCut a k s).control = s.control := by
  unfold appendPowerCut
  try dsimp only
  repeat' split
  all_goals simp

@[simp] theorem powerCut_control (a : Access) (s : State) : (powerCut a s).control = s.control := by
  unfold powerCut
  try dsimp only
  repeat' split
  all_goals simp [withSlot_control]

@[simp] theorem appendFaultCut_control (a : Access) (k : Slot) (s : State) : (appendFaultCut a k s).control = s.control := by
  unfold appendFaultCut
  try dsimp only
  repeat' split
  all_goals simp

@[simp] theorem faultCut_control (a : Access) (s : State) : (faultCut a s).control = s.control := by
  unfold faultCut
  try dsimp only
  repeat' split
  all_goals simp [withSlot_control]

@[simp] theorem takeStop_control (a : Access) (torn : Bool) (c : Stop) (s : State) : (takeStop a torn c s).control = s.control := by
  unfold takeStop
  try dsimp only
  repeat' split
  all_goals simp

@[simp] theorem drainStop_control (a : Access) (s : State) : (drainStop a s).control = s.control := by
  unfold drainStop
  split <;> simp

@[simp] theorem sectorEnds_control (a : Access) (s : State) : (sectorEnds a s).control = s.control := by
  unfold sectorEnds
  try dsimp only
  repeat' split
  all_goals simp

@[simp] theorem appendSectorEnds_control (a : Access) (k : Slot) (s : State) : (appendSectorEnds a k s).control = s.control := by
  unfold appendSectorEnds
  try dsimp only
  repeat' split
  all_goals simp

@[simp] theorem sectorRead_control (a : Access) (ws : List Word) (c : Option Condition) (s : State) : (sectorRead a ws c s).control = s.control := by
  unfold sectorRead
  try dsimp only
  repeat' split
  all_goals simp

theorem mountAccessEnds_control (f : State → State) (h : ∀ s, (f s).control = s.control) (s : State) :
    (mountAccessEnds f s).control = s.control := by
  unfold mountAccessEnds
  try dsimp only
  repeat' split
  all_goals simp [h]

@[simp] theorem readFails_control (a : Access) (cause : DefectCause) (s : State) : (readFails a cause s).control = s.control := by
  unfold readFails
  try dsimp only
  repeat' split
  all_goals simp [mountAccessEnds_control]

@[simp] theorem countFailure_control (further : Bool) (s : State) : (countFailure further s).control = s.control := by
  unfold countFailure
  simp

@[simp] theorem readAttemptFails_control (a : Access) (cause : DefectCause) (s : State) : (readAttemptFails a cause s).control = s.control := by
  unfold readAttemptFails
  try dsimp only
  repeat' split
  all_goals simp

@[simp] theorem mapStoreDone_control (n : Nat) (a : Access) (s : State) : (mapStoreDone n a s).control = s.control := by
  unfold mapStoreDone
  try dsimp only
  repeat' split
  all_goals simp

@[simp] theorem storeDone_control (s : State) : (storeDone s).control = s.control := by
  unfold storeDone
  try dsimp only
  all_goals simp

@[simp] theorem countAppended_control (a : Access) (k : Slot) (s : State) : (countAppended a k s).control = s.control := by
  unfold countAppended
  try dsimp only
  all_goals simp

@[simp] theorem writeCounts_control (a : Access) (s : State) : (writeCounts a s).control = s.control := by
  unfold writeCounts
  try dsimp only
  repeat' split
  all_goals simp [withSlot_control]

@[simp] theorem writeFails_control (a : Access) (cause : DefectCause) (s : State) : (writeFails a cause s).control = s.control := by
  unfold writeFails
  try dsimp only
  repeat' split
  all_goals simp [withSlot_control]

@[simp] theorem checkAttemptFails_control (a : Access) (s : State) : (checkAttemptFails a s).control = s.control := by
  unfold checkAttemptFails
  try dsimp only
  repeat' split
  all_goals simp

@[simp] theorem readBackFails_control (a : Access) (s : State) : (readBackFails a s).control = s.control := by
  unfold readBackFails
  try dsimp only
  repeat' split
  all_goals simp

@[simp] theorem markingSucceeds_control (a : Access) (k : Slot) (s : State) : (markingSucceeds a k s).control = s.control := by
  unfold markingSucceeds
  try dsimp only
  all_goals simp

@[simp] theorem markingFails_control (a : Access) (cause : DefectCause) (k : Slot) (s : State) : (markingFails a cause k s).control = s.control := by
  unfold markingFails
  try dsimp only
  all_goals simp

@[simp] theorem checkFails_control (a : Access) (s : State) : (checkFails a s).control = s.control := by
  unfold checkFails
  try dsimp only
  repeat' split
  all_goals simp [withSlot_control]

@[simp] theorem readHeader_control (a : Access) (st : HeaderState) (s : State) : (readHeader a st s).control = s.control := by
  unfold readHeader
  try dsimp only
  repeat' split
  all_goals simp [mountAccessEnds_control]

@[simp] theorem headerChecked_control (a : Access) (r : AddressCheck) (s : State) : (headerChecked a r s).control = s.control := by
  unfold headerChecked
  try dsimp only
  repeat' split
  all_goals simp [withSlot_control]

@[simp] theorem headerFill_control (a : Access) (s : State) : (headerFill a s).control = s.control := by
  unfold headerFill
  try dsimp only
  repeat' split
  all_goals simp

@[simp] theorem seekFails_control (a : Access) (s : State) : (seekFails a s).control = s.control := by
  unfold seekFails
  try dsimp only
  repeat' split
  all_goals simp [mountAccessEnds_control, withSlot_control]

@[simp] theorem resetEntry_control (ch : Channel) (s : State) (e : Entry) : (resetEntry ch s e).control = s.control := by
  unfold resetEntry
  try dsimp only
  repeat' split
  all_goals simp

@[simp] theorem resetChannel_control (ch : Channel) (s : State) : (resetChannel ch s).control = s.control := by
  simp only [resetChannel, settle_control, control_mk, control_eta]
  rw [foldl_control _ (fun s x => by simp)]
  simp

@[simp] theorem setReceiver_control (ch : Channel) (v : Receiver) (s : State) : (setReceiver ch v s).control = s.control := rfl

@[simp] theorem rejectFrame_control (ch : Channel) (then_ : Receiver) (tag : Nat) (reason : LinkReason) (taken : Nat) (s : State) : (rejectFrame ch then_ tag reason taken s).control = s.control := by
  unfold rejectFrame
  try dsimp only
  all_goals simp

@[simp] theorem takeHeaderWord_control (ch : Channel) (w : Word) (s : State) : (takeHeaderWord ch w s).control = s.control := by
  unfold takeHeaderWord
  try dsimp only
  repeat' split
  all_goals simp

@[simp] theorem takeLengthWord_control (ch : Channel) (f : Frame) (w : Word) (s : State) : (takeLengthWord ch f w s).control = s.control := by
  unfold takeLengthWord
  try dsimp only
  repeat' split
  all_goals simp

@[simp] theorem takeCheckWord_control (ch : Channel) (f : Frame) (length : Nat) (w : Word) (s : State) : (takeCheckWord ch f length w s).control = s.control := by
  unfold takeCheckWord
  try dsimp only
  repeat' split
  all_goals simp

@[simp] theorem takeFrameWord_control (ch : Channel) (f : Frame) (w : Word) (s : State) : (takeFrameWord ch f w s).control = s.control := by
  unfold takeFrameWord
  try dsimp only
  repeat' split
  all_goals simp

@[simp] theorem takeWord_control (ch : Channel) (w : Word) (s : State) : (takeWord ch w s).control = s.control := by
  unfold takeWord
  try dsimp only
  repeat' split
  all_goals simp

@[simp] theorem deliver_control (ch : Channel) (r : Reply) (s : State) : (deliver ch r s).control = s.control := by
  unfold deliver
  try dsimp only
  all_goals simp

@[simp] theorem enterOffline_control (s : State) : (enterOffline s).control = s.control := rfl

@[simp] theorem beginStep_control (sw : Sweep) (it : SweepItem) (e : Extent) (m : Nat) (s : State) : (beginStep sw it e m s).control = s.control := by
  unfold beginStep
  try dsimp only
  repeat' split
  all_goals simp

@[simp] theorem takeOffer_control (sw : Sweep) (it : SweepItem) (s : State) : (takeOffer sw it s).control = s.control := by
  unfold takeOffer
  try dsimp only
  repeat' split
  all_goals simp

@[simp] theorem offerSweep_control (s : State) : (offerSweep s).control = s.control := by
  unfold offerSweep
  try dsimp only
  repeat' split
  all_goals simp

theorem stopAtCommandEnd_control {a : Access} {s t : State} (h : s.stopAtCommandEnd a = some t) : t.control = s.control := by
  revert h
  unfold State.stopAtCommandEnd
  repeat' split
  all_goals intro h
  all_goals cases h <;> simp

@[simp] theorem accessGoesOn_control (a : Access) (restored : Bool) (s : State) : (accessGoesOn a restored s).control = s.control := by
  unfold accessGoesOn
  split
  · next h => rw [settle_control, stopAtCommandEnd_control h]
  · split <;> simp

@[simp] theorem arrive_control (c : Nat) (s : State) : (arrive c s).control = s.control := rfl

@[simp] theorem olderGone_control (a : Access) (s : State) : (olderGone a s).control = s.control := by
  unfold olderGone
  split <;> simp

@[simp] theorem logProtected_control (before s : State) : (logProtected before s).control = s.control := by
  unfold logProtected
  rw [foldl_control _ (fun s x => by simp)]

@[simp] theorem protectedChoices_control (fuel : Nat) (s : State) : (protectedChoices fuel s).control = s.control := by
  induction fuel generalizing s with
  | zero => rfl
  | succ n ih =>
    unfold protectedChoices
    split
    · rfl
    · split
      · rw [ih, topUpBoth_control, endProtected_control]
        rfl
      · rfl

@[simp] theorem endProtectedChoices_control (s : State) : (endProtectedChoices s).control = s.control := by
  unfold endProtectedChoices
  split <;> simp

@[simp] theorem chooseAndGrant_control (s : State) : (chooseAndGrant s).control = s.control := by
  unfold chooseAndGrant
  split
  · simp
  · rw [grant_control]
    rfl

@[simp] theorem beginPassage_control (a : Access) (s : State) : (beginPassage a s).control = s.control := by
  unfold beginPassage
  try dsimp only
  repeat' split
  all_goals simp

@[simp] theorem searchPulse_control (a : Access) (before : Option Nat) (s : State) : (searchPulse a before s).control = s.control := by
  unfold searchPulse
  try dsimp only
  repeat' split
  all_goals simp

@[simp] theorem dataWritten_control (a : Access) (s : State) : (dataWritten a s).control = s.control := by
  unfold dataWritten
  try dsimp only
  all_goals simp

@[simp] theorem afterData_control (a : Access) (s : State) : (afterData a s).control = s.control := by
  unfold afterData
  try dsimp only
  repeat' split
  all_goals simp

@[simp] theorem goodField_control (a : Access) (f : FieldImage) (s : State) : (goodField a f s).control = s.control := by
  unfold goodField
  try dsimp only
  repeat' split
  all_goals simp [mountAccessEnds_control]

@[simp] theorem beginDrain_control (s : State) : (beginDrain s).control = s.control := by
  unfold beginDrain
  try dsimp only
  all_goals simp

@[simp] theorem cutMount_control (s : State) : (cutMount s).control = s.control := rfl

@[simp] theorem addStop_control (c : Stop) (s : State) : (addStop c s).control = s.control := rfl

@[simp] theorem askStop_control (c : Stop) (a : Access) (s : State) : (askStop c a s).control = s.control := by
  unfold askStop
  try dsimp only
  repeat' split
  all_goals simp

@[simp] theorem askCut_control (a : Access) (s : State) : (askCut a s).control = s.control := by
  unfold askCut
  try dsimp only
  repeat' split
  all_goals simp

@[simp] theorem protectSweep_control (s : State) : (protectSweep s).control = s.control := by
  unfold protectSweep
  try dsimp only
  repeat' split
  all_goals simp

@[simp] theorem cutByFault_control (s : State) : (cutByFault s).control = s.control := by
  unfold cutByFault
  try dsimp only
  repeat' split
  all_goals simp

@[simp] theorem powerStop_control (a : Access) (s : State) : (powerStop a s).control = s.control := by
  unfold powerStop
  try dsimp only
  repeat' split
  all_goals simp

end Sys2Proof.Machine
end

