-- ==== Sys2Proof/Laws/Ops.lean ====
section
/-! SUPPORT. What each shared operation can do, said once: the record of the medium, due replies, short reservations, and settling. -/

namespace Sys2Proof.Machine

open Sys2Proof.Safety

/-! ## The record of the medium -/

@[simp] theorem mediumAt_nil (a : Nat) : mediumAt [] a = none := rfl

theorem mediumAt_cons (x : Nat × SectorRecord) (m : List (Nat × SectorRecord)) (a : Nat) :
    mediumAt (x :: m) a = if x.1 = a then some x.2 else mediumAt m a := by
  by_cases h : x.1 = a <;> simp [mediumAt, h]

/-- A record put in place is read there. -/
@[simp] theorem mediumAt_mediumSet_same (a : Nat) (r : SectorRecord) (m : List (Nat × SectorRecord)) :
    mediumAt (mediumSet a r m) a = some r := by
  induction m with
  | nil => simp [mediumSet, mediumAt_cons]
  | cons x m ih =>
    obtain ⟨b, q⟩ := x
    simp only [mediumSet]
    split
    · simp [mediumAt_cons]
    · split
      · simp [mediumAt_cons]
      · have h : b ≠ a := by omega
        simp [mediumAt_cons, h, ih]

/-- Every other sector reads as it did. -/
theorem mediumAt_mediumSet_ne {a b : Nat} (h : b ≠ a) (r : SectorRecord) (m : List (Nat × SectorRecord)) :
    mediumAt (mediumSet a r m) b = mediumAt m b := by
  induction m with
  | nil => simp [mediumSet, mediumAt_cons, Ne.symm h]
  | cons x m ih =>
    obtain ⟨c, q⟩ := x
    simp only [mediumSet]
    split
    · simp [mediumAt_cons, Ne.symm h]
    · split
      · rename_i hc
        subst hc
        simp [mediumAt_cons, Ne.symm h]
      · simp [mediumAt_cons, ih]

theorem mem_mediumSet {a : Nat} {r : SectorRecord} {m : List (Nat × SectorRecord)} {x : Nat × SectorRecord}
    (h : x ∈ mediumSet a r m) : x = (a, r) ∨ x ∈ m := by
  induction m with
  | nil => simpa [mediumSet] using h
  | cons y m ih =>
    obtain ⟨b, q⟩ := y
    simp only [mediumSet] at h
    split at h
    · simpa using h
    · split at h
      · simp only [List.mem_cons] at h ⊢
        tauto
      · simp only [List.mem_cons] at h ⊢
        rcases h with h | h
        · tauto
        · rcases ih h with h | h <;> tauto

/-- Putting a record in place keeps the record's form. -/
theorem mediumWf_mediumSet {a : Nat} {r : SectorRecord} {m : List (Nat × SectorRecord)} (ha : a < 7680) (h : mediumWf m = true) :
    mediumWf (mediumSet a r m) = true := by
  simp only [mediumWf, Bool.and_eq_true, decide_eq_true_eq, List.all_eq_true, List.pairwise_map] at h ⊢
  constructor
  · have h1 := h.1
    clear h
    induction m with
    | nil => simp [mediumSet]
    | cons y m ih =>
      obtain ⟨b, q⟩ := y
      rw [List.pairwise_cons] at h1
      simp only [mediumSet]
      split
      · rename_i hab
        refine List.pairwise_cons.2 ⟨?_, List.pairwise_cons.2 h1⟩
        intro z hz
        rcases List.mem_cons.1 hz with hz | hz
        · subst hz; exact hab
        · exact lt_trans hab (h1.1 z hz)
      · split
        · rename_i hab
          subst hab
          exact List.pairwise_cons.2 ⟨h1.1, h1.2⟩
        · refine List.pairwise_cons.2 ⟨?_, ih h1.2⟩
          intro z hz
          rcases mem_mediumSet hz with hz | hz
          · subst hz
            simp only
            omega
          · exact h1.1 z hz
  · intro x hx
    rcases mem_mediumSet hx with hx | hx
    · subst hx; exact ha
    · exact h.2 x hx

/-- A header put on the medium keeps the record's form. -/
theorem putHeader_wf (a : Nat) (h : HeaderRecord) (s : State) (hw : mediumWf s.medium = true) :
    mediumWf (putHeader a h s).medium = true := by
  unfold putHeader
  split
  · exact mediumWf_mediumSet ‹_› hw
  · exact hw

/-- A data field put on the medium keeps the record's form. -/
theorem putData_wf (a : Nat) (st : HeaderState) (d : DataRecord) (s : State) (hw : mediumWf s.medium = true) :
    mediumWf (putData a st d s).medium = true := by
  unfold putData
  split
  · exact mediumWf_mediumSet ‹_› hw
  · exact hw

/-- A cut keeps the record's form. -/
theorem tear_wf (s : State) (hw : mediumWf s.medium = true) : mediumWf (tear s).medium = true := by
  unfold tear
  split
  · exact hw
  · split
    · exact putHeader_wf _ _ _ hw
    · exact putData_wf _ _ _ _ hw
    · exact hw

/-- A header put on the medium changes no other sector. -/
theorem putHeader_other (a : Nat) (h : HeaderRecord) (s : State) {b : Nat} (hb : b ≠ a) :
    mediumAt (putHeader a h s).medium b = mediumAt s.medium b := by
  unfold putHeader
  split
  · exact mediumAt_mediumSet_ne hb _ _
  · rfl

/-- A data field put on the medium changes no other sector. -/
theorem putData_other (a : Nat) (st : HeaderState) (d : DataRecord) (s : State) {b : Nat} (hb : b ≠ a) :
    mediumAt (putData a st d s).medium b = mediumAt s.medium b := by
  unfold putData
  split
  · exact mediumAt_mediumSet_ne hb _ _
  · rfl

/-! ## Ports -/

@[simp] theorem PerChannel.set_get {α : Type} (p : PerChannel α) (ch : Channel) : p.set ch (p.get ch) = p := by
  cases ch <;> rfl

@[simp] theorem State.updPort_id (s : State) (ch : Channel) : s.updPort ch (fun p => p) = s := by
  simp [State.updPort]

/-! ## Due replies -/

theorem placeDue_of_empty {ch : Channel} {s : State} (h : (s.port ch).due = []) : placeDue ch s = s := by
  unfold placeDue
  rw [h]
  simp only [placeList]
  obtain ⟨⟨a, b⟩, _⟩ := s
  cases ch <;> · simp only [State.port, PerChannel.get] at h
                 simp only [State.updPort, PerChannel.set, PerChannel.get, ← h]

theorem placeDue_of_full {ch : Channel} {s : State} (h : (s.port ch).queue.length = 4) : placeDue ch s = s := by
  unfold placeDue
  cases hd : (s.port ch).due with
  | nil =>
    have := placeDue_of_empty hd
    unfold placeDue at this
    rwa [hd] at this
  | cons d ds =>
    simp only [placeList, h, lt_irrefl, if_false]
    obtain ⟨⟨a, b⟩, _⟩ := s
    cases ch <;> · simp only [State.port, PerChannel.get] at hd
                   simp only [State.updPort, PerChannel.set, PerChannel.get, ← hd]

/-- With the law of R177 in force a due list has nothing to give. -/
theorem placeDue_of_lawful {s : State} (h : RepliesLawful s) (ch : Channel) : placeDue ch s = s := by
  by_cases hd : (s.port ch).due = []
  · exact placeDue_of_empty hd
  · exact placeDue_of_full ((h ch).2 hd)

theorem placeBoth_of_lawful {s : State} (h : RepliesLawful s) : placeBoth s = s := by
  unfold placeBoth
  rw [placeDue_of_lawful h, placeDue_of_lawful h]

/-- Forming a reply under the law of R177: it joins the queue, or stands in the stage as the youngest due reply. -/
theorem formReply_of_lawful {s : State} (h : RepliesLawful s) (ch : Channel) (r : Reply) : formReply ch r s = replied ch r s := by
  have hq := (h ch).1
  have hd := (h ch).2
  obtain ⟨⟨a, b⟩, _⟩ := s
  cases ch
  all_goals
    simp only [State.port, PerChannel.get] at hq hd
    unfold formReply replied placeDue addDue
    simp only [State.updPort, State.port, PerChannel.get, PerChannel.set]
  · by_cases hl : a.queue.length < 4
    · have hnil : a.due = [] := by
        by_contra hne
        have := hd hne
        omega
      simp [hnil, placeList, placeReply, State.updPort, State.port, PerChannel.get, PerChannel.set, hl]
    · cases hdue : a.due <;> simp [placeList, State.updPort, State.port, PerChannel.get, PerChannel.set, hl]
  · by_cases hl : b.queue.length < 4
    · have hnil : b.due = [] := by
        by_contra hne
        have := hd hne
        omega
      simp [hnil, placeList, placeReply, State.updPort, State.port, PerChannel.get, PerChannel.set, hl]
    · cases hdue : b.due <;> simp [placeList, State.updPort, State.port, PerChannel.get, PerChannel.set, hl]

/-- Forming a reply keeps the law of R177. -/
theorem replied_lawful {s : State} (h : RepliesLawful s) (ch : Channel) (r : Reply) : RepliesLawful (replied ch r s) := by
  intro c
  by_cases hc : c = ch
  · subst hc
    have h1 := h c
    unfold replied
    rw [updPort_port_same]
    by_cases hl : (s.port c).queue.length < 4
    · rw [if_pos hl]
      refine ⟨by simp only [List.length_append, List.length_singleton]; omega, fun hne => ?_⟩
      have := h1.2 hne
      omega
    · rw [if_neg hl]
      exact ⟨h1.1, fun _ => by simp only; omega⟩
  · unfold replied
    rw [updPort_port, if_neg hc]
    exact h c

/-! ## Short reservations -/

/-- A short reservation's topping up changes nothing but reservations. -/
theorem topUpOne_work (ch : Channel) (s : State) (e : Entry) :
    ∃ w, topUpOne ch s e = { s with work := w } ∧ w.map bareEntry = s.work.map bareEntry := by
  unfold topUpOne
  split
  · refine ⟨_, rfl, ?_⟩
    simp only [List.map_map]
    refine List.map_congr_left (fun x _ => ?_)
    simp only [Function.comp]
    split <;> rfl
  · exact ⟨s.work, rfl, rfl⟩

theorem foldl_topUpOne_work (ch : Channel) (es : List Entry) (s : State) :
    ∃ w, es.foldl (topUpOne ch) s = { s with work := w } ∧ w.map bareEntry = s.work.map bareEntry := by
  induction es generalizing s with
  | nil => exact ⟨s.work, rfl, rfl⟩
  | cons e es ih =>
    obtain ⟨w, h1, h2⟩ := topUpOne_work ch s e
    obtain ⟨v, h3, h4⟩ := ih (topUpOne ch s e)
    refine ⟨v, ?_, ?_⟩
    · rw [List.foldl_cons, h3, h1]
    · rw [h4, h1]; exact h2

/-- Room given out to short reservations changes nothing but reservations (R98). -/
theorem topUp_work (ch : Channel) (s : State) :
    ∃ w, topUp ch s = { s with work := w } ∧ w.map bareEntry = s.work.map bareEntry :=
  foldl_topUpOne_work ch s.work s

theorem topUpBoth_work (s : State) :
    ∃ w, topUpBoth s = { s with work := w } ∧ w.map bareEntry = s.work.map bareEntry := by
  obtain ⟨v, h1, h2⟩ := topUp_work .A s
  obtain ⟨w, h3, h4⟩ := topUp_work .B (topUp .A s)
  refine ⟨w, ?_, ?_⟩
  · unfold topUpBoth; rw [h3, h1]
  · rw [h4, h1]; exact h2

@[simp] theorem topUp_ports (ch : Channel) (s : State) : (topUp ch s).ports = s.ports := by
  obtain ⟨w, h, -⟩ := topUp_work ch s
  rw [h]

@[simp] theorem topUpBoth_ports (s : State) : (topUpBoth s).ports = s.ports := by
  obtain ⟨w, h, -⟩ := topUpBoth_work s
  rw [h]

theorem topUpOne_eq {ch : Channel} {s : State} {e : Entry} (h : e.channel = ch → e.kind = .read → e.reservationGoal ≤ e.reserved) :
    topUpOne ch s e = s := by
  unfold topUpOne
  split
  · rename_i hc
    have := h hc.1 hc.2.1
    omega
  · rfl

/-- With no short reservation in a channel nothing is topped up. -/
theorem topUp_eq {ch : Channel} {s : State}
    (h : ∀ e ∈ s.work, e.channel = ch → e.kind = .read → e.reservationGoal ≤ e.reserved) : topUp ch s = s := by
  unfold topUp
  suffices ∀ es : List Entry, (∀ e ∈ es, e.channel = ch → e.kind = .read → e.reservationGoal ≤ e.reserved) →
      es.foldl (topUpOne ch) s = s from this _ h
  intro es
  induction es with
  | nil => intro _; rfl
  | cons e es ih =>
    intro h
    rw [List.foldl_cons, topUpOne_eq (h e (List.mem_cons_self ..)), ih (fun x hx => h x (List.mem_cons_of_mem _ hx))]

/-! ## Settling -/

theorem drainExpiry_eq {s : State} (h : s.volume.state ≠ .draining) : drainExpiry s = s := by simp [drainExpiry, h]

theorem drainCheck_eq {s : State} (h : s.volume.state ≠ .draining) : drainCheck s = s := by simp [drainCheck, h]

theorem releaseStop_eq {s : State} (h : s.volume.state ≠ .releasing) : releaseStop s = s := by simp [releaseStop, h]

/-- With the volume neither DRAINING nor RELEASING, and no reply due that has room, settling only gives room to short reservations. -/
theorem settle_of_lawful {s : State} (hd : s.volume.state ≠ .draining) (hr : s.volume.state ≠ .releasing) (h : RepliesLawful s) :
    settle s = topUpBoth s := by
  obtain ⟨w, hw, -⟩ := topUpBoth_work s
  have hl : RepliesLawful (topUpBoth s) := by
    intro ch
    rw [hw]
    exact h ch
  unfold settle
  rw [drainExpiry_eq hd, placeBoth_of_lawful hl, drainCheck_eq (by rw [hw]; exact hd), releaseStop_eq (by rw [hw]; exact hr)]

/-- A refusal under the law of R177: the reply is formed, and nothing else changes but reservations (R47, R98). -/
theorem refuse_of_lawful {s : State} (h : RepliesLawful s) (ch : Channel) (r : Request) (code : Code) :
    refuse ch r code s = topUp ch (answered ch r code .none s) := by
  unfold refuse
  rw [formReply_of_lawful h]
  rfl

/-- An admitted request's completion under the law of R177. -/
theorem complete_of_lawful {s : State} (h : RepliesLawful s) (ch : Channel) (r : Request) (outcome : Code) (body : Body) :
    complete ch r outcome body s = completed ch r outcome body s := by
  unfold complete completed
  exact formReply_of_lawful (s := { s with nextOrder := s.nextOrder + 1 }) h ch _

/-- A refusal as claims say it. -/
theorem refused_of_lawful {s : State} (h : RepliesLawful s) (ch : Channel) (r : Request) (code : Code) :
    Refused ch r code s (refuse ch r code s) := by
  rw [refuse_of_lawful h]
  obtain ⟨w, h1, h2⟩ := topUp_work ch (answered ch r code .none s)
  rw [h1]
  exact ⟨rfl, h2⟩

/-- Room given out leaves everything but reservations. -/
theorem sameButReservations_topUpBoth (s : State) : SameButReservations s (topUpBoth s) := by
  obtain ⟨w, h1, h2⟩ := topUpBoth_work s
  rw [h1]
  exact ⟨rfl, h2⟩

/-! ## Taking a request -/

/-- What admission does with a request of a kind. -/
def admitAs : ReqKind → Channel → Request → State → State
  | .read => admitRead
  | .write => admitWrite
  | .append => admitAppend
  | .flush => admitFlush
  | .cancel => admitCancel
  | .claim => admitClaim
  | .mapRead => admitMapRead
  | .mapLoad => admitMapLoad
  | .mapStore => admitMapStore
  | .defectRead => admitDefectRead
  | .clear => admitClear
  | .scan => admitScan
  | .sweepHalt => admitSweepHalt
  | .context => admitContext
  | .settingsLoad => admitSettingsLoad
  | .status => admitStatus
  | .eventAck => admitEventAck
  | .faultRead => admitFaultRead
  | .timeSet => admitTimeSet

/-- The command of a request's kind takes the request that stands in the stage. -/
theorem exec_commandOf {kind : ReqKind} {ch : Channel} {r : Request} {s : State} (h : (s.port ch).stage = .request r)
    (hk : r.kind = kind) : exec (commandOf kind ch) s = .next (admitAs kind ch r s) := by
  cases kind <;>
    simp [exec, commandOf, takeRequest, h, hk, admitAs, execRead, execWrite, execAppend, execFlush, execCancel, execClaim,
      execMapRead, execMapLoad, execMapStore, execDefectRead, execClear, execScan, execSweepHalt, execContext, execSettingsLoad,
      execStatus, execEventAck, execFaultRead, execTimeSet]

/-- A tag that may be used passes the tag check. -/
theorem tagCheck_none {s : State} {ch : Channel} {r : Request} (h : s.tagInUse ch r.tag = false) (h' : r.tag ≠ 255) :
    s.tagCheck ch r = none := by
  simp [State.tagCheck, firstFail, h, h']

/-- What the tag check looks for (R51). -/
theorem tagInUse_iff (s : State) (ch : Channel) (tag : Nat) :
    s.tagInUse ch tag = true ↔ (∃ e ∈ s.work, e.channel = ch ∧ e.tag = tag)
      ∨ (∃ sw, s.sweep = some sw ∧ sw.channel = ch ∧ sw.tag = tag) ∨ ∃ c, Due.sweep c ∈ (s.port ch).due ∧ c.tag = tag := by
  unfold State.tagInUse
  simp only [Bool.or_eq_true, List.any_eq_true, decide_eq_true_eq]
  constructor
  · rintro ((h | h) | ⟨d, h, h'⟩)
    · exact .inl h
    · right; left
      cases hs : s.sweep with
      | none => rw [hs] at h; simp at h
      | some sw => rw [hs] at h; simpa using h
    · right; right
      cases d <;> simp [Due.isSweepTag] at h'
      exact ⟨_, h, h'⟩
  · rintro (h | ⟨sw, h, h'⟩ | ⟨c, h, h'⟩)
    · exact .inl (.inl h)
    · left; right; rw [h]; simpa using h'
    · right; exact ⟨_, h, by simpa [Due.isSweepTag] using h'⟩

/-! ## The words of the claims -/

/-- The header the controller writes, in the words of the claims. -/
theorem headerFor_eq_headerOn (a : Nat) (st : HeaderState) : headerFor a st = Safety.headerOn a st := rfl

theorem replyHolding_eq (r : Reply) : r.holding = Safety.replyBuffers r := by
  cases r with
  | completion c => obtain ⟨_, _, _, _, _, _, body⟩ := c; cases body <;> rfl
  | linkReject _ _ _ => rfl

/-- The holding of a channel, in the words of the claims (R96). -/
theorem holding_eq_heldBuffers (ch : Channel) (s : State) : s.holding ch = Safety.heldBuffers ch s := by
  have hq : (s.port ch).queue.map Reply.holding = (s.port ch).queue.map Safety.replyBuffers :=
    List.map_congr_left (fun r _ => replyHolding_eq r)
  have hw : (s.work.filter (fun e => decide (e.channel = ch))).map Entry.holding
      = (s.work.filter (fun e => decide (e.channel = ch))).map
          (fun e => e.reserved + e.allocated + e.writeBuffers.length + e.readBuffers.length) :=
    List.map_congr_left (fun e _ => by show e.writeBuffers.length + e.readBuffers.length + e.allocated + e.reserved = _; omega)
  have hr : (s.port ch).receiver.holding = (match (s.port ch).receiver with
      | .receiving f => f.reserved + f.buffers.length + (if f.filling = [] then 0 else 1)
      | _ => 0) := by
    cases (s.port ch).receiver with
    | receiving f => cases h : f.filling <;> simp [Receiver.holding, Frame.holding, h]
    | _ => rfl
  have hs : (s.port ch).stage.holding = (match (s.port ch).stage with
      | .request r | .waiting r _ => Safety.requestBuffers r
      | .reply r => Safety.replyBuffers r
      | .empty => 0) := by
    cases (s.port ch).stage with
    | reply r => exact replyHolding_eq r
    | request r => exact Nat.add_comm _ _
    | waiting r d => exact Nat.add_comm _ _
    | empty => rfl
  exact congrArg₂ (· + ·) (congrArg₂ (· + ·) (congrArg₂ (· + ·) (congrArg₂ (· + ·) hr hs)
    (congrArg List.sum hq)) (congrArg List.sum hw)) rfl

end Sys2Proof.Machine
end

