-- ==== Sys2Proof/Laws/Endings.lean ====
section
/-! SUPPORT. What the end of a piece of work comes to once its reply has been placed, said once; and that placing replies does not look at
reservations. -/

namespace Sys2Proof.Machine

open Sys2Proof.Safety

/-! ## Entries by their admission order -/

/-- With distinct orders the entry of an order is the one that carries it. -/
theorem find?_order {l : List Entry} (hn : (l.map (fun e => e.order)).Nodup) {e : Entry} (he : e ∈ l) :
    l.find? (fun x => x.order = e.order) = some e := by
  induction l with
  | nil => cases he
  | cons x xs ih =>
    simp only [List.map_cons, List.nodup_cons] at hn
    rcases List.mem_cons.1 he with h | h
    · subst h; simp
    · have hne : x.order ≠ e.order := fun q => hn.1 (q ▸ List.mem_map_of_mem h)
      simp [hne, ih hn.2 h]

/-- The entries' orders are distinct. -/
theorem work_orders_nodup {s : State} (h : OrdersLawful s) : (s.work.map (fun e => e.order)).Nodup :=
  (List.nodup_append.1 h.1).1

/-- The posted writes' orders are distinct. -/
theorem posted_orders_nodup {s : State} (h : OrdersLawful s) : (s.posted.map (fun p => p.order)).Nodup :=
  (List.nodup_append.1 h.1).2.1

/-- With distinct orders an entry is found by its order. -/
theorem entry_of_mem {s : State} (h : OrdersLawful s) {e : Entry} (he : e ∈ s.work) : s.entry e.order = some e :=
  find?_order (work_orders_nodup h) he

theorem find?_posted_order {l : List Posted} (hn : (l.map (fun p => p.order)).Nodup) {p : Posted} (hp : p ∈ l) :
    l.find? (fun x => x.order = p.order) = some p := by
  induction l with
  | nil => cases hp
  | cons x xs ih =>
    simp only [List.map_cons, List.nodup_cons] at hn
    rcases List.mem_cons.1 hp with h | h
    · subst h; simp
    · have hne : x.order ≠ p.order := fun q => hn.1 (q ▸ List.mem_map_of_mem h)
      simp [hne, ih hn.2 h]

/-- With distinct orders a posted write is found by its order. -/
theorem postedWrite_of_mem {s : State} (h : OrdersLawful s) {p : Posted} (hp : p ∈ s.posted) : s.postedWrite p.order = some p :=
  find?_posted_order (posted_orders_nodup h) hp

/-! ## States that differ in reservations -/

theorem sameBut_refl (s : State) : SameButReservations s s := ⟨rfl, rfl⟩

theorem sameBut_trans {s t u : State} (h : SameButReservations s t) (h' : SameButReservations t u) :
    SameButReservations s u := by
  refine ⟨?_, h'.2.trans h.2⟩
  have h1 := h'.1
  rw [h.1] at h1
  exact h1

/-- A change that leaves the work list alone carries over. -/
theorem sameBut_intro {s : State} {w : List Entry} (h : w.map bareEntry = s.work.map bareEntry) :
    SameButReservations s { s with work := w } := ⟨rfl, h⟩

theorem sameBut_exists {s t : State} (h : SameButReservations s t) :
    ∃ w, t = { s with work := w } ∧ w.map bareEntry = s.work.map bareEntry := ⟨t.work, h.1, h.2⟩

/-- Entries alike but for reservations stand under the same orders. -/
theorem bare_find {l m : List Entry} (h : m.map bareEntry = l.map bareEntry) (n : Nat) :
    (m.find? (fun e => e.order = n)).map bareEntry = (l.find? (fun e => e.order = n)).map bareEntry := by
  induction l generalizing m with
  | nil => simp at h; subst h; rfl
  | cons x xs ih =>
    cases m with
    | nil => simp at h
    | cons y ys =>
      simp only [List.map_cons, List.cons.injEq] at h
      have ho : y.order = x.order := by
        have h1 : (bareEntry y).order = (bareEntry x).order := by rw [h.1]
        exact h1
      by_cases hx : x.order = n
      · simp [ho, hx, h.1]
      · simp [ho, hx, ih h.2]

theorem bare_filter {l m : List Entry} (h : m.map bareEntry = l.map bareEntry) (n : Nat) :
    (m.filter (fun e => e.order ≠ n)).map bareEntry = (l.filter (fun e => e.order ≠ n)).map bareEntry := by
  induction l generalizing m with
  | nil => simp at h; subst h; rfl
  | cons x xs ih =>
    cases m with
    | nil => simp at h
    | cons y ys =>
      simp only [List.map_cons, List.cons.injEq] at h
      have ho : y.order = x.order := by
        have h1 : (bareEntry y).order = (bareEntry x).order := by rw [h.1]
        exact h1
      have := ih h.2
      by_cases hx : x.order = n
      · simp [ho, hx] at this ⊢; exact this
      · simp [ho, hx, h.1] at this ⊢; exact this

theorem completion_bare {e x : Entry} (h : bareEntry x = bareEntry e) : x.completion = e.completion := by
  have h1 : (bareEntry x).completion = (bareEntry e).completion := by rw [h]
  exact h1

/-- Placing a reply does not look at reservations. -/
theorem placeReply_bare (ch : Channel) (d : Due) {s t : State} (h : SameButReservations s t) :
    SameButReservations (placeReply ch d s) (placeReply ch d t) := by
  obtain ⟨w, rfl, hw⟩ := sameBut_exists h
  cases d with
  | stage =>
    unfold placeReply
    dsimp only
    have : (({ s with work := w } : State).port ch).stage = (s.port ch).stage := rfl
    rw [this]
    split
    · exact sameBut_intro hw
    · exact sameBut_intro hw
  | entry n =>
    unfold placeReply
    dsimp only
    have hf := bare_find hw n
    have h1 : ({ s with work := w } : State).entry n = w.find? (fun e => e.order = n) := rfl
    have h2 : s.entry n = s.work.find? (fun e => e.order = n) := rfl
    rw [h1, h2]
    cases ha : w.find? (fun e => e.order = n) with
    | none =>
      rw [ha] at hf
      cases hb : s.work.find? (fun e => e.order = n) with
      | none => exact sameBut_intro hw
      | some b => rw [hb] at hf; cases hf
    | some a =>
      rw [ha] at hf
      cases hb : s.work.find? (fun e => e.order = n) with
      | none => rw [hb] at hf; cases hf
      | some b =>
        rw [hb] at hf
        have hc : a.completion = b.completion := completion_bare (Option.some.inj hf)
        simp only [hc]
        exact ⟨rfl, bare_filter hw n⟩
  | sweep c => exact sameBut_intro hw

theorem placeList_bare (ch : Channel) (ds : List Due) {s t : State} (h : SameButReservations s t) :
    SameButReservations (placeList ch ds s) (placeList ch ds t) := by
  induction ds generalizing s t with
  | nil =>
    obtain ⟨w, rfl, hw⟩ := sameBut_exists h
    exact sameBut_intro hw
  | cons d ds ih =>
    have hp : (t.port ch).queue = (s.port ch).queue := by
      obtain ⟨w, rfl, -⟩ := sameBut_exists h
      rfl
    unfold placeList
    rw [hp]
    split
    · exact ih (placeReply_bare ch d h)
    · obtain ⟨w, rfl, hw⟩ := sameBut_exists h
      exact sameBut_intro hw

/-- Giving out a due list does not look at reservations. -/
theorem placeDue_bare (ch : Channel) {s t : State} (h : SameButReservations s t) :
    SameButReservations (placeDue ch s) (placeDue ch t) := by
  have hp : (t.port ch).due = (s.port ch).due := by
    obtain ⟨w, rfl, -⟩ := sameBut_exists h
    rfl
  unfold placeDue
  rw [hp]
  exact placeList_bare ch _ h

theorem placeBoth_bare {s t : State} (h : SameButReservations s t) : SameButReservations (placeBoth s) (placeBoth t) :=
  placeDue_bare .B (placeDue_bare .A h)

/-- Settling with the volume neither DRAINING nor RELEASING: due replies are placed, and room goes to short reservations. -/
theorem settle_bare {s : State} (hd : s.volume.state ≠ .draining) (hr : s.volume.state ≠ .releasing) :
    SameButReservations (placeBoth s) (settle s) := by
  have hs := sameButReservations_topUpBoth s
  have hp := placeBoth_bare hs
  have hv : (placeBoth (topUpBoth s)).volume = s.volume := by
    have h1 : ∀ (ch : Channel) (d : Due) (u : State), (placeReply ch d u).volume = u.volume := by
      intro ch d u
      cases d <;> unfold placeReply <;> dsimp only
      · split <;> rfl
      · split <;> rfl
      · rfl
    have h2 : ∀ (ch : Channel) (ds : List Due) (u : State), (placeList ch ds u).volume = u.volume := by
      intro ch ds
      induction ds with
      | nil => intro u; rfl
      | cons d ds ih =>
        intro u
        unfold placeList
        split
        · rw [ih, h1]
        · rfl
    unfold placeBoth placeDue
    rw [h2, h2, hs.1]
  unfold settle
  rw [drainExpiry_eq hd, drainCheck_eq (by rw [hv]; exact hd), releaseStop_eq (by rw [hv]; exact hr)]
  exact hp

/-! ## The end of an entry -/

theorem dueAgain_eq (p : Port) : dueAgain p = { p with stage := p.stage.placeFreed } := by
  unfold dueAgain Stage.placeFreed
  cases h : p.stage <;> simp [← h]

theorem dropEntry_eq (e : Entry) (s : State) : dropEntry e.order s = entryLeft e s := by
  simp only [dropEntry, placeFreed, entryLeft, dueAgain_eq]

/-- The completion an ended entry will give. -/
theorem completion_ended (e : Entry) (code : Code) :
    ({ e with state := .finished, outcome := some code, writeBuffers := [], allocated := 0, reserved := 0, run := none,
              deadline := none } : Entry).completion = endingOf e code := by
  unfold Entry.completion endingOf Entry.body
  cases e.kind <;> simp [WorkKind.request, Option.getD]

/-- An entry that ends, with the law of R177 in force before: once its channel's due list has been given out, it has left with its
completion in the queue, or is FINISHED and due, or has left without a completion (R70, R91, R92). -/
theorem placeDue_endEntry {s : State} (ho : OrdersLawful s) (hl : RepliesLawful s) {e : Entry} (he : e ∈ s.work) (code : Code) :
    placeDue e.channel (endEntry e.order code s) = entryEnded e code s := by
  have hcond : (e.discard || (e.flags.quiet && code == .done && !e.late && e.conditions.isEmpty)) = true ↔
      (e.discard = true ∨ (e.flags.quiet = true ∧ code = .done ∧ e.late = false ∧ e.conditions = [])) := by
    simp [and_assoc]
  unfold endEntry entryEnded
  rw [entry_of_mem ho he]
  dsimp only
  have key : ∀ u : State, u.work = s.work → u.ports = s.ports →
      placeDue e.channel
        (if (e.discard || (e.flags.quiet && code == .done && !e.late && e.conditions.isEmpty)) = true then dropEntry e.order u
         else addDue e.channel (.entry e.order)
          (updEntry e.order (fun e => { e with state := .finished, outcome := some code, writeBuffers := [], allocated := 0,
                                               reserved := 0, run := none, deadline := none }) u)) =
      if e.discard = true ∨ (e.flags.quiet = true ∧ code = .done ∧ e.late = false ∧ e.conditions = []) then entryLeft e u
      else if (u.port e.channel).queue.length < 4 then
        entryLeft e (u.updPort e.channel (fun p => { p with queue := p.queue ++ [.completion (endingOf e code)] }))
      else
        updEntry e.order (fun x => { x with state := .finished, outcome := some code, writeBuffers := [], allocated := 0, reserved := 0,
                                            run := none, deadline := none })
          (u.updPort e.channel (fun p => { p with due := p.due ++ [.entry e.order] })) := by
    intro u hw hp
    have hlu : RepliesLawful u := by
      intro c
      have : u.port c = s.port c := by unfold State.port; rw [hp]
      rw [this]
      exact hl c
    by_cases hc : e.discard = true ∨ (e.flags.quiet = true ∧ code = .done ∧ e.late = false ∧ e.conditions = [])
    · rw [if_pos (hcond.2 hc), if_pos hc, dropEntry_eq]
      refine placeDue_of_lawful ?_ _
      intro c
      have h1 : ((entryLeft e u).port c).queue = (u.port c).queue := by
        cases c <;> simp only [entryLeft, State.port, PerChannel.get, dueAgain_eq]
      have h2 : ((entryLeft e u).port c).due = (u.port c).due := by
        cases c <;> simp only [entryLeft, State.port, PerChannel.get, dueAgain_eq]
      rw [h1, h2]
      exact hlu c
    · rw [if_neg (fun h => hc (hcond.1 h)), if_neg hc]
      by_cases hq : (u.port e.channel).queue.length < 4
      · rw [if_pos hq]
        have hdue : (u.port e.channel).due = [] := by
          by_contra hne
          have := (hlu e.channel).2 hne
          omega
        unfold placeDue addDue
        rw [updPort_port_same]
        simp only [updEntry]
        have hport : ({ u with work := u.work.map (fun x => if x.order = e.order then
            { x with state := .finished, outcome := some code, writeBuffers := [], allocated := 0, reserved := 0, run := none,
                     deadline := none } else x) } : State).port e.channel = u.port e.channel := rfl
        rw [hport, hdue]
        simp only [List.nil_append, placeList, updPort_port_same, hport, hq, if_true]
        unfold placeReply
        dsimp only
        have hent : (({ u with work := u.work.map (fun x => if x.order = e.order then
            { x with state := .finished, outcome := some code, writeBuffers := [], allocated := 0, reserved := 0, run := none,
                     deadline := none } else x) } : State).updPort e.channel (fun p => { p with due := p.due ++ [.entry e.order] })).entry
              e.order = some { e with state := .finished, outcome := some code, writeBuffers := [], allocated := 0, reserved := 0,
                                      run := none, deadline := none } := by
          unfold State.entry
          simp only [State.updPort_work, hw, List.find?_map, Function.comp_def]
          have hfun : (fun x : Entry => decide ((if x.order = e.order then
              { x with state := .finished, outcome := some code, writeBuffers := [], allocated := 0, reserved := 0, run := none,
                       deadline := none } else x).order = e.order)) = (fun x : Entry => decide (x.order = e.order)) := by
            funext x
            split <;> simp [*]
          rw [hfun, find?_order (work_orders_nodup ho) he]
          simp
        rw [hent]
        dsimp only
        rw [completion_ended, dropEntry_eq]
        unfold entryLeft
        simp only [State.updPort, dueAgain_eq]
        have hfil : (u.work.map (fun x => if x.order = e.order then
            { x with state := .finished, outcome := some code, writeBuffers := [], allocated := 0, reserved := 0, run := none,
                     deadline := none } else x)).filter (fun x => x.order ≠ e.order)
            = u.work.filter (fun x => x.order ≠ e.order) := by
          induction u.work with
          | nil => rfl
          | cons x xs ih =>
            by_cases hx : x.order = e.order
            · simp only [List.map_cons, hx, if_true, ne_eq, not_true_eq_false, decide_false, Bool.false_eq_true, not_false_eq_true,
                List.filter_cons_of_neg]
              exact ih
            · simp only [List.map_cons, hx, if_false, ne_eq, not_false_eq_true, decide_true, List.filter_cons_of_pos]
              rw [ih]
        obtain ⟨⟨a, b⟩, _⟩ := u
        cases hch : e.channel
        all_goals
          rw [hch] at hdue
          simp only [State.port, PerChannel.get] at hdue
          simp only [PerChannel.set, PerChannel.get, hdue, hfil]
      · rw [if_neg hq]
        have h4 : (u.port e.channel).queue.length = 4 := by
          have := (hlu e.channel).1
          omega
        have hfull : placeDue e.channel (addDue e.channel (.entry e.order)
            (updEntry e.order (fun e => { e with state := .finished, outcome := some code, writeBuffers := [], allocated := 0,
                                                 reserved := 0, run := none, deadline := none }) u)) =
            addDue e.channel (.entry e.order)
              (updEntry e.order (fun e => { e with state := .finished, outcome := some code, writeBuffers := [], allocated := 0,
                                                   reserved := 0, run := none, deadline := none }) u) := by
          refine placeDue_of_full ?_
          unfold addDue
          rw [updPort_port_same]
          exact h4
        rw [hfull]
        rfl
  cases hk : e.kind
  case append =>
    cases hs : e.slot with
    | none => exact key s rfl rfl
    | some k => exact key (lowerPending k e.remaining s) rfl rfl
  all_goals exact key s rfl rfl

/-- Giving out one channel's due list leaves the other port's queue and due list alone. -/
theorem placeDue_other (ch : Channel) (s : State) :
    ((placeDue ch s).port ch.other).queue = (s.port ch.other).queue ∧ ((placeDue ch s).port ch.other).due = (s.port ch.other).due := by
  have hd : ∀ (n : Nat) (u : State) (c : Channel), ((dropEntry n u).port c).queue = (u.port c).queue
      ∧ ((dropEntry n u).port c).due = (u.port c).due := by
    intro n u c
    cases c <;> exact ⟨rfl, rfl⟩
  have h1 : ∀ (d : Due) (u : State), ((placeReply ch d u).port ch.other).queue = (u.port ch.other).queue
      ∧ ((placeReply ch d u).port ch.other).due = (u.port ch.other).due := by
    intro d u
    cases d <;> unfold placeReply <;> dsimp only
    · split
      · rw [updPort_port_other]; exact ⟨rfl, rfl⟩
      · exact ⟨rfl, rfl⟩
    · split
      · rw [(hd _ _ _).1, (hd _ _ _).2, updPort_port_other]; exact ⟨rfl, rfl⟩
      · exact ⟨rfl, rfl⟩
    · rw [updPort_port_other]; exact ⟨rfl, rfl⟩
  have h2 : ∀ (ds : List Due) (u : State), ((placeList ch ds u).port ch.other).queue = (u.port ch.other).queue
      ∧ ((placeList ch ds u).port ch.other).due = (u.port ch.other).due := by
    intro ds
    induction ds with
    | nil => intro u; unfold placeList; rw [updPort_port_other]; exact ⟨rfl, rfl⟩
    | cons d ds ih =>
      intro u
      unfold placeList
      split
      · rw [(ih _).1, (ih _).2, (h1 _ _).1, (h1 _ _).2]; exact ⟨rfl, rfl⟩
      · rw [updPort_port_other]; exact ⟨rfl, rfl⟩
  exact h2 _ s

/-- The end of an entry leaves the queues and due lists but for its own channel's due list. -/
theorem endEntry_other {s : State} {e : Entry} (he : s.entry e.order = some e) (code : Code) (c : Channel) (hc : c ≠ e.channel) :
    ((endEntry e.order code s).port c).queue = (s.port c).queue ∧ ((endEntry e.order code s).port c).due = (s.port c).due := by
  have key : ∀ u : State, u.ports = s.ports →
      ((if (e.discard || (e.flags.quiet && code == .done && !e.late && e.conditions.isEmpty)) = true then dropEntry e.order u
        else addDue e.channel (.entry e.order)
          (updEntry e.order (fun e => { e with state := .finished, outcome := some code, writeBuffers := [], allocated := 0,
                                               reserved := 0, run := none, deadline := none }) u)).port c).queue = (s.port c).queue
      ∧ ((if (e.discard || (e.flags.quiet && code == .done && !e.late && e.conditions.isEmpty)) = true then dropEntry e.order u
        else addDue e.channel (.entry e.order)
          (updEntry e.order (fun e => { e with state := .finished, outcome := some code, writeBuffers := [], allocated := 0,
                                               reserved := 0, run := none, deadline := none }) u)).port c).due = (s.port c).due := by
    intro u hp
    have hu : u.port c = s.port c := by unfold State.port; rw [hp]
    split
    · rw [← hu]
      cases c <;> exact ⟨rfl, rfl⟩
    · unfold addDue
      rw [updPort_port, if_neg hc, ← hu]
      exact ⟨rfl, rfl⟩
  unfold endEntry
  rw [he]
  dsimp only
  cases hk : e.kind
  case append =>
    cases hs : e.slot with
    | none => exact key s rfl
    | some k => exact key (lowerPending k e.remaining s) rfl
  all_goals exact key s rfl

theorem endEntry_volume (n : Nat) (code : Code) (s : State) : (endEntry n code s).volume = s.volume := by
  unfold endEntry
  dsimp only
  repeat' split
  all_goals rfl

/-- An entry that ends in a step with the volume neither DRAINING nor RELEASING: what the step leaves once it has settled. -/
theorem settle_endEntry {s : State} (ho : OrdersLawful s) (hl : RepliesLawful s) (hd : s.volume.state ≠ .draining)
    (hr : s.volume.state ≠ .releasing) {e : Entry} (he : e ∈ s.work) (code : Code) :
    SameButReservations (entryEnded e code s) (settle (endEntry e.order code s)) := by
  have hv := endEntry_volume e.order code s
  have hs := settle_bare (s := endEntry e.order code s) (by rw [hv]; exact hd) (by rw [hv]; exact hr)
  have hp : placeBoth (endEntry e.order code s) = entryEnded e code s := by
    unfold placeBoth
    have hown := placeDue_endEntry ho hl he code
    cases hch : e.channel with
    | A =>
      rw [hch] at hown
      rw [hown]
      have h1 := placeDue_other .A (endEntry e.order code s)
      rw [hown] at h1
      have h2 := endEntry_other (entry_of_mem ho he) code .B (by rw [hch]; decide)
      have hq : ((entryEnded e code s).port .B).queue = (s.port .B).queue := h1.1.trans h2.1
      have hdue : ((entryEnded e code s).port .B).due = (s.port .B).due := h1.2.trans h2.2
      by_cases hne : (s.port .B).due = []
      · exact placeDue_of_empty (hdue.trans hne)
      · refine placeDue_of_full ?_
        rw [hq]
        exact (hl .B).2 hne
    | B =>
      rw [hch] at hown
      have h2 := endEntry_other (entry_of_mem ho he) code .A (by rw [hch]; decide)
      have hA : placeDue .A (endEntry e.order code s) = endEntry e.order code s := by
        by_cases hne : (s.port .A).due = []
        · exact placeDue_of_empty (h2.2.trans hne)
        · refine placeDue_of_full ?_
          rw [h2.1]
          exact (hl .A).2 hne
      rw [hA, hown]
  rw [hp] at hs
  exact hs

end Sys2Proof.Machine
end

