-- ==== Sys2Proof/Laws/Drive.lean ====
section
/-! SUPPORT. What the sequencer's shared operations leave: an access begun, an access sent to its sector, the next attempt at a sector, and
what the address check finds. -/

namespace Sys2Proof.Machine

open Sys2Proof.Safety

/-- What `approach` leaves is what `sent` says. -/
theorem approach_eq_sent {s : State} {a : Access} (h : s.seq.access = some a) : approach s = { s with seq := sent a s.seq } := by
  unfold approach sent
  rw [h]
  dsimp only
  have hc : a.cylinder = a.base + a.sector / 24 := rfl
  rw [hc]
  split
  · simp [startSearch, updAccess, updSeq, h, headOf, sectorOf]
  · simp [issueSeek, updSeq, h]

/-- What `beginAccess` leaves is what `begun` says. -/
theorem beginAccess_eq_begun (a : Access) (s : State) : beginAccess a s = { s with seq := begun a s.seq } := by
  unfold beginAccess
  rw [approach_eq_sent (a := a) rfl]
  unfold begun sent updSeq
  dsimp only

/-- What `nextPassage` leaves is what `retried` says. -/
theorem nextPassage_eq_retried {s : State} {a : Access} (h : s.seq.access = some a) :
    nextPassage s = { s with seq := retried a s.seq } := by
  unfold nextPassage retried
  rw [h]
  dsimp only
  split
  · simp [recalibrate, issueRestore, updAccess, updSeq, h]
  · simp [startSearch, updAccess, updSeq, h, headOf, sectorOf]

/-- The access of a mount that has not been cut is not one that has (R154). -/
theorem mountWasCut_false {s : State} {a : Access} (h : a.kind = .labelRead ∨ a.kind = .probe → s.volume.state = .mounting) :
    s.mountWasCut a = false := by
  unfold State.mountWasCut
  by_cases hk : a.kind = .labelRead ∨ a.kind = .probe
  · simp [h hk]
  · simp only [not_or] at hk
    simp [hk.1, hk.2]

/-- A readable header at the right address passes the check with its state (R122). -/
theorem checkAddress_of_right {a : Access} {h : HeaderImage} (hr : AddressRight a h) : checkAddress a h = .passed h.state := by
  obtain ⟨h1, h2, h3, h4⟩ := hr
  simp [checkAddress, headerReadable, h1, h2, h3, h4, Access.cylinder, cylinderOf, headOf, sectorOf]

/-- A readable header at another address is a mismatch (R122). -/
theorem checkAddress_of_wrong {a : Access} {h : HeaderImage} (hr : AddressWrong a h) : checkAddress a h = .mismatch := by
  obtain ⟨h1, h2⟩ := hr
  have e : headerReadable h = true := by simp [headerReadable, h1]
  unfold checkAddress
  rw [if_pos e, if_neg]
  exact h2

/-- A header whose check word differs is a header failure (R122). -/
theorem checkAddress_of_unreadable {a : Access} {h : HeaderImage} (hr : h.check ≠ headerCheck h.cylinder h.head h.sector h.state) :
    checkAddress a h = .headerFailure := by
  have e : headerReadable h = false := by simp [headerReadable, hr]
  simp [checkAddress, e]

/-- Settling a MOUNTED state that keeps the law of R177 changes reservations alone. -/
theorem settle_of_mounted {s : State} (hl : RepliesLawful s) (hv : s.volume.state = .mounted) : SameButReservations s (settle s) := by
  rw [settle_of_lawful (by simp [hv]) (by simp [hv]) hl]
  exact sameButReservations_topUpBoth s

/-- A failed attempt counted, the sequencer as it goes to the next one (R122, R125, R129). -/
theorem nextPassage_of_failure {s : State} {a : Access} (further : Bool) (ha : s.seq.access = some a) :
    nextPassage (countFailure further s) = { s with seq := retried { a with failed := a.failed + 1, further := further } s.seq } := by
  have hac : (countFailure further s).seq.access = some { a with failed := a.failed + 1, further := further } := by
    simp [countFailure, updAccess, updSeq, ha]
  rw [nextPassage_eq_retried hac]
  simp [countFailure, updAccess, updSeq, retried]

/-- A failed address check on a working passage with attempts left: the sector is tried again with one more failure counted (R125, R129). -/
theorem checkFails_again {s : State} {a : Access} (ha : s.seq.access = some a) (hp : a.pass = .work) (hk1 : a.kind ≠ .labelRead)
    (hk2 : a.kind ≠ .probe) (hf : a.failed < (if a.kind.writes = true then s.writeRetries a else s.readRetries a)) :
    checkFails a s = { s with seq := retried { a with failed := a.failed + 1, further := false } s.seq } := by
  have hfin := nextPassage_of_failure false ha
  unfold checkFails
  rw [hp]
  dsimp only
  by_cases hw : a.kind.writes = true
  · rw [if_pos hw] at hf ⊢
    unfold checkAttemptFails
    rw [if_pos (by omega), hfin, hp]
  · rw [if_neg hw] at hf ⊢
    unfold readAttemptFails
    have hm : s.mountWasCut a = false := by simp [State.mountWasCut, hk1, hk2]
    rw [hm, if_neg (by simp), if_pos (by omega), hfin, hp]

/-- A failed read-back with attempts left: the sector is written again, with one more failure counted (R128, R129). -/
theorem readBackFails_again {s : State} {a : Access} (ha : s.seq.access = some a) (hf : a.failed < s.writeRetries a) :
    readBackFails a s = { s with seq := retried { a with failed := a.failed + 1, further := false, pass := .work } s.seq } := by
  have hac : (updAccess (fun x => { x with pass := .work }) (countFailure false s)).seq.access
      = some { a with failed := a.failed + 1, further := false, pass := .work } := by
    simp [countFailure, updAccess, updSeq, ha]
  unfold readBackFails
  dsimp only
  rw [if_pos (by omega), nextPassage_eq_retried hac]
  simp [countFailure, updAccess, updSeq, retried]

/-- The fill state of an extent with no APPEND on it becomes UNKNOWN, and nothing else changes (R23). -/
theorem fillBecomesUnknown_alone {s : State} {k : Slot} (hw : ∀ e ∈ s.work, ¬ (e.kind = .append ∧ e.slot = some k))
    (hp : ∀ p ∈ s.posted, ¬ (p.kind = .append ∧ p.slot = k)) :
    fillBecomesUnknown k s = updFill k (fun f => { f with state := .unknown }) s := by
  have h1 : s.work.filter (fun e => e.kind = .append ∧ e.slot = some k ∧ (e.state = .queued ∨ e.state = .parked)) = [] := by
    rw [List.filter_eq_nil_iff]
    exact fun e he h => hw e he ⟨(of_decide_eq_true h).1, (of_decide_eq_true h).2.1⟩
  have h2 : s.posted.filter (fun p => p.kind = .append ∧ p.slot = k ∧ p.committing = false) = [] := by
    rw [List.filter_eq_nil_iff]
    exact fun p hm h => hp p hm ⟨(of_decide_eq_true h).1, (of_decide_eq_true h).2.1⟩
  unfold fillBecomesUnknown
  dsimp only
  rw [show (updFill k (fun f => { f with state := .unknown }) s).work = s.work from rfl,
    show (updFill k (fun f => { f with state := .unknown }) s).posted = s.posted from rfl, h1, h2]
  rfl

/-- What the cut of a clearing step does to the fill state (R23): UNKNOWN on the sector at fill mark − 1 of a KNOWN extent, and nothing on any
other. -/
theorem clearCut_eq (m : Nat) (k : Slot) (s : State) :
    clearCut m k s = if (s.fill k).map (fun f => (f.state, f.mark)) = some (.known, m + 1) then fillBecomesUnknown k s else s := by
  unfold clearCut
  cases s.fill k <;> simp

/-- What a cut leaves on the medium, in the words of the claims (R9). -/
theorem tear_medium (s : State) : (tear s).medium = Safety.cutMedium s := by
  unfold tear Safety.cutMedium
  cases ha : s.seq.access with
  | none => rfl
  | some a =>
    cases hp : s.seq.phase <;> simp only [] <;>
      (first
        | rfl
        | exact apply_ite State.medium _ _ _)

end Sys2Proof.Machine
end

