-- ==== Sys2Proof/Laws/Lines.lean ====
section
/-! SUPPORT. What a change of a reported line comes to, by who takes it. -/

namespace Sys2Proof.Machine

open Sys2Proof.Safety

/-- Acting on a line, in the words of the claims. -/
theorem setLine_acted (l : Line) (active : Bool) (s : State) : { s with acted := setLine l active s.acted } = actedOn l active s := rfl

theorem reportLine_eq (l : Line) (p : Port) :
    p.reportLine l = if hasLine p.context.lineMask l then
      { p with changed := p.changed ||| lineBit l, events := p.events ||| EventKind.lineChange.bit } else p := by
  unfold Port.reportLine
  split <;> rfl

/-- The line monitor's taking of a change, in the words of the claims. -/
theorem takeLine_eq_lineTaken (l : Line) (active : Bool) (s : State) : takeLine l active s = lineTaken l active s := by
  unfold takeLine lineTaken
  simp only [reportLine_eq]
  rfl

theorem monitorTakes_same {l : Line} {active : Bool} {s : State} (h : s.lineActive l = active) : monitorTakes l active s = s := by
  simp [monitorTakes, h]

/-- For every line but POWER the monitor's part is the level and its report. -/
theorem monitorTakes_change {l : Line} {active : Bool} {s : State} (hp : l ≠ .power) (h : s.lineActive l ≠ active) :
    monitorTakes l active s = lineTaken l active s := by
  rw [monitorTakes, if_neg h, takeLine_eq_lineTaken]
  cases l <;> first | rfl | exact absurd rfl hp

theorem ownerTakes_same {l : Line} {active : Bool} {act : State → State} {s : State} (h : s.ownerActive l = active) :
    ownerTakes l active act s = s := by
  simp [ownerTakes, h]

/-- The blocks that act on a line act once their level changes, whatever the line monitor has taken. -/
theorem ownerTakes_change {l : Line} {active : Bool} {act : State → State} {s : State} (h : s.ownerActive l ≠ active) :
    ownerTakes l active act s = act (actedOn l active s) := by
  rw [ownerTakes, if_neg h, setLine_acted]

@[simp] theorem lineChange_monitor (l : Line) (active : Bool) (act : State → State) (s : State) :
    lineChange l active act (takenBy .monitor s) = monitorTakes l active s := rfl

@[simp] theorem lineChange_owner (l : Line) (active : Bool) (act : State → State) (s : State) :
    lineChange l active act (takenBy .owner s) = ownerTakes l active act s := rfl

@[simp] theorem lineChange_both (l : Line) (active : Bool) (act : State → State) (s : State) :
    lineChange l active act (takenBy .both s) = ownerTakes l active act (monitorTakes l active s) := rfl

/-- With nobody named, both take the change. -/
theorem lineChange_unsaid (l : Line) (active : Bool) (act : State → State) {s : State} (h : s.takers = []) :
    lineChange l active act s = lineChange l active act (takenBy .both s) := by
  have e : { s with takers := s.takers.tail } = s := by rw [h, List.tail_nil, ← h]
  simp only [lineChange, e]
  rw [h]
  rfl

end Sys2Proof.Machine
end

