-- ==== Sys2Proof/Laws/Map.lean ====
section
/-! SUPPORT. The checks of a MAP-LOAD on the table, in the words of the claims: a shared cylinder and a busy slot. -/

namespace Sys2Proof.Machine

open Sys2Proof.Safety

/-- Under changes that name no slot twice, a slot holds what its change says, or, unnamed, what it held. -/
theorem State.resulting_eq_some_iff (s : State) (gs : List (Slot × Option Definition)) (hn : (gs.map (fun g => g.1)).Nodup) (k : Slot)
    (d : Definition) :
    s.resulting gs k = some d ↔
      (k, some d) ∈ gs ∨ ((∀ g ∈ gs, g.1 ≠ k) ∧ ∃ x, s.extent k = some x ∧ x.defn = d) := by
  unfold State.resulting
  induction gs with
  | nil => simp [Option.map_eq_some_iff]
  | cons g gs ih =>
    obtain ⟨j, o⟩ := g
    rw [List.map_cons, List.nodup_cons] at hn
    by_cases hj : j = k
    · subst hj
      have hno : ∀ o', (j, o') ∉ gs := fun o' h => hn.1 (List.mem_map.mpr ⟨_, h, rfl⟩)
      simp [hno, eq_comm]
    · rw [List.find?_cons_of_neg (by simpa using hj)]
      rw [ih hn.2]
      simp [hj, Ne.symm hj]

/-- The seventh check of a MAP-LOAD finds a shared cylinder exactly when one would be shared (R12, R29). -/
theorem State.wouldOverlap_iff (s : State) (gs : List (Slot × Option Definition)) (hn : (gs.map (fun g => g.1)).Nodup) :
    s.wouldOverlap gs = true ↔ MapShares s gs := by
  have hr := s.resulting_eq_some_iff gs hn
  constructor
  · intro h
    simp only [State.wouldOverlap, List.any_eq_true, Bool.and_eq_true, decide_eq_true_eq] at h
    obtain ⟨i, _, j, _, hlt, hm⟩ := h
    split at hm
    · rename_i d e hd he
      exact ⟨i, j, d, e, Fin.ne_of_lt hlt, (hr i d).mp hd, (hr j e).mp he, of_decide_eq_true hm⟩
    · cases hm
  · rintro ⟨j, k, d, e, hne, hd, he, ho⟩
    have hd' := (hr j d).mpr hd
    have he' := (hr k e).mpr he
    simp only [State.wouldOverlap, List.any_eq_true, Bool.and_eq_true, decide_eq_true_eq]
    rcases Nat.lt_or_gt_of_ne (fun h => hne (Fin.ext h)) with h | h
    · exact ⟨j, List.mem_finRange _, k, List.mem_finRange _, h, by rw [hd', he']; exact decide_eq_true ho⟩
    · exact ⟨k, List.mem_finRange _, j, List.mem_finRange _, h, by rw [hd', he']; exact decide_eq_true ho.symm⟩

/-- The last check of a MAP-LOAD finds a slot busy exactly when it is (R30). -/
theorem State.slotBusy_iff (s : State) (ch : Channel) (k : Slot) : s.slotBusy ch k = true ↔ SlotBusy s ch k := by
  unfold State.slotBusy SlotBusy
  cases s.extent k <;> cases s.sweep <;>
    simp [Entry.live, and_comm, or_assoc]

end Sys2Proof.Machine
end

