-- ==== Sys2Proof/Laws/Operands.lean ====
section
/-! SUPPORT. The operand forms' helpers, said once: which words name a slot, what a list of slots or of changes reads to (R29, R59, R186,
R187). -/

namespace Sys2Proof.Machine

/-- A number names a slot exactly when it is the slot's (R52). -/
theorem slotOf_eq_some {n : Nat} {k : Slot} : slotOf n = some k ↔ k.val = n := by
  unfold slotOf
  split
  · simp only [Option.some.injEq, Fin.ext_iff]
    exact eq_comm
  · refine ⟨fun h => (nomatch h), fun h => ?_⟩
    have := k.isLt
    omega

theorem slotOf_isSome {n : Nat} : (slotOf n).isSome = true ↔ n ≤ 31 := by
  unfold slotOf
  split <;> simp <;> omega

/-- Body word 0 names a slot exactly when bits 11 to 8 are 0 and its low byte is the slot's number (R186). -/
theorem headSlot_eq_some {w : Word} {k : Slot} : headSlot w = some k ↔ w.toNat / 256 % 16 = 0 ∧ k.val = w.toNat % 256 := by
  have hlow : lowByte w = w.toNat % 256 := by
    unfold lowByte
    rw [BitVec.toNat_and, show (0x00FF#16).toNat = 2 ^ 8 - 1 from rfl, Nat.and_two_pow_sub_one_eq_mod]
  have hmid : (w &&& 0x0F00#16) = 0 ↔ w.toNat / 256 % 16 = 0 := by
    have hm : ((w &&& 0x0F00#16) >>> 8).toNat = w.toNat / 256 % 16 := by
      rw [BitVec.toNat_ushiftRight, BitVec.toNat_and, Nat.shiftRight_and_distrib,
        show (0x0F00#16).toNat >>> 8 = 2 ^ 4 - 1 from rfl, Nat.and_two_pow_sub_one_eq_mod, Nat.shiftRight_eq_div_pow]
    constructor
    · intro h
      rw [← hm, h]
      rfl
    · intro h
      have h0 : (w &&& 0x0F00#16) >>> 8 = 0 := BitVec.eq_of_toNat_eq (by rw [hm, h]; rfl)
      ext i hi
      have hb := congrArg (fun v : Word => v.getLsbD (i - 8)) h0
      simp only [BitVec.getLsbD_ushiftRight, BitVec.getLsbD_and, BitVec.getLsbD_ofNat] at hb
      by_cases h8 : 8 ≤ i
      · have : 8 + (i - 8) = i := by omega
        rw [this] at hb
        simpa [← BitVec.getLsbD_eq_getElem, BitVec.getLsbD_and, BitVec.getLsbD_ofNat] using hb
      · have : (0x0F00#16).getLsbD i = false := by
          have : ∀ j : Fin 8, (0x0F00#16).getLsbD j.val = false := by decide
          exact this ⟨i, by omega⟩
        simp [← BitVec.getLsbD_eq_getElem, BitVec.getLsbD_and, this]
  unfold headSlot
  split
  · rename_i h
    rw [slotOf_eq_some, hlow]
    exact ⟨fun hk => ⟨hmid.mp h, hk⟩, fun hk => hk.2⟩
  · rename_i h
    exact ⟨fun hk => (nomatch hk), fun hk => absurd (hmid.mpr hk.1) h⟩

/-- A list of slot words reads to the slots they name, one after another. -/
theorem slotsOf_eq_some {ws : List Word} {ks : List Slot} :
    slotsOf ws = some ks ↔ ks.map (fun k => k.val) = ws.map (fun w => w.toNat) := by
  induction ws generalizing ks with
  | nil => cases ks <;> simp [slotsOf]
  | cons w ws ih =>
    unfold slotsOf
    cases hk : slotOf w.toNat with
    | none =>
      refine ⟨fun h => by simp at h, fun h => ?_⟩
      cases ks with
      | nil => simp at h
      | cons k ks =>
        simp only [List.map_cons, List.cons.injEq] at h
        rw [slotOf_eq_some.mpr h.1] at hk
        cases hk
    | some k =>
      cases hks : slotsOf ws with
      | none =>
        refine ⟨fun h => by simp at h, fun h => ?_⟩
        cases ks with
        | nil => simp at h
        | cons j js =>
          simp only [List.map_cons, List.cons.injEq] at h
          rw [ih.mpr h.2] at hks
          cases hks
      | some js =>
        have hj := ih.mp hks
        have hk := slotOf_eq_some.mp hk
        constructor
        · intro h
          cases h
          simp [hj, hk]
        · intro h
          cases ks with
          | nil => simp at h
          | cons i is =>
            simp only [List.map_cons, List.cons.injEq] at h
            have : is = js := Option.some.inj ((ih.mpr h.2).symm.trans hks)
            have : i = k := Fin.ext (h.1.trans hk.symm)
            simp [*]

theorem mem_dedupFirst {k : Slot} {ks : List Slot} : k ∈ dedupFirst ks ↔ k ∈ ks := by
  induction ks with
  | nil => simp [dedupFirst]
  | cons j ks ih =>
    by_cases h : k = j <;> simp [dedupFirst, ih, h]

/-- A slot kept once stands where it was first named. -/
theorem dedupFirst_pairwise (ks : List Slot) : (dedupFirst ks).Pairwise (fun j k => ks.idxOf j < ks.idxOf k) := by
  induction ks with
  | nil => exact List.Pairwise.nil
  | cons i ks ih =>
    refine List.pairwise_cons.mpr ⟨fun k hk => ?_, ?_⟩
    · have hne : k ≠ i := by simpa using (List.mem_filter.mp hk).2
      rw [List.idxOf_cons_self, List.idxOf_cons_ne _ hne.symm]
      omega
    · have hf := ih.filter (fun j => j ≠ i)
      refine hf.imp_of_mem ?_
      intro j k hj hk hlt
      have hji : j ≠ i := by simpa using (List.mem_filter.mp hj).2
      have hki : k ≠ i := by simpa using (List.mem_filter.mp hk).2
      rw [List.idxOf_cons_ne _ hji.symm, List.idxOf_cons_ne _ hki.symm]
      omega

/-- The words of one change of a MAP-LOAD (R187). -/
def Change.words (c : Change) : List Word :=
  word c.slot :: match c.defn with
    | none => [0]
    | some d => [1, d.first, d.last, d.kind, d.rights, d.cls, d.options]

theorem word_toNat (w : Word) : word w.toNat = w := by simp [word]

/-- Changes are read from exactly their words. -/
theorem changesOf_eq_some {n : Nat} {ws rest : List Word} {cs : List Change} :
    changesOf n ws = some (cs, rest) ↔
      cs.length = n ∧ (∀ c ∈ cs, c.slot ≤ 65535) ∧ ws = cs.flatMap Change.words ++ rest := by
  constructor
  · intro h
    induction n generalizing ws cs with
    | zero =>
      simp only [changesOf, Option.some.injEq, Prod.mk.injEq] at h
      obtain ⟨rfl, rfl⟩ := h
      simp
    | succ n ih =>
      unfold changesOf at h
      split at h
      · rename_i h0
        cases h0
      · rename_i m k p ws' h0
        cases h0
        have hk : k.toNat ≤ 65535 := by have := k.isLt; omega
        split at h
        · rename_i hp
          split at h
          · rename_i ds rest' hd
            cases h
            obtain ⟨hl, hs, hw⟩ := ih hd
            refine ⟨by simp [hl], ?_, by simp [Change.words, word_toNat, hp, hw]⟩
            simpa [hk] using hs
          · cases h
        · split at h
          · rename_i hp
            split at h
            · split at h
              · rename_i ds rest' hd
                cases h
                obtain ⟨hl, hs, hw⟩ := ih hd
                refine ⟨by simp [hl], ?_, by simp [Change.words, word_toNat, hp, hw]⟩
                simpa [hk] using hs
              · cases h
            · cases h
          · cases h
      · cases h
  · rintro ⟨hl, hs, rfl⟩
    induction cs generalizing n with
    | nil =>
      subst hl
      rfl
    | cons c cs ih =>
      obtain ⟨m, rfl⟩ : ∃ m, n = m + 1 := ⟨cs.length, by simpa using hl.symm⟩
      have hm := ih (by simpa using hl) (fun d hd => hs d (List.mem_cons_of_mem _ hd))
      have hc : (word c.slot).toNat = c.slot := by
        have := hs c List.mem_cons_self
        simp only [word, BitVec.toNat_ofNat]
        omega
      obtain ⟨slot, defn⟩ := c
      cases defn with
      | none => simp [Change.words, changesOf, hm, hc]
      | some d => simp [Change.words, changesOf, hm, hc]

end Sys2Proof.Machine
end

