-- ==== Sys2Proof/WellFormed.lean ====
section
/-! DEFINITION. What a command must satisfy beyond the types of its operands. -/

namespace Sys2Proof

/-- A work entry's tag is 0 to 254 (R51, R72). -/
def tagOk (tag : Nat) : Bool := tag ≤ 254

/-- A command is well formed when the tag it names is one a work entry can carry; every other operand is bounded by its type. -/
def Instr.wf : Instr → Bool
  | .deadlineExpiry _ tag => tagOk tag
  | _ => true

end Sys2Proof
end

