-- ==== Sys2Proof/Laws/PerInstr.lean ====
section
/-! SUPPORT. What holds of every command as syntax, one lemma for each constructor: which commands are well formed. -/

namespace Sys2Proof.Laws.Encoding

set_option Elab.async false

/-- A command is well formed exactly when the tag it names, if it names one, is one that a work entry can carry (R51). -/
def Statement (i : Instr) : Prop := i.wf = true ↔ ∀ ch tag, i = .deadlineExpiry ch tag → tag ≤ 254

theorem powerOnReset (levels : LineSet) : Statement (.powerOnReset levels) := by
  simp [Statement, Instr.wf]

theorem channelReset (ch : Channel) : Statement (.channelReset ch) := by
  simp [Statement, Instr.wf]

theorem resetRelease (ch : Channel) : Statement (.resetRelease ch) := by
  simp [Statement, Instr.wf]

theorem clockTick : Statement .clockTick := by
  simp [Statement, Instr.wf]

theorem inboundWord (ch : Channel) (w : Word) : Statement (.inboundWord ch w) := by
  simp [Statement, Instr.wf]

theorem frameEarlyEnd (ch : Channel) : Statement (.frameEarlyEnd ch) := by
  simp [Statement, Instr.wf]

theorem reservationMade (ch : Channel) : Statement (.reservationMade ch) := by
  simp [Statement, Instr.wf]

theorem outboundWordTaken (ch : Channel) : Statement (.outboundWordTaken ch) := by
  simp [Statement, Instr.wf]

theorem attentionDelayExpiry (ch : Channel) : Statement (.attentionDelayExpiry ch) := by
  simp [Statement, Instr.wf]

theorem read (ch : Channel) : Statement (.read ch) := by
  simp [Statement, Instr.wf]

theorem write (ch : Channel) : Statement (.write ch) := by
  simp [Statement, Instr.wf]

theorem append (ch : Channel) : Statement (.append ch) := by
  simp [Statement, Instr.wf]

theorem flush (ch : Channel) : Statement (.flush ch) := by
  simp [Statement, Instr.wf]

theorem cancel (ch : Channel) : Statement (.cancel ch) := by
  simp [Statement, Instr.wf]

theorem claim (ch : Channel) : Statement (.claim ch) := by
  simp [Statement, Instr.wf]

theorem mapRead (ch : Channel) : Statement (.mapRead ch) := by
  simp [Statement, Instr.wf]

theorem mapLoad (ch : Channel) : Statement (.mapLoad ch) := by
  simp [Statement, Instr.wf]

theorem mapStore (ch : Channel) : Statement (.mapStore ch) := by
  simp [Statement, Instr.wf]

theorem defectRead (ch : Channel) : Statement (.defectRead ch) := by
  simp [Statement, Instr.wf]

theorem clear (ch : Channel) : Statement (.clear ch) := by
  simp [Statement, Instr.wf]

theorem scan (ch : Channel) : Statement (.scan ch) := by
  simp [Statement, Instr.wf]

theorem sweepHalt (ch : Channel) : Statement (.sweepHalt ch) := by
  simp [Statement, Instr.wf]

theorem context (ch : Channel) : Statement (.context ch) := by
  simp [Statement, Instr.wf]

theorem settingsLoad (ch : Channel) : Statement (.settingsLoad ch) := by
  simp [Statement, Instr.wf]

theorem status (ch : Channel) : Statement (.status ch) := by
  simp [Statement, Instr.wf]

theorem eventAck (ch : Channel) : Statement (.eventAck ch) := by
  simp [Statement, Instr.wf]

theorem faultRead (ch : Channel) : Statement (.faultRead ch) := by
  simp [Statement, Instr.wf]

theorem timeSet (ch : Channel) : Statement (.timeSet ch) := by
  simp [Statement, Instr.wf]

theorem requestRetake (ch : Channel) : Statement (.requestRetake ch) := by
  simp [Statement, Instr.wf]

theorem leaseExpiry (target : ClaimTarget) : Statement (.leaseExpiry target) := by
  simp [Statement, Instr.wf]

theorem deadlineExpiry (ch : Channel) (tag : Nat) : Statement (.deadlineExpiry ch tag) := by
  simp [Statement, Instr.wf, tagOk]

theorem collectionWindowExpiry : Statement .collectionWindowExpiry := by
  simp [Statement, Instr.wf]

theorem arbiterChoice : Statement .arbiterChoice := by
  simp [Statement, Instr.wf]

theorem seekDoneInactive : Statement .seekDoneInactive := by
  simp [Statement, Instr.wf]

theorem seekDone : Statement .seekDone := by
  simp [Statement, Instr.wf]

theorem seekTimeout : Statement .seekTimeout := by
  simp [Statement, Instr.wf]

theorem restoreTimeout : Statement .restoreTimeout := by
  simp [Statement, Instr.wf]

theorem sectorPulse (index : Bool) : Statement (.sectorPulse index) := by
  simp [Statement, Instr.wf]

theorem headerReadComplete (h : HeaderImage) : Statement (.headerReadComplete h) := by
  simp [Statement, Instr.wf]

theorem headerPhaseComplete : Statement .headerPhaseComplete := by
  simp [Statement, Instr.wf]

theorem dataPhaseComplete : Statement .dataPhaseComplete := by
  simp [Statement, Instr.wf]

theorem dataReadComplete (f : FieldImage) : Statement (.dataReadComplete f) := by
  simp [Statement, Instr.wf]

theorem readBackComplete (h : HeaderImage) (f : FieldImage) : Statement (.readBackComplete h f) := by
  simp [Statement, Instr.wf]

theorem readyActive : Statement .readyActive := by
  simp [Statement, Instr.wf]

theorem readyInactive : Statement .readyInactive := by
  simp [Statement, Instr.wf]

theorem doorOpen : Statement .doorOpen := by
  simp [Statement, Instr.wf]

theorem doorClose : Statement .doorClose := by
  simp [Statement, Instr.wf]

theorem unloadPressed : Statement .unloadPressed := by
  simp [Statement, Instr.wf]

theorem unloadReleased : Statement .unloadReleased := by
  simp [Statement, Instr.wf]

theorem protectActive : Statement .protectActive := by
  simp [Statement, Instr.wf]

theorem protectInactive : Statement .protectInactive := by
  simp [Statement, Instr.wf]

theorem faultActive : Statement .faultActive := by
  simp [Statement, Instr.wf]

theorem faultInactive : Statement .faultInactive := by
  simp [Statement, Instr.wf]

theorem faultPersistenceExpiry : Statement .faultPersistenceExpiry := by
  simp [Statement, Instr.wf]

theorem powerActive : Statement .powerActive := by
  simp [Statement, Instr.wf]

theorem powerInactive : Statement .powerInactive := by
  simp [Statement, Instr.wf]

theorem drainTimerExpiry : Statement .drainTimerExpiry := by
  simp [Statement, Instr.wf]

theorem storeBegin : Statement .storeBegin := by
  simp [Statement, Instr.wf]

theorem frameInactive (ch : Channel) : Statement (.frameInactive ch) := by
  simp [Statement, Instr.wf]

end Sys2Proof.Laws.Encoding
end

