-- ==== Sys2Proof/Laws/Replies.lean ====
section
/-! SUPPORT. The words in which replies leave, in the words of the claims (R185 to R187), and how many they are. -/

namespace Sys2Proof.Machine

open Sys2Proof.Safety

theorem kindCode_eq (k : ReqKind) : kindCode k = k.code := by cases k <;> rfl

theorem outcomeCode_eq (c : Code) : outcomeCode c = c.code := by cases c <;> rfl

theorem conditionCode_eq (c : Condition) : conditionCode c = c.toCode.code := by cases c <;> rfl

theorem holderWord_eq (h : Option Channel) : holderWord h = word (holderCode h) := by rcases h with _ | _ | _ <;> rfl

theorem yesNo_eq (b : Bool) : yesNo b = boolWord b := by cases b <;> rfl

theorem optional_eq {α : Type} (f : α → List Word) (v : Option α) : optional f v = presence f v := by cases v <;> rfl

theorem inTwo_eq : inTwo = longWords := by
  funext v
  simp only [inTwo, longWords, word, List.cons.injEq, and_true]
  constructor <;> · apply BitVec.eq_of_toNat_eq; simp [Nat.shiftRight_eq_div_pow]

theorem definitionBody_eq (d : Definition) : definitionBody d = rawWords d.raw := by
  have hk : placeIn [ExtentKind.opn, .append, .guarded] d.kind = word d.kind.code := by cases d.kind <;> rfl
  have hc : placeIn [WorkClass.urgent, .setup, .log, .bulk] d.cls = word d.cls.code := by cases d.cls <;> rfl
  simp [definitionBody, rawWords, Definition.raw, Definition.rightsWord, Definition.optionsWord, bitsOf, hk, hc, Nat.add_assoc]

theorem mapEntryBody_eq : mapEntryBody = MapEntry.words := by
  funext m
  have hf : (fun f : Fill => [word f.mark, placeIn [FillState.known, .unknown] f.state]) = fun f => [word f.mark, word f.state.code] := by
    funext f
    cases f.state <;> rfl
  simp only [mapEntryBody, MapEntry.words, optional_eq, yesNo_eq, holderWord_eq, definitionBody_eq, hf]
  rfl

theorem defectBody_eq : defectBody = Defect.words := by
  funext d
  simp only [defectBody, Defect.words, inTwo_eq]
  cases d.cause <;> rfl

theorem faultBody_eq : faultBody = FaultEntry.words := by
  funext e
  simp only [faultBody, FaultEntry.words, inTwo_eq, optional_eq, outcomeCode_eq]

theorem setWord_eq {n : Nat} (v : BitVec n) : word v.toNat = v.setWidth 16 := by
  apply BitVec.eq_of_toNat_eq
  simp [word]

theorem statusBody_eq (r : StatusRecord) : statusBody r = r.words := by
  have h1 : placeIn [VolumeState.absent, .mounting, .mounted, .draining, .storing, .releasing] r.volume = word r.volume.code := by
    cases r.volume <;> rfl
  have h2 : (fun l => [placeIn [LabelState.valid, .unlabelled] l]) = fun l : LabelState => [word l.code] := by
    funext l
    cases l <;> rfl
  have h3 : placeIn [SeqState.noCartridge, .restoring, .idle, .seeking, .searching, .transferring, .notSafe, .stopping, .offline] r.sequencer
      = word r.sequencer.code := by cases r.sequencer <;> rfl
  have h4 : placeIn [Phase.headerCheck, .header, .data, .dataRead, .readBack, .none] r.phase = word r.phase.code := by cases r.phase <;> rfl
  have h5 : placeIn [Direction.inward, .outward] r.direction = word r.direction.code := by cases r.direction <;> rfl
  have h6 : placeIn [SweepPhase.none, .collecting, .running, .suspended, .ended] r.sweepPhase = word r.sweepPhase.code := by
    cases r.sweepPhase <;> rfl
  simp only [statusBody, StatusRecord.words, WorkCounts.words, levelWords, claimBody, ClaimRecord.words, inTwo_eq, yesNo_eq, optional_eq,
    holderWord_eq, h1, h2, h3, h4, h5, h6, setWord_eq]
  rfl

theorem kindBody_eq (b : Body) : kindBody b = b.words := by
  cases b with
  | none => rfl
  | read _ => rfl
  | append _ => simp [kindBody, Body.words, optional_eq]
  | claim _ => simp [kindBody, Body.words, claimBody, ClaimRecord.words, holderWord_eq]
  | map _ _ _ => simp [kindBody, Body.words, yesNo_eq, List.flatMap, mapEntryBody_eq]
  | defects _ _ => simp [kindBody, Body.words, yesNo_eq, List.flatMap, defectBody_eq]
  | sweep _ =>
    have h : (fun r : Slot × SweepResult => [word r.1.val, placeIn [SweepResult.done, .partly, .prot, .failedSectors, .volumeGone] r.2])
        = fun r => [word r.1.val, word r.2.code] := by
      funext ⟨_, r⟩
      cases r <;> rfl
    simp only [kindBody, Body.words, List.flatMap, h]
    rfl
  | status r => exact statusBody_eq r
  | faultRead _ _ => simp [kindBody, Body.words, optional_eq, faultBody_eq]

theorem completionBody_eq (c : Completion) : completionBody c = c.words := by
  simp [completionBody, Completion.words, conditionWord, kindCode_eq, outcomeCode_eq, conditionCode_eq, kindBody_eq]

theorem frameOf_eq (kind tag : Nat) (body : List Word) : frameOf kind tag body = frameWords kind tag body := by simp [frameOf, frameWords]

/-- The words in which a reply leaves are those of its frame. -/
theorem replyFrame_eq (r : Reply) : replyFrame r = r.words := by
  cases r with
  | completion c => simp only [replyFrame, Reply.words, frameOf_eq, completionBody_eq]
  | linkReject tag reason taken =>
    have h : 1 + placeIn [LinkReason.check, .length, .kind] reason = word reason.code := by cases reason <;> rfl
    simp only [replyFrame, Reply.words, frameOf_eq, h]

/-- A reply has the number of words that its delivery counts. -/
theorem replyFrame_length (r : Reply) : (replyFrame r).length = r.size := by
  rw [replyFrame_eq]
  cases r <;> simp [Reply.words, Reply.size, frameWords]

end Sys2Proof.Machine
end

