-- ==== Sys2Proof/Tests/Slice0.lean ====
section
/-! SUPPORT. Tests of the model on small states: the check of well-formedness, a step for each family of commands, and for each
statement with hypotheses a state and operands that meet all of them together. -/

namespace Sys2Proof.Tests

open Sys2Proof.Machine Sys2Proof.Safety

set_option Elab.async false

/-! ## Well-formedness and the table's words -/

theorem test_wf_refuses_tag_255 : (Instr.deadlineExpiry .A 255).wf = false := by decide

theorem test_wf_takes_tag_254 : (Instr.deadlineExpiry .B 254).wf = true := by decide

theorem test_no_word_spells_a_command : decodeTableWord 16 0x1000 = none := rfl

/-! ## Small states -/

/-- A definition with every right, of class LOG. -/
def definition (kind : ExtentKind) (first last : Nat) (posting : Bool) : Definition :=
  { first := first, last := last, kind := kind, readA := true, writeA := true, readB := true, writeB := true, cls := .log,
    urgentAllowed := true, posting := posting }

/-- An OPEN extent of cylinders 1 to 10. -/
def openExtent : Extent := { defn := definition .opn 1 10 true, fill := none, clearing := false }

/-- An APPEND extent of cylinders 11 to 20 with its fill mark in its second cylinder. -/
def appendExtent : Extent :=
  { defn := definition .append 11 20 true, fill := some { mark := 30, state := .known, pending := 0 }, clearing := false }

/-- A GUARDED extent up to the cartridge's last cylinder. -/
def guardedExtent : Extent := { defn := definition .guarded 21 319 false, fill := none, clearing := false }

/-- A MOUNTED volume with an OPEN, an APPEND and a GUARDED extent in slots 0, 1 and 31, the arm at cylinder 0, READY ACTIVE. -/
def live : State :=
  { State.reset with
    extents := ((Vector.replicate 32 none).set 0 (some openExtent)).set 1 (some appendExtent) |>.set 31 (some guardedExtent)
    levels := 1
    acted := 1
    seq := { Sequencer.reset with state := .idle, cylinder := some 0 }
    volume := { Volume.reset with state := .mounted, generation := 1, label := some .valid, serial := some 7 } }

/-- A request of a kind with tag 5. -/
def request (kind : ReqKind) (body : List Word) : Request :=
  { kind := kind, tag := 5, length := body.length, body := body, buffers := [], reserved := 0 }

/-- A WRITE or APPEND of one sector of ones, tag 5. -/
def dataRequest (kind : ReqKind) (body : List Word) : Request :=
  { request kind body with length := body.length + 256, buffers := [List.replicate 256 1] }

/-- A state with something in channel A's stage. -/
def staged (st : Stage) (s : State) : State := s.updPort .A (fun p => { p with stage := st })

/-- A state with a request in channel A's stage. -/
def asked (kind : ReqKind) (body : List Word) (s : State) : State := staged (.request (request kind body)) s

/-- A state in which channel A holds the controller claim. -/
def claimed (s : State) : State := { s with ctlClaim := { holder := some .A, token := 1, lease := 0, remaining := 0 } }

/-- A work entry on the OPEN extent: one sector at relative sector 23, the last of its cylinder. -/
def work (ch : Channel) (kind : WorkKind) (tag order : Nat) : Entry :=
  { channel := ch, tag := tag, kind := kind, cls := some .log, slot := some 0, base := 1, size := 240, first := 23, count := 1,
    done := 0, state := .queued, order := order, deadline := none, late := false, span := none, verify := false,
    flags := { quiet := false, medium := false, urgent := false, force := false }, token := none,
    writeBuffers := [List.replicate 256 1], readBuffers := [], allocated := 0, reserved := 0, conditions := [], appendStart := none,
    run := none, watched := [], faultSeen := false, outcome := none, discard := false, serial := 0, tornNext := false }

/-- A state with work entries. -/
def working (es : List Entry) (s : State) : State := { s with work := es, nextOrder := es.length }

/-- A posted write on the OPEN extent. -/
def posted (ch : Channel) (tag order : Nat) : Posted :=
  { channel := ch, tag := tag, kind := .write, slot := 0, base := 1, size := 240, first := some 0, count := 1, committed := 0,
    torn := false, order := order, cls := .log, generation := 1, span := none, verify := false, token := none, force := false,
    buffers := [List.replicate 256 1], committing := false, tornNext := false }

/-- A completion. -/
def reply (tag : Nat) (outcome : Code) : Reply :=
  .completion { tag := tag, kind := .status, outcome := outcome, late := false, sectorsDone := 0, conditions := [], body := .none }

/-- The law of R177 holds while no reply is due. -/
theorem replies_of_none_due {s : State} (ha : s.ports.a.queue.length ≤ 4 ∧ s.ports.a.due = [])
    (hb : s.ports.b.queue.length ≤ 4 ∧ s.ports.b.due = []) : RepliesLawful s := by
  intro ch
  cases ch
  · exact ⟨ha.1, fun h => absurd ha.2 h⟩
  · exact ⟨hb.1, fun h => absurd hb.2 h⟩

/-- The law of R177 holds while the one port with replies due has a full queue. -/
theorem replies_of_full {s : State} (ha : s.ports.a.queue.length = 4) (hb : s.ports.b.queue.length ≤ 4 ∧ s.ports.b.due = []) :
    RepliesLawful s := by
  intro ch
  cases ch
  · exact ⟨by show s.ports.a.queue.length ≤ 4; omega, fun _ => ha⟩
  · exact ⟨hb.1, fun h => absurd hb.2 h⟩

/-! ## Values worked out from the spec -/

/-- The state a command leaves. -/
def run (c : Instr) (s : State) : State := match exec c s with | .next t => t | _ => s

/-- R6: a single 1 bit as the last of a word leaves the generator's low terms. -/
theorem test_crc_of_one : crc [1] = 0x8005 := by decide +kernel

/-- R6: one bit earlier, it has been shifted once more. -/
theorem test_crc_of_two : crc [2] = 0x800F := by decide +kernel

/-- R185, R186: the frame of a DONE completion of a STATUS with tag 5 and an empty body, up to its check word. -/
theorem test_completion_words : (reply 5 .done).words.dropLast = [0xA005, 0x0002, 0x6000, 0x0000] := by decide +kernel

/-- The completion of a request of tag 6, DONE with a body. -/
def answer (kind : ReqKind) (body : Body) : Reply :=
  .completion { tag := 6, kind := kind, outcome := .done, late := false, sectorsDone := 0, conditions := [], body := body }

/-- R185, R186, R187: the words of a LINK-REJECT for its KIND, of a MAP-READ of one APPEND extent with its fill mark at 30, and of a FAULT-READ
of a posted APPEND that faulted before its first sector, up to their check words. -/
theorem test_reply_frames :
    (replyFrame (.linkReject 5 .kind 1)).dropLast = [0xA105, 2, 3, 1]
      ∧ (replyFrame (answer .mapRead (.map 1 true [{ slot := 31, extent := appendExtent, holder := some .B }]))).dropLast
          = [0xA006, 19, 0x3000, 0, 1, 1, 1, 31, 11, 20, 1, 15, 2, 3, 1, 30, 0, 1, 0, 0, 2]
      ∧ (replyFrame (answer .faultRead (.faultRead (some
            { tag := 9, slot := 1, first := none, count := 2, committed := 0, cause := .mediumError, generation := 255
              clock := 0x00010002 }) 255))).dropLast
          = [0xA006, 13, 0x6200, 0, 1, 9, 1, 0, 2, 0, 0x0B, 255, 1, 2, 255] := by decide +kernel

/-- R186: a condition at index 3 stands in bits 15-8, its code in bits 7-0. -/
theorem test_condition_word : conditionWord (3, .mediumError) = 0x030B := by decide +kernel

/-- R101: the span sum wraps its carry around. -/
theorem test_span_sum : insertSpan (some { first := 0, last := 1, insert := 2 }) [0xFFF0, 0x0020, 0] = [0xFFF0, 0x0020, 0x0011] := by
  decide +kernel

/-- R187: the words of a definition read back as the definition. -/
theorem test_definition_words : wellFormedDefinition (definition .guarded 21 319 false).raw = some (definition .guarded 21 319 false) := by
  decide +kernel

/-- R14: a definition that reaches cylinder 320, or begins at 0, is not well formed. -/
theorem test_definition_bounds :
    wellFormedDefinition { (definition .opn 1 10 true).raw with last := 320 } = none
      ∧ wellFormedDefinition { (definition .opn 1 10 true).raw with first := 0 } = none := by decide +kernel

/-! ## One step of each family -/

theorem test_power_on_mounts : (run (.powerOnReset 1) State.reset).volume.generation = 1
    ∧ (run (.powerOnReset 1) State.reset).seq.restoreTimer = some 600 := by decide +kernel

theorem test_tick_wraps : (run .clockTick { live with clock := 0xFFFFFFFF }).clock = 0 := by decide +kernel

theorem test_header_word_begins_a_frame : (match ((run (.inboundWord .A 0x6005) live).port .A).receiver with
    | .receiving f => (f.kind, f.tag) | _ => (.read, 0)) = (.status, 5) := by decide +kernel

theorem test_bad_kind_is_rejected : ((run (.inboundWord .A 0x7F05) live).port .A).queue = [.linkReject 5 .kind 1] := by decide +kernel

theorem test_reply_leaves : ((run (.outboundWordTaken .A) (live.updPort .A (fun p => { p with queue := [reply 5 .done], outTaken := 4 }))).port
    .A).queue = [] := by decide +kernel

theorem test_read_is_queued : (run (.read .A) (asked .read [0x0000, 8, 23] live)).work.map (fun e => (e.first, e.count, e.state))
    = [(23, 8, .queued)] := by decide +kernel

theorem test_write_is_posted : (run (.write .A) (staged (.request (dataRequest .write [0x0000, 1, 239])) live)).posted.map (fun p => p.first)
    = [some 239] := by decide +kernel

theorem test_append_reserves : ((run (.append .A) (staged (.request (dataRequest .append [0x2001, 1])) live)).fill 1).map
    (fun f => f.pending) = some 1 := by decide +kernel

theorem test_claim_answers_the_old_value :
    ((run (.claim .A) (asked .claim [32, 0, 0, 1, 9, 100] live)).ctlClaim, ((run (.claim .A) (asked .claim [32, 0, 0, 1, 9, 100] live)).port
      .A).queue.length) = ({ holder := some .A, token := 9, lease := 100, remaining := 100 }, 1) := by decide +kernel

theorem test_time_set : (run (.timeSet .A) (claimed (asked .timeSet [0x0001, 0x0002] live))).clock = 0x00010002 := by decide +kernel

theorem test_clear_marks : ((run (.clear .A) (asked .clear [1, 0] live)).extent 0).map (fun e => e.clearing) = some true := by decide +kernel

theorem test_choice_seeks : (run .arbiterChoice (working [work .A .read 1 0] live)).seq.seekTo = 1
    ∧ (run .arbiterChoice (working [work .A .read 1 0] live)).seq.state = .seeking := by decide +kernel

theorem test_pulse_counts : (run (.sectorPulse false) { live with seq := { live.seq with counter := some 11 } }).seq.counter = none
    ∧ (run (.sectorPulse true) live).seq.counter = some 0 := by decide +kernel

theorem test_fault_opens_nothing : (run .faultActive live).seq.state = .notSafe := by decide +kernel

theorem test_unload_releases : (run .unloadPressed live).volume.state = .releasing ∧ (run .unloadPressed live).seq.state = .stopping := by
  decide +kernel

/-! ## What meets the hypotheses of the statements: the machine and its laws -/

/-- An access of a run on the OPEN extent. -/
def access (owner : Owner) (kind : AccessKind) (sector runEnd : Nat) : Access :=
  Access.begin owner kind (some .log) false (some 0) 1 sector runEnd 240

/-- A sequencer with an access in a state and phase, the arm at cylinder 1. -/
def driving (a : Access) (st : SeqState) (ph : Phase) (s : State) : State :=
  { s with seq := { s.seq with state := st, phase := ph, access := some a, cylinder := some 1 } }

/-- A state at the edges of the laws: full queue with a reply due, a gate open, a full posted list and log, a defect counted 255 times, the
last sector of the cartridge on record, a claim whose lease has run out. -/
def busy : State :=
  { driving (access (.entry 0) .writeRun 23 24) .transferring .data (working [{ work .A .write 1 0 with state := .active }] live) with
    ports := { a := { Port.reset with queue := [reply 1 .done, reply 2 .done, reply 3 .done, reply 4 .done], due := [.stage],
                                      stage := .reply (reply 6 .done) }
               b := Port.reset }
    posted := [posted .A 10 1, posted .A 11 2, posted .B 12 3, posted .B 13 4]
    logs := { a := { entries := [], overflow := 255 }, b := { entries := [], overflow := 0 } }
    nextOrder := 5
    ctlClaim := { holder := some .B, token := 65535, lease := 100, remaining := 0 }
    medium := [(0, { header := .torn, data := .untouched }), (7679, { header := .whole (headerOn 7679 .void), data := .torn })]
    pending := [.clockTick] }

/-- The gate of `busy` is open. -/
def gated : State :=
  let worn : Defect := { cylinder := 319, head := 1, sector := 11, cause := .write, firstSeen := 0, count := 255 }
  { busy with seq := { busy.seq with gate := true, defects := [worn] } }

theorem test_witness_StepRunsTheFrontCommand : busy.pending = [.clockTick] ∧ live.pending = [] := by decide +kernel

theorem test_witness_laws :
    ClaimsLawful busy ∧ RepliesLawful busy ∧ GateLawful gated ∧ gated.seq.gate = true ∧ WorkLawful busy ∧ PostedLawful busy
      ∧ OrdersLawful busy ∧ DefectsLawful gated ∧ MediumLawful busy ∧ SettingsLawful busy ∧ PowerLawful busy ∧ ExtentsLawful busy
      ∧ (∃ t, step busy = .next t) ∧ ∃ t, step gated = .next t := by
  refine ⟨?_, replies_of_full (by decide +kernel) (by decide +kernel), by decide +kernel, by decide +kernel, ?_, ?_, by decide +kernel,
    by decide +kernel, by decide +kernel, ?_, by decide +kernel, ?_, ⟨_, rfl⟩, ⟨_, rfl⟩⟩
  · intro t
    cases t with
    | controller => decide +kernel
    | extent k => exact (by decide +kernel : ∀ k : Slot, claimLawful (busy.claim (.extent k)) = true) k
  · exact ⟨by decide +kernel, fun ch => by cases ch <;> decide +kernel⟩
  · exact ⟨by decide +kernel, fun ch => by cases ch <;> decide +kernel⟩
  · refine ⟨fun c => ?_, fun ch => ?_, by decide +kernel, by decide +kernel⟩
    · cases c <;> decide +kernel
    · cases ch <;> decide +kernel
  · refine ⟨fun k e h => ?_, fun j k d e hne hd he => ?_⟩
    · exact (by decide +kernel : ∀ k : Slot, ∀ e ∈ busy.extent k, extentLawful e) k e h
    · exact (by decide +kernel : ∀ j k : Slot, ∀ d ∈ busy.extent j, ∀ e ∈ busy.extent k, j ≠ k → d.defn.overlaps e.defn = false)
        j k d hd e he hne

/-! ## What meets the hypotheses of the statements: resets and the paths -/

/-- A frame of a kind under way, its length and words taken so far given. -/
def frame (kind : ReqKind) (taken : Nat) (length : Option Nat) : Frame :=
  { kind := kind, tag := 5, taken := taken, length := length, body := [], check := 0, reservation := .none, reserved := 0, buffers := [],
    filling := [] }

/-- A state that is receiving a frame on channel A. -/
def receiving (f : Frame) : State := live.updPort .A (fun p => { p with receiver := .receiving f })

theorem test_witness_PowerOnReset : hasLine 0 .ready = false ∧ hasLine 1 .ready = true ∧ hasLine 17 .fault = true := by decide +kernel

theorem test_witness_ChannelResetAndRelease :
    (live.port .A).resetActive = false ∧ RepliesLawful live ∧ OrdersLawful live ∧ live.volume.state = .mounted
      ∧ ((live.updPort .A (fun p => { p with resetActive := true })).port .A).resetActive = true := by
  and_intros <;> first | decide +kernel | exact replies_of_none_due (by decide +kernel) (by decide +kernel)

theorem test_witness_InboundHeaderLengthAndCheckWords_header :
    ((live.port .A).resetActive = false ∧ (live.port .A).receiver = .idle ∧ (live.port .A).stage = .empty
        ∧ ReqKind.ofCode ((0x6305 : Word).toNat / 256) = some .timeSet ∧ ReqKind.ofCode ((0x6405 : Word).toNat / 256) = none)
      ∧ RepliesLawful live
      ∧ ((receiving { frame .write 4 (some 259) with reservation := .wanted 1 }).port .A).receiver
          = .receiving { frame .write 4 (some 259) with reservation := .wanted 1 } :=
  ⟨by decide +kernel, replies_of_none_due (by decide +kernel) (by decide +kernel), by decide +kernel⟩

theorem test_witness_InboundHeaderLengthAndCheckWords_rest :
    ((receiving (frame .status 1 none)).port .A).receiver = .receiving (frame .status 1 none)
      ∧ (∀ n, (frame .status 1 none).reservation ≠ .wanted n) ∧ RepliesLawful (receiving (frame .status 1 none))
      ∧ (2080 : Word).toNat ≤ 2080 ∧ (2081 : Word).toNat > 2080
      ∧ (frame .status 2 (some 0)).length = some 0 ∧ 0 + 2 ≤ (frame .status 2 (some 0)).taken
      ∧ (0 : Word) = (frame .status 2 (some 0)).check ∧ (1 : Word) ≠ (frame .status 2 (some 0)).check :=
  ⟨by decide +kernel, (by intro n h; cases h), replies_of_none_due (by decide +kernel) (by decide +kernel), by decide +kernel, by decide +kernel,
    by decide +kernel, by decide +kernel, by decide +kernel, by decide +kernel⟩

theorem test_witness_InboundBodyAndDataWords :
    (frame .cancel 2 (some 1)).taken < 1 + 2 ∧ (frame .write 3 (some 259)).taken = 3 ∧ ¬ (1 ≤ (9 : Word).toNat ∧ (9 : Word).toNat ≤ 8)
      ∧ 1 ≤ (8 : Word).toNat ∧ (8 : Word).toNat ≤ (receiving (frame .write 3 (some 259))).unused .A
      ∧ 5 ≤ (frame .write 260 (some 259)).taken ∧ 4 ≤ (frame .append 4 (some 258)).taken
      ∧ ({ frame .write 260 (some 259) with filling := List.replicate 255 0 } : Frame).filling.length ≤ 255
      ∧ (frame .write 260 (some 259)).taken < 259 + 2 := by decide +kernel

theorem test_witness_ReservationAndFrameEnds :
    12 ≤ (receiving { frame .write 4 (some 259) with reservation := .wanted 12 }).unused .A
      ∧ (receiving { frame .write 4 (some 259) with reservation := .wanted 13 }).unused .A < 13
      ∧ RepliesLawful (receiving (frame .status 1 none))
      ∧ ((live.updPort .A (fun p => { p with receiver := .dropping })).port .A).receiver = .dropping :=
  ⟨by decide +kernel, by decide +kernel, replies_of_none_due (by decide +kernel) (by decide +kernel), by decide +kernel⟩

/-- A state with one reply in channel A's queue, all but the last of its words taken. -/
def leaving (taken : Nat) : State := live.updPort .A (fun p => { p with queue := [reply 5 .done], outTaken := taken })

/-- A state whose full queue gives up its oldest reply, with an ended entry's completion due. -/
def givingUp (due : Due) : State :=
  { busy with
    ports := { busy.ports with a := { busy.ports.a with outTaken := 4, due := [due] } }
    work := [{ work .A .write 9 0 with state := .finished, outcome := some .done }], posted := [] }

theorem test_witness_OutboundWordTaken :
    ((leaving 3).port .A).outTaken + 1 < (replyFrame (reply 5 .done)).length
      ∧ ((leaving 4).port .A).outTaken + 1 ≥ (replyFrame (reply 5 .done)).length
      ∧ (List.range 5).map (fun n => ((leaving n).port .A).offered) = (reply 5 .done).words.map some ∧ (live.port .A).queue = []
      ∧ RepliesLawful (leaving 4) ∧ ((leaving 4).port .A).due = []
      ∧ RepliesLawful (givingUp .stage) ∧ RepliesLawful (givingUp (.entry 0)) ∧ OrdersLawful (givingUp (.entry 0))
      ∧ ((givingUp .stage).port .A).stage = .reply (reply 6 .done) ∧ ((givingUp .stage).port .A).due = [.stage]
      ∧ { work .A .write 9 0 with state := .finished, outcome := some .done } ∈ (givingUp (.entry 0)).work := by
  and_intros <;> first | decide +kernel | exact replies_of_none_due (by decide +kernel) (by decide +kernel) | exact replies_of_full (by decide +kernel) (by decide +kernel)

theorem test_witness_OutboundWordTaken_sweep :
    ∀ c ∈ [({ tag := 77, kind := .scan, outcome := .done, late := false, sectorsDone := 0, conditions := [], body := .sweep [(0, .done)] } : Completion)],
      ((givingUp (.sweep c)).port .A).due = [.sweep c] ∧ ((givingUp (.sweep c)).port .A).queue = reply 1 .done :: [reply 2 .done, reply 3 .done, reply 4 .done]
        ∧ ((givingUp (.sweep c)).port .A).outTaken + 1 ≥ (replyFrame (reply 1 .done)).length ∧ OrdersLawful (givingUp (.sweep c))
        ∧ (givingUp (.sweep c)).volume.state = .mounted ∧ RepliesLawful (givingUp (.sweep c)) := by
  intro c hc
  rw [List.mem_singleton.mp hc]
  and_intros <;> first | decide +kernel | exact replies_of_full (by decide +kernel) (by decide +kernel)

theorem test_witness_AttentionLeaseAndWindowExpiry :
    ((live.updPort .A (fun p => { p with attnTimer := some 0 })).port .A).attnTimer = some 0
      ∧ (busy.claim .controller).lease ≠ 0 ∧ (busy.claim .controller).remaining = 0 ∧ (live.claim (.extent 31)).lease = 0 := by
  decide +kernel

/-- A state whose channel A has an event set under an attention mask, and asks for something. -/
def alerted (events mask : EventSet) (kind : ReqKind) (body : List Word) : State :=
  (asked kind body live).updPort .A (fun p => { p with events := events, attnTimer := some 0, context := { p.context with attnMask := mask } })

/-- R179: ATTENTION is active while the sets share a kind, LATE among them; it falls with an EVENT-ACK and with a mask that shares none, rises
with a mask that does, and is inactive after a reset. -/
theorem test_attention :
    [(0x40, 0x40), (0x40, 0x3F), (0, 0x7F)].map (fun c => ((alerted c.1 c.2 .status []).port .A).attention) = [true, false, false]
      ∧ [0x40, 0x01].map (fun w => ((run (.eventAck .A) (alerted 0x41 0x40 .eventAck [w])).port .A).attention) = [false, true]
      ∧ [0x40, 0x3E].map (fun w => ((run (.context .A) (alerted 0x40 0x01 .context [0, 0, 0, w, 5, 0])).port .A).attention) = [true, false]
      ∧ ((run (.attentionDelayExpiry .A) (alerted 0 0x01 .status [])).port .A).attention = true
      ∧ ((run (.channelReset .A) (alerted 0x7F 0x7F .status [])).port .A).attention = false := by decide +kernel

theorem test_witness_AttentionLeaseAndWindowExpiry_attention :
    Stands .eventAck .A (request .eventAck [0x40]) (alerted 0x41 0x40 .eventAck [0x40])
      ∧ eventAckOperands (request .eventAck [0x40]) = some 0x40
      ∧ Stands .context .A (request .context [0, 0, 0, 0x40, 0, 0]) (alerted 0x40 0x01 .context [0, 0, 0, 0x40, 0, 0])
      ∧ ((contextOperands (request .context [0, 0, 0, 0x40, 0, 0])).bind contextOf).isSome
      ∧ ((alerted 0x41 0x40 .eventAck [0x40]).port .A).attnTimer = some 0 ∧ ((alerted 0 0 .status []).port .A).resetActive = false
      ∧ RepliesLawful (alerted 0x41 0x40 .eventAck [0x40]) ∧ RepliesLawful (alerted 0x40 0x01 .context [0, 0, 0, 0x40, 0, 0]) := by
  and_intros <;> first | decide +kernel | exact replies_of_none_due (by decide +kernel) (by decide +kernel)

/-! ## What meets the hypotheses of the statements: requests -/

/-- The common hypotheses of the statements about one request of channel A. -/
theorem quiet (kind : ReqKind) (body : List Word) : RepliesLawful (asked kind body live) :=
  replies_of_none_due ⟨by show (0 : Nat) ≤ 4; omega, rfl⟩ ⟨by show (0 : Nat) ≤ 4; omega, rfl⟩

/-- The same of a request with sector data. -/
theorem quietData (kind : ReqKind) (body : List Word) : RepliesLawful (staged (.request (dataRequest kind body)) live) :=
  replies_of_none_due ⟨by show (0 : Nat) ≤ 4; omega, rfl⟩ ⟨by show (0 : Nat) ≤ 4; omega, rfl⟩

/-- The same with the controller claim held. -/
theorem quietClaimed (kind : ReqKind) (body : List Word) : RepliesLawful (claimed (asked kind body live)) :=
  replies_of_none_due ⟨by show (0 : Nat) ≤ 4; omega, rfl⟩ ⟨by show (0 : Nat) ≤ 4; omega, rfl⟩

/-- A state with 10 entries of channel A: no place for another. -/
def crowded (s : State) : State := working ((List.range 10).map (fun n => work .A .read (100 + n) n)) s

theorem test_witness_TagThenFormCheck :
    (∃ e ∈ (working [work .A .read 5 0] (asked .status [] live)).work, e.channel = .A ∧ e.tag = 5)
      ∧ live.tagInUse .A 255 = false
      ∧ (Stands .status .A (request .status [0]) (asked .status [0] live) ∧ formFails .A (request .status [0]) = true)
      ∧ (Stands .eventAck .A (request .eventAck [128]) (asked .eventAck [128] live)
          ∧ formFails .A (request .eventAck [128]) = true ∧ formFails .A (request .eventAck [127]) = false)
      ∧ RepliesLawful (asked .status [0] live) := by
  and_intros <;> first | decide +kernel | exact quiet _ _

/-- R52, R54, R57, R186: a READ's slot, count, first sector and flags at the edges of their ranges. -/
theorem test_read_form :
    ([[0x401F, 8, 7655], [0x0020, 1, 0], [0, 0, 0], [0, 9, 0], [0, 1, 7656], [0x8000, 1, 0], [0x0100, 1, 0]].map
        (fun b => (readOperands (request .read b)).map (fun o => (o.slot.val, o.count, o.first, o.flags.urgent))))
      = [some (31, 8, 7655, true), none, none, none, none, none, none] := by decide +kernel

/-- R35, R59, R187: a CLAIM's target, pairs and lease, and a list with a slot named twice. -/
theorem test_claim_and_list_forms :
    ([[31, 0, 0, 1, 9, 60000], [32, 2, 5, 0, 0, 0], [33, 0, 0, 1, 9, 0], [0, 0, 1, 1, 9, 0], [0, 0, 0, 2, 9, 0], [0, 0, 0, 1, 9, 99],
        [0, 0, 0, 0, 0, 100]].map (fun b => (claimOperands .A (request .claim b)).map (fun o => (o.expToken, o.newToken, o.lease))))
      = [some (0, 9, 60000), some (5, 0, 0), none, none, none, none, none]
      ∧ [[3, 31, 0, 31], [0], [1, 32], [2, 1]].map (fun b => sweepOperands (request .clear b)) = [some [31, 0], none, none, none] := by
  decide +kernel

/-- The volume in another state. -/
def inVolume (v : VolumeState) (s : State) : State := { s with volume := { s.volume with state := v } }

/-- Channel A's context expecting generation 2, which the volume is not. -/
def expecting (s : State) : State :=
  s.updPort .A (fun p => { p with context := { Context.default with expectedGen := 2 } })

theorem test_witness_VolumeAndGenerationChecks :
    (∀ v ∈ [VolumeState.absent, .mounting, .mounted, .draining, .storing, .releasing],
        Stands .read .A (request .read [0, 1, 0]) (inVolume v (asked .read [0, 1, 0] live))
          ∧ Stands .mapRead .A (request .mapRead []) (inVolume v (asked .mapRead [] live))
          ∧ Stands .claim .A (request .claim [31, 0, 0, 1, 1, 0]) (inVolume v (asked .claim [31, 0, 0, 1, 1, 0] live))
          ∧ Stands .mapStore .A (request .mapStore [0, 1]) (inVolume v (claimed (asked .mapStore [0, 1] live))))
      ∧ formFails .A (request .read [0, 1, 0]) = false ∧ formFails .A (request .mapRead []) = false
      ∧ formFails .A (request .mapStore [0, 1]) = false
      ∧ (claimOperands .A (request .claim [31, 0, 0, 1, 1, 0])).map (fun o => o.target) = some (.extent 31)
      ∧ ¬ Fresh .A (expecting live) ∧ (claimed live).ctlClaim.holder = some .A ∧ live.ctlClaim.holder ≠ some .A := by decide +kernel

theorem test_witness_ExtentRefusals :
    (Stands .read .A (request .read [0, 2, 239]) (asked .read [0, 2, 239] live)
        ∧ (readOperands (request .read [0, 2, 239])).isSome ∧ Mounted .A (asked .read [0, 2, 239] live)
        ∧ live.extent 0 = some openExtent ∧ 239 + 2 > (10 - 1 + 1) * 24 ∧ live.extent 2 = none)
      ∧ (Stands .write .A (dataRequest .write [31, 1, 0]) (staged (.request (dataRequest .write [31, 1, 0])) live)
          ∧ (writeOperands (dataRequest .write [31, 1, 0])).isSome ∧ live.extent 31 = some guardedExtent
          ∧ (live.claim (.extent 31)).holder ≠ some .A)
      ∧ (Stands .append .A (dataRequest .append [1, 1]) (staged (.request (dataRequest .append [1, 1])) live)
          ∧ (appendOperands (dataRequest .append [1, 1])).isSome ∧ live.extent 1 = some appendExtent
          ∧ 30 + 210 + 1 > (20 - 11 + 1) * 24)
      ∧ RepliesLawful (asked .read [0, 2, 239] live) :=
  ⟨by decide +kernel, by decide +kernel, by decide +kernel, quiet _ _⟩

theorem test_witness_DataTransactionsAdmitted_READ :
    (∀ s ∈ [asked .read [0, 1, 239] live, crowded (asked .read [0, 1, 239] live)],
        Stands .read .A (request .read [0, 1, 239]) s ∧ Mounted .A s ∧ s.extent 0 = some openExtent)
      ∧ (readOperands (request .read [0, 1, 239])).map (fun o => (o.slot, o.first, o.count)) = some (0, 239, 1)
      ∧ 239 + 1 ≤ (openExtent.defn.last - openExtent.defn.first + 1) * 24 ∧ openExtent.defn.mayRead .A = true
      ∧ PlaceFor .A (asked .read [0, 1, 239] live) ∧ ¬ PlaceFor .A (crowded (asked .read [0, 1, 239] live)) := by decide +kernel

theorem test_witness_DataTransactionsAdmitted_WRITE :
    (∀ s ∈ [staged (.request (dataRequest .write [0, 1, 239])) live, crowded (staged (.request (dataRequest .write [0, 1, 239])) live)],
        Stands .write .A (dataRequest .write [0, 1, 239]) s ∧ Mounted .A s ∧ s.ownerActive .protect = false ∧ s.seq.defects = [])
      ∧ (writeOperands (dataRequest .write [0, 1, 239])).map (fun o => (o.slot, o.first, o.count)) = some (0, 239, 1)
      ∧ (∀ o, writeOperands (dataRequest .write [0, 1, 239]) = some o → Posts openExtent.defn o live)
      ∧ (∀ o, writeOperands (dataRequest .write [0x2000, 1, 239]) = some o → ¬ Posts openExtent.defn o live)
      ∧ RepliesLawful (staged (.request (dataRequest .write [0, 1, 239])) live) := by
  refine ⟨by decide +kernel, by decide +kernel, ?_, ?_, quietData _ _⟩
  · intro o h
    exact (by decide +kernel : ∀ o ∈ writeOperands (dataRequest .write [0, 1, 239]), Posts openExtent.defn o live) o h
  · intro o h
    exact (by decide +kernel : ∀ o ∈ writeOperands (dataRequest .write [0x2000, 1, 239]), ¬ Posts openExtent.defn o live) o h

theorem test_witness_DataTransactionsAdmitted_APPEND :
    (∀ s ∈ [staged (.request (dataRequest .append [1, 1])) live, crowded (staged (.request (dataRequest .append [1, 1])) live)],
        Stands .append .A (dataRequest .append [1, 1]) s ∧ Mounted .A s ∧ s.extent 1 = some appendExtent ∧ s.ownerActive .protect = false)
      ∧ (appendOperands (dataRequest .append [1, 1])).map (fun o => (o.slot, o.count)) = some (1, 1)
      ∧ (∀ o ∈ appendOperands (dataRequest .append [1, 1]), Posts appendExtent.defn o live)
      ∧ (∀ o ∈ appendOperands (dataRequest .append [0x2001, 1]), ¬ Posts appendExtent.defn o live)
      ∧ 30 + 209 + 1 ≤ (appendExtent.defn.last - appendExtent.defn.first + 1) * 24
      ∧ RepliesLawful (staged (.request (dataRequest .append [1, 1])) live) := by
  and_intros <;> first | decide +kernel | exact quietData _ _

theorem test_witness_FlushAndMapStoreAdmitted_FLUSH :
    Stands .flush .A (request .flush []) (asked .flush [] live)
      ∧ Stands .flush .A (request .flush []) { asked .flush [] live with posted := [posted .A 9 0] }
      ∧ PlaceFor .A (asked .flush [] live) ∧ ¬ PlaceFor .A (crowded (asked .flush [] live))
      ∧ RepliesLawful (asked .flush [] live) := by
  and_intros <;> first | decide +kernel | exact quiet _ _

theorem test_witness_CancelTaken :
    (∀ w ∈ [[], [work .A .read 9 0], [{ work .A .read 9 0 with state := .active }]],
        Stands .cancel .A (request .cancel [9]) (working w (asked .cancel [9] live)) ∧ OrdersLawful (working w (asked .cancel [9] live))
          ∧ (working w (asked .cancel [9] live)).volume.state = .mounted)
      ∧ cancelOperands (request .cancel [255]) = some 255 ∧ cancelOperands (request .cancel [256]) = none
      ∧ cancelOperands (request .cancel [9]) = some 9 ∧ RepliesLawful (asked .cancel [9] live) := by
  and_intros <;> first | decide +kernel | exact quiet _ _

theorem test_witness_ClaimComparesAndReplaces :
    (∀ b ∈ [[31, 0, 0, 1, 65535, 60000], [31, 1, 1, 0, 0, 0]],
        Stands .claim .A (request .claim b) (asked .claim b live) ∧ (claimOperands .A (request .claim b)).isSome
          ∧ Fresh .A (asked .claim b live) ∧ ((asked .claim b live).extent 31).isSome)
      ∧ (claimOperands .A (request .claim [31, 0, 0, 1, 65535, 60000])).map (fun o => (o.expHolder, o.expToken)) = some (none, 0)
      ∧ (claimOperands .A (request .claim [31, 0, 0, 1, 1, 99])) = none
      ∧ (live.claim (.extent 31)).holder = none ∧ (live.claim (.extent 31)).token = 0
      ∧ RepliesLawful (asked .claim [31, 0, 0, 1, 65535, 60000] live) := by
  and_intros <;> first | decide +kernel | exact quiet _ _

theorem test_witness_ReadingRequests :
    (∀ k ∈ [ReqKind.mapRead, .defectRead, .status, .faultRead], Stands k .A (request k []) (asked k [] live) ∧ (request k []).length = 0)
      ∧ Fresh .A live ∧ RepliesLawful (asked .status [] live) := ⟨by decide +kernel, by decide +kernel, quiet _ _⟩

/-- No slot of a state is busy for a request of channel A when the check of R30 finds none. -/
theorem not_busy {s : State} {k : Slot} (h : s.slotBusy .A k = false) : ¬ SlotBusy s .A k := by
  rw [← State.slotBusy_iff, h]
  exact Bool.noConfusion

/-- Changes that name no slot twice leave no shared cylinder when the check of R12 finds none. -/
theorem not_shares {s : State} {gs : List (Slot × Option Definition)} (hn : (gs.map (fun g => g.1)).Nodup) (h : s.wouldOverlap gs = false) :
    ¬ MapShares s gs := by
  rw [← State.wouldOverlap_iff s gs hn, h]
  exact Bool.noConfusion

theorem test_witness_MapLoad :
    (Stands .mapLoad .A (request .mapLoad [2, 0, 0, 5, 1, 1, 10, 0, 15, 2, 0])
        (claimed (asked .mapLoad [2, 0, 0, 5, 1, 1, 10, 0, 15, 2, 0] live))
      ∧ (mapLoadOperands (request .mapLoad [2, 0, 0, 5, 1, 1, 10, 0, 15, 2, 0])).isSome
      ∧ (∀ cs ∈ mapLoadOperands (request .mapLoad [2, 0, 0, 5, 1, 1, 10, 0, 15, 2, 0]), ∀ gs ∈ goodChanges cs,
          (gs.map (fun g => g.1)).Nodup ∧ ¬ MapShares (claimed live) gs ∧ ∀ g ∈ gs, ¬ SlotBusy (claimed live) .A g.1)
      ∧ (∀ cs ∈ mapLoadOperands (request .mapLoad [1, 32, 0]), goodChanges cs = none)
      ∧ (∀ cs ∈ mapLoadOperands (request .mapLoad [1, 2, 1, 10, 12, 0, 15, 2, 0]), ∀ gs ∈ goodChanges cs,
          (gs.map (fun g => g.1)).Nodup ∧ MapShares live gs)
      ∧ SlotBusy (working [work .A .read 9 0] (claimed live)) .A 0)
      ∧ Mounted .A (claimed live) ∧ RepliesLawful (claimed (asked .mapLoad [2, 0, 0, 5, 1, 1, 10, 0, 15, 2, 0] live)) := by
  refine ⟨⟨by decide +kernel, by decide +kernel, fun cs hc gs hg => ?_, by decide +kernel, fun cs hc gs hg => ?_, ?_⟩,
    by decide +kernel, quietClaimed _ _⟩
  · have h := (by decide +kernel : ∀ cs ∈ mapLoadOperands (request .mapLoad [2, 0, 0, 5, 1, 1, 10, 0, 15, 2, 0]), ∀ gs ∈ goodChanges cs,
        (gs.map (fun g => g.1)).Nodup ∧ (claimed live).wouldOverlap gs = false ∧ ∀ g ∈ gs, (claimed live).slotBusy .A g.1 = false) cs hc gs hg
    exact ⟨h.1, not_shares h.1 h.2.1, fun g hm => not_busy (h.2.2 g hm)⟩
  · have h := (by decide +kernel : ∀ cs ∈ mapLoadOperands (request .mapLoad [1, 2, 1, 10, 12, 0, 15, 2, 0]), ∀ gs ∈ goodChanges cs,
        (gs.map (fun g => g.1)).Nodup ∧ live.wouldOverlap gs = true) cs hc gs hg
    exact ⟨h.1, (State.wouldOverlap_iff live gs h.1).mp h.2⟩
  · exact (State.slotBusy_iff _ _ _).mp (by decide +kernel)

theorem test_witness_FlushAndMapStoreAdmitted_MAP_STORE :
    Stands .mapStore .A (request .mapStore [1, 2]) (claimed (asked .mapStore [1, 2] live))
      ∧ mapStoreOperands (request .mapStore [1, 2]) = some 0x00010002 ∧ PlaceFor .A (claimed (asked .mapStore [1, 2] live))
      ∧ ¬ PlaceFor .A (crowded (claimed (asked .mapStore [1, 2] live)))
      ∧ ({ claimed (asked .mapStore [1, 2] live) with acted := 5 } : State).ownerActive .protect = true
      ∧ RepliesLawful (claimed (asked .mapStore [1, 2] live)) := by
  and_intros <;> first | decide +kernel | exact quietClaimed _ _

/-- A sweep of channel A over a number of extents. -/
def sweep (kind : SweepKind) (items : Nat) (window : Option Nat) : Sweep :=
  let item (n : Nat) : SweepItem := { slot := Fin.ofNat 32 (n + 10), order := 0, token := none, top := none, failed := false, result := none }
  { kind := kind, channel := .A, tag := 77, verify := false, items := (List.range items).map item, window := window, current := none,
    sector := none, halt := false, cause := none, discard := false }

theorem test_witness_ClearOpensJoinsOrIsBusy :
    (∀ sw ∈ [none, some (sweep .clear 7 (some 400)), some (sweep .clear 8 (some 1)), some (sweep .scan 1 none)],
        Stands .clear .A (request .clear [2, 0, 0]) { asked .clear [2, 0, 0] live with sweep := sw })
      ∧ sweepOperands (request .clear [2, 0, 0]) = some [0] ∧ Mounted .A (asked .clear [2, 0, 0] live)
      ∧ (asked .clear [2, 0, 0] live).extent 0 = some openExtent ∧ openExtent.defn.mayWrite .A = true
      ∧ (sweep .clear 7 (some 400)).items.length + 1 ≤ 8 ∧ (sweep .clear 8 (some 1)).items.length + 1 > 8
      ∧ ({ asked .clear [2, 0, 0] live with acted := 5 } : State).ownerActive .protect = true
      ∧ RepliesLawful (asked .clear [2, 0, 0] live) := by
  and_intros <;> first | decide +kernel | exact quiet _ _

theorem test_witness_ScanOpensSweep :
    (∀ sw ∈ [none, some (sweep .scan 1 none)],
        Stands .scan .A (request .scan [1, 31]) { asked .scan [1, 31] live with sweep := sw })
      ∧ sweepOperands (request .scan [1, 31]) = some [31] ∧ (live.extent 31).map (fun e => e.defn.mayRead .A) = some true
      ∧ Mounted .A (asked .scan [1, 31] live) ∧ RepliesLawful (asked .scan [1, 31] live) := by
  and_intros <;> first | decide +kernel | exact quiet _ _

theorem test_witness_SweepHalt :
    (∀ sw ∈ [none, some (sweep .scan 1 none), some { sweep .scan 1 none with channel := .B }],
        Stands .sweepHalt .A (request .sweepHalt []) { asked .sweepHalt [] live with sweep := sw })
      ∧ (driving (access .sweep .scanStep 0 1) .searching .none live).seq.access = some (access .sweep .scanStep 0 1)
      ∧ live.ctlClaim.holder ≠ some .A ∧ live.seq.access = none ∧ live.volume.state = .mounted
      ∧ RepliesLawful (asked .sweepHalt [] live) := by
  and_intros <;> first | decide +kernel | exact quiet _ _

theorem test_witness_ContextAndSettingsLoaded_CONTEXT_EventAckTaken :
    (∀ b ∈ [[255, 1, 0, 254, 255, 1, 127, 15, 63], [256, 0, 0, 0, 0, 0]],
        Stands .context .A (request .context b) (asked .context b live) ∧ (contextOperands (request .context b)).isSome)
      ∧ (∀ raw ∈ contextOperands (request .context [255, 1, 0, 254, 255, 1, 127, 15, 63]), (contextOf raw).isSome)
      ∧ (∀ raw ∈ contextOperands (request .context [256, 0, 0, 0, 0, 0]), contextOf raw = none)
      ∧ Stands .eventAck .A (request .eventAck [127]) (asked .eventAck [127] live)
      ∧ eventAckOperands (request .eventAck [127]) = some 127 ∧ RepliesLawful (asked .eventAck [127] live) := by
  and_intros <;> first | decide +kernel | exact quiet _ _

/-- R64, R187: how a CONTEXT's words are read, with a check span and without; a presence word other than 0 and 1 fits no form (log 11). -/
theorem test_context_words :
    [[1, 0, 2, 3, 4, 5], [1, 1, 7, 8, 9, 2, 3, 4, 5], [1, 2, 2, 3, 4, 5], [1, 1, 2, 3, 4, 5]].map (fun b => contextOperands (request .context b))
      = [some { gen := 1, span := none, verify := 2, attnMask := 3, delay := 4, lineMask := 5 },
         some { gen := 1, span := some (7, 8, 9), verify := 2, attnMask := 3, delay := 4, lineMask := 5 }, none, none] := by decide +kernel

/-- The 25 words of a settings record with the given quotas. -/
def settingsWords (qa qb : Word) : List Word :=
  [250, 0, 2, 2, 0, 800, 1, 4, 2, 1, 2000, 0, 4, 2, 1, 5000, 0, 7, 7, 1, qa, qb, 1000, 0, 0]

theorem test_witness_ContextAndSettingsLoaded_SETTINGS :
    (∀ q ∈ [(8, 16), (8, 17)], Stands .settingsLoad .A (request .settingsLoad (settingsWords q.1 q.2))
        (claimed (asked .settingsLoad (settingsWords q.1 q.2) live)))
      ∧ (∀ new ∈ settingsOf (settingsWords 8 16), (claimed live).holding .A ≤ new.quotaA ∧ (claimed live).holding .B ≤ new.quotaB
          ∧ new.quotaA < (working [{ work .A .read 9 0 with reserved := 8 }] (claimed live)).holding .A)
      ∧ settingsOf (settingsWords 8 17) = none ∧ (settingsOf (settingsWords 8 16)).isSome
      ∧ RepliesLawful (claimed (asked .settingsLoad (settingsWords 8 16) live)) :=
  ⟨fun _ _ => ⟨rfl, rfl, rfl, by show (5 : Nat) ≠ 255; omega⟩, by decide +kernel, by decide +kernel, by decide +kernel, quietClaimed _ _⟩

theorem test_witness_TimeSetTaken :
    Stands .timeSet .A (request .timeSet [0xFFFF, 0xFFFF]) (claimed (asked .timeSet [0xFFFF, 0xFFFF] live))
      ∧ timeSetOperands (request .timeSet [0xFFFF, 0xFFFF]) = some 0xFFFFFFFF ∧ (claimed live).ctlClaim.holder = some .A
      ∧ live.ctlClaim.holder ≠ some .A ∧ RepliesLawful (claimed (asked .timeSet [0xFFFF, 0xFFFF] live)) := by
  and_intros <;> first | decide +kernel | exact quietClaimed _ _

theorem test_witness_RequestRetake :
    ∀ k ∈ [ReqKind.read, .write, .append, .flush, .mapStore], ((staged (.waiting (request k []) true) live).port .A).stage
      = .waiting (request k []) true ∧ (request k []).kind = k := by decide +kernel

/-! ## What meets the hypotheses of the statements: expiries and departures -/

theorem test_witness_AttentionLeaseAndWindowExpiry_window : (sweep .clear 1 (some 0)).window = some 0 := by decide +kernel

/-- A QUEUED entry whose deadline has come to 0. -/
def lateWork (cls : WorkClass) : State := working [{ work .A .read 254 0 with deadline := some 0, cls := some cls }] live

theorem test_witness_DeadlineExpiry :
    (∀ c ∈ [WorkClass.log, .setup], (lateWork c).work.find? (fun x => decide (x.channel = .A ∧ x.tag = 254 ∧ x.state = .queued
        ∧ x.deadline = some 0 ∧ x.late = false)) = some { work .A .read 254 0 with deadline := some 0, cls := some c })
      ∧ OrdersLawful (lateWork .log) ∧ ((lateWork .log).settings.row .log).lateAction = .mark
      ∧ ((lateWork .setup).settings.row .setup).lateAction = .abandon ∧ RepliesLawful (lateWork .setup) := by
  and_intros <;> first | decide +kernel | exact replies_of_none_due (by decide +kernel) (by decide +kernel)

/-- A state whose sequencer restores, its timeout at 0. -/
def restoring (timeouts : Nat) (s : State) : State :=
  { s with seq := { s.seq with state := .restoring, restoreTimer := some 0, seekTimeouts := timeouts, accepted := true } }

/-- A state whose sequencer seeks, its timeout at 0. -/
def seeking (s : State) : State := { s with seq := { s.seq with state := .seeking, seekTimer := some 0, accepted := true } }

/-- A state whose sequencer is UNSAFE with FAULT persisting. -/
def notSafe : State := { live with levels := 17, acted := 17, seq := { live.seq with state := .notSafe, faultTimer := some 0 } }

theorem test_witness_SeekDoneAndTimeout :
    (seeking live).seq.state = .seeking ∧ (seeking live).seq.seekTimer = some 0 ∧ live.seq.state = .idle
      ∧ (seeking (driving (access (.entry 0) .readRun 0 1) .seeking .none live)).seq.access = some (access (.entry 0) .readRun 0 1)
      ∧ (access (.entry 0) .readRun 0 1).stops = [] ∧ live.volume.drainExpired = false
      ∧ (restoring 1 live).seq.seekTimeouts < 2 ∧ (restoring 0 live).seq.accepted = true
      ∧ (inVolume .mounting live).volume.state = .mounting := by decide +kernel

/-- A state with stops waiting in its access. -/
def stoppedAt (stops : List Stop) (s : State) : State := updAccess (fun a => { a with stops := stops }) s

/-- A draining volume whose drain timer has expired. -/
def expired (s : State) : State := { s with volume := { s.volume with state := .draining, drainExpired := true } }

/-- A WRITE's run that a PROTECT stop waits to end, its SEEK or RESTORE outstanding. -/
def stopping (st : SeqState) : State :=
  let s := driving { access (.entry 0) .writeRun 23 24 with stops := [.protect] } st .none (working [{ work .A .write 9 0 with state := .active }] live)
  { s with seq := { s.seq with seekTimer := some 0, accepted := true } }

theorem test_witness_SeekDoneAndTimeout_stop :
    ∀ st ∈ [SeqState.seeking, .restoring],
      (stopping st).seq.access = some { access (.entry 0) .writeRun 23 24 with stops := [.protect] }
        ∧ { work .A .write 9 0 with state := .active } ∈ (stopping st).work ∧ (access (.entry 0) .writeRun 23 24).underWay = false
        ∧ (stopping st).seq.state = st ∧ (stopping st).seq.accepted = true ∧ (stopping st).seq.seekTimer = some 0
        ∧ (stopping st).volume.state = .mounted ∧ OrdersLawful (stopping st)
        ∧ (∀ a ∈ (stopping st).seq.access, ProtectWaits a) ∧ (∀ a ∈ (stoppedAt [.power] (stopping st)).seq.access, PowerWaits a)
        ∧ (∀ a ∈ (expired (stoppedAt [] (stopping st))).seq.access, DrainWaits a (expired (stoppedAt [] (stopping st))))
        ∧ RepliesLawful (stopping st) := by
  intro st h
  simp only [List.mem_cons, List.not_mem_nil, or_false] at h
  rcases h with h | h <;> subst h <;>
    and_intros <;> first | decide +kernel | exact replies_of_none_due (by decide +kernel) (by decide +kernel)

theorem test_witness_Departures :
    live.volume.state ≠ .absent ∧ OrdersLawful (working [work .A .read 9 0] live) ∧ live.ownerActive .ready = true
      ∧ live.ownerActive .door = false ∧ (restoring 1 live).seq.restoreTimer = some 0 ∧ (restoring 1 live).seq.seekTimeouts < 2
      ∧ notSafe.seq.state = .notSafe ∧ notSafe.seq.faultTimer = some 0 ∧ OrdersLawful notSafe
      ∧ RepliesLawful (working [work .A .read 9 0] live) ∧ RepliesLawful (restoring 1 live) ∧ RepliesLawful notSafe := by
  and_intros <;> first | decide +kernel | exact replies_of_none_due (by decide +kernel) (by decide +kernel)

/-- A draining volume whose drain timer has come to 0. -/
def drained (s : State) : State := { s with volume := { s.volume with state := .draining, drainTimer := some 0 } }

theorem test_witness_DrainTimerExpiry :
    (drained live).volume.state = .draining ∧ (drained live).volume.drainTimer = some 0 ∧ OrdersLawful (drained live)
      ∧ (drained live).seq.access = none
      ∧ ({ access (.entry 0) .writeRun 23 24 with underWay := true } : Access).underWay = true
      ∧ (drained (driving { access (.entry 0) .writeRun 23 24 with underWay := true } .transferring .data
          (working [{ work .A .write 9 0 with state := .active }] live))).hasVolumeWork = true
      ∧ AccessLawful (drained live)
      ∧ AccessLawful (drained (driving { access (.entry 0) .writeRun 23 24 with underWay := true } .transferring .data
          (working [{ work .A .write 9 0 with state := .active }] live)))
      ∧ RepliesLawful (drained live) := by
  and_intros <;> first | decide +kernel | exact replies_of_none_due (by decide +kernel) (by decide +kernel)

/-! ## What meets the hypotheses of the statements: the arbiter and the drive -/

/-- A state with one QUEUED entry of a kind, and the arbiter's choice in it. -/
def offered (kind : WorkKind) (token : Option Nat) : State := working [{ work .A kind 9 0 with token := token }] live

theorem test_witness_ArbiterChoosesAndWriteHoldHolds_choice :
    (offered .read none).candidates = [{ owner := .entry 0, cls := .log, cylinder := 1, order := 0 }] := by decide +kernel

theorem test_witness_ArbiterChoosesAndWriteHoldHolds_hold :
    ({ offered .read none with powerPeriod := some .sectorEnd } : State).powerPeriod.isSome
      ∧ ({ offered .read none with powerPeriod := some .sectorEnd } : State).entryEligible (work .A .read 9 0) = true := by
  decide +kernel

theorem test_witness_ArbiterChoice :
    (∀ s ∈ [offered .read none, offered .write none, offered .write (some 3)],
        s.seq.access = none ∧ s.seq.state = .idle
          ∧ choose s.direction (s.seq.cylinder.getD 0) s.candidates
            = (some { owner := .entry 0, cls := .log, cylinder := 1, order := 0 }, .inward)
          ∧ s.ownerActive .protect = false ∧ s.volume.state = .mounted ∧ OrdersLawful s)
      ∧ work .A .read 9 0 ∈ (offered .read none).work ∧ (live.claim (.extent 0)).token ≠ 3
      ∧ live.candidates = [] ∧ live.sweep = none ∧ RepliesLawful (offered .read none)
      ∧ (seeking live).seq.state ≠ .idle := by
  and_intros <;> first | decide +kernel | exact replies_of_none_due (by decide +kernel) (by decide +kernel)

/-- A state searching for a sector with the counter where it stands. -/
def searching (counter target : Option Nat) (unsync : Nat) : State :=
  let s := driving { access (.entry 0) .readRun 23 24 with unsync := unsync } .searching .none live
  { s with seq := { s.seq with counter := counter, target := target } }

theorem test_witness_SectorPulse :
    live.seq.state ≠ .searching
      ∧ ((searching (some 10) (some 11) 0).seq.counter = some 10 ∧ (searching (some 10) (some 11) 0).seq.target = some 11)
      ∧ ((searching (some 11) (some 0) 0).seq.counter = some 11 ∧ (searching none (some 0) 10).seq.counter = none)
      ∧ (searching none (some 0) 10).seq.access = some { access (.entry 0) .readRun 23 24 with unsync := 10 } := by decide +kernel

/-- The header of the access's sector, in a state. -/
def header (st : HeaderState) : HeaderImage := { cylinder := 1, head := 1, sector := 11, state := st, check := headerCheck 1 1 11 st }

/-- A state with a passage of a run in a phase: the entry is ACTIVE on sectors 22 and 23. -/
def passing (kind : AccessKind) (wk : WorkKind) (m runEnd : Nat) (ph : Phase) (pass : Pass) : State :=
  driving { access (.entry 0) kind m runEnd with pass := pass, underWay := true } .transferring ph
    (working [{ work .A wk 9 0 with state := .active, first := 23, count := runEnd - 23 }] live)

/-- A good data field. -/
def field (v : Vector Word 256) : FieldImage := { data := v, check := crc v.toList, contents := none }

theorem test_witness_HeaderReadComplete :
    (∀ k ∈ [(AccessKind.readRun, WorkKind.read), (.writeRun, .write)],
        (passing k.1 k.2 23 25 .headerCheck .work).seq.access = some { access (.entry 0) k.1 23 25 with underWay := true }
          ∧ AddressRight (access (.entry 0) k.1 23 25) (header .written)
          ∧ AddressWrong (access (.entry 0) k.1 22 25) (header .written)
          ∧ (access (.entry 0) k.1 23 25).failed < 2)
      ∧ ({ header .written with check := 0 } : HeaderImage).check ≠ headerCheck 1 1 11 .written
      ∧ AddressRight (access (.entry 0) .readRun 23 25) (header .blank) ∧ (23 : Nat) + 1 < 25
      ∧ live.readRetries (access (.entry 0) .readRun 23 25) = 4 ∧ live.lineActive .fault = false ∧ live.ownerActive .fault = false
      ∧ live.powerPeriod ≠ some .immediate ∧ OrdersLawful (passing .readRun .read 23 25 .headerCheck .work)
      ∧ RepliesLawful (passing .readRun .read 23 25 .headerCheck .work) := by
  and_intros <;> first | decide +kernel | exact replies_of_none_due (by decide +kernel) (by decide +kernel)

theorem test_witness_HeaderPhaseComplete :
    (passing .writeRun .write 23 24 .header .work).seq.phase = .header
      ∧ (passing .writeRun .write 23 24 .header .work).seq.state = .transferring
      ∧ placeOf { access (.entry 0) .writeRun 7655 7656 with base := 1 } = 7679 := by decide +kernel

theorem test_witness_DataPhaseComplete :
    (∀ r ∈ [24, 25],
        (passing .writeRun .write 23 r .data .work).seq.access = some { access (.entry 0) .writeRun 23 r with underWay := true }
          ∧ { work .A .write 9 0 with state := .active, first := 23, count := r - 23 } ∈ (passing .writeRun .write 23 r .data .work).work
          ∧ OrdersLawful (passing .writeRun .write 23 r .data .work))
      ∧ (work .A .write 9 0).writeBuffers = List.replicate 256 1 :: [] ∧ (access (.entry 0) .writeRun 23 24).verify = false
      ∧ ({ access (.entry 0) .writeRun 23 24 with verify := true } : Access).verify = true
      ∧ placeOf (access (.entry 0) .writeRun 23 24) < 7680 ∧ (0 : Nat) + 0 + 1 = 24 - 23
      ∧ RepliesLawful (passing .writeRun .write 23 24 .data .work) := by
  and_intros <;> first | decide +kernel | exact replies_of_none_due (by decide +kernel) (by decide +kernel)

/-- A check word with one bit turned is not the check word. -/
theorem flipped (w : Word) : w ^^^ 1 ≠ w := by
  intro h
  have h1 := congrArg (fun v : Word => v.getLsbD 0) h
  simp at h1

theorem field_check (v : Vector Word 256) : (field v).check = crc (field v).data.toList := rfl

theorem field_flipped (v : Vector Word 256) : (field v).check ^^^ 1 ≠ crc (field v).data.toList := flipped _

theorem test_witness_DataReadComplete :
    (∀ r ∈ [24, 25],
        (passing .readRun .read 23 r .dataRead .work).seq.access = some { access (.entry 0) .readRun 23 r with underWay := true }
          ∧ { work .A .read 9 0 with state := .active, first := 23, count := r - 23 } ∈ (passing .readRun .read 23 r .dataRead .work).work
          ∧ OrdersLawful (passing .readRun .read 23 r .dataRead .work))
      ∧ (field zeroSector).check = crc (field zeroSector).data.toList
      ∧ (field zeroSector).check ^^^ 1 ≠ crc (field zeroSector).data.toList
      ∧ RepliesLawful (passing .readRun .read 23 24 .dataRead .work) :=
  ⟨by decide +kernel, field_check _, field_flipped _, replies_of_none_due (by decide +kernel) (by decide +kernel)⟩

theorem test_witness_ReadBackComplete :
    (passing .writeRun .write 23 25 .readBack .readBack).seq.access
        = some { access (.entry 0) .writeRun 23 25 with pass := .readBack, underWay := true }
      ∧ AddressRight (access (.entry 0) .writeRun 23 25) (header .written)
      ∧ (field (Vector.replicate 256 1)).check = crc (field (Vector.replicate 256 1)).data.toList ∧ (field (Vector.replicate 256 1)).data.toList = List.replicate 256 1
      ∧ (field zeroSector).data.toList ≠ List.replicate 256 1 ∧ (work .A .write 9 0).writeBuffers = [List.replicate 256 1]
      ∧ (access (.entry 0) .writeRun 23 25).failed < live.writeRetries (access (.entry 0) .writeRun 23 25)
      ∧ OrdersLawful (passing .writeRun .write 23 25 .readBack .readBack)
      ∧ RepliesLawful (passing .writeRun .write 23 25 .readBack .readBack) := by
  and_intros <;> first | decide +kernel | exact field_check _ | exact replies_of_none_due (by decide +kernel) (by decide +kernel)

theorem test_witness_StoreBegin :
    (inVolume .storing live).volume.state = .storing ∧ (inVolume .storing live).seq.access = none
      ∧ (inVolume .storing live).seq.state = .idle ∧ (inVolume .storing live).powerPeriod = none
      ∧ (inVolume .storing live).volume.serial = some 7 ∧ (inVolume .storing live).ownerActive .protect = false
      ∧ ({ inVolume .storing live with acted := 5 } : State).ownerActive .protect = true ∧ RepliesLawful (inVolume .storing live) := by
  and_intros <;> first | decide +kernel | exact replies_of_none_due (by decide +kernel) (by decide +kernel)

/-! ## What meets the hypotheses of the statements: the reported lines -/

/-- The state with every reported line ACTIVE. -/
def allActive : State := { live with levels := 63, acted := 63 }

/-- The state with every reported line INACTIVE. -/
def noneActive : State := { live with levels := 0, acted := 0 }

theorem test_witness_LinesByTaker :
    live.takers = [] ∧ ∀ l ∈ [Line.ready, .door, .protect, .unload, .fault, .power], allActive.lineActive l = true ∧ allActive.ownerActive l = true ∧ noneActive.lineActive l = false
      ∧ noneActive.ownerActive l = false := by
  decide +kernel

theorem test_witness_ReadyActiveAndUnloadPressed_READY :
    noneActive.ownerActive .ready = false ∧ noneActive.volume.state ≠ .absent ∧ State.reset.ownerActive .ready = false
      ∧ State.reset.volume.state = .absent ∧ State.reset.seq.state = .noCartridge ∧ State.reset.seq.access = none := by decide +kernel

theorem test_witness_ReadyActiveAndUnloadPressed_UNLOAD :
    live.ownerActive .unload = false ∧ live.volume.state = .mounted ∧ live.sweep = none ∧ live.posted = []
      ∧ (∃ e ∈ (offered .read none).work, e.live = true) ∧ (∀ e ∈ live.work, e.live = false) ∧ live.seq.state = .idle
      ∧ (restoring 0 (inVolume .mounting live)).seq.state ≠ .idle ∧ (inVolume .storing live).volume.state ≠ .mounted
      ∧ RepliesLawful live := by
  and_intros <;> first | decide +kernel | exact replies_of_none_due (by decide +kernel) (by decide +kernel)

/-- A WRITE's run between its sectors: nothing under way and no command outstanding. -/
def between : State :=
  driving (access (.entry 0) .writeRun 23 24) .searching .none (working [{ work .A .write 9 0 with state := .active }] live)

theorem test_witness_ProtectActive :
    live.ownerActive .protect = false ∧ live.seq.access = none ∧ OrdersLawful between ∧ between.volume.state = .mounted ∧ between.sweep = none
      ∧ (between.seq.access = some (access (.entry 0) .writeRun 23 24) ∧ (access (.entry 0) .writeRun 23 24).underWay = false
          ∧ between.seq.state ≠ .seeking ∧ { work .A .write 9 0 with state := .active } ∈ between.work)
      ∧ (passing .writeRun .write 23 24 .data .work).seq.access = some { access (.entry 0) .writeRun 23 24 with underWay := true }
      ∧ RepliesLawful between := by
  and_intros <;> first | decide +kernel | exact replies_of_none_due (by decide +kernel) (by decide +kernel)

/-- A commit run between its sectors. -/
def committing : State :=
  driving (access (.posted 0) .writeRun 0 1) .searching .none { live with posted := [{ posted .A 9 0 with committing := true }], nextOrder := 1 }

theorem test_witness_FaultLine :
    live.ownerActive .fault = false ∧ live.seq.access = none ∧ notSafe.ownerActive .fault = true ∧ State.reset.seq.state = .noCartridge
      ∧ (passing .writeRun .write 23 24 .data .work).seq.phase = .data
      ∧ (passing .readRun .read 23 24 .dataRead .work).seq.phase = .dataRead
      ∧ (committing.seq.access = some (access (.posted 0) .writeRun 0 1) ∧ { posted .A 9 0 with committing := true } ∈ committing.posted)
      ∧ OrdersLawful committing ∧ OrdersLawful (passing .writeRun .write 23 24 .data .work) ∧ RepliesLawful committing
      ∧ notSafe.seq.state = .notSafe ∧ allActive.seq.state ≠ .notSafe := by
  and_intros <;> first | decide +kernel | exact replies_of_none_due (by decide +kernel) (by decide +kernel)

theorem test_witness_PowerLine :
    live.lineActive .power = false ∧ live.seq.gate = false ∧ live.settings.powerMode = .sectorEnd
      ∧ ({ live with settings := { live.settings with powerMode := .immediate } } : State).settings.powerMode = .immediate
      ∧ (passing .writeRun .write 23 24 .data .work).seq.state = .transferring
      ∧ OrdersLawful (passing .writeRun .write 23 24 .data .work) ∧ allActive.lineActive .power = true
      ∧ RepliesLawful (passing .writeRun .write 23 24 .data .work) := by
  and_intros <;> first | decide +kernel | exact replies_of_none_due (by decide +kernel) (by decide +kernel)

/-! ## What meets the hypotheses of the statements: appending, sweeping, mounting -/

/-- A sector of ones. -/
def ones : List Word := List.replicate 256 1

/-- A sector of zeros. -/
def noughts : List Word := List.replicate 256 0

/-- An ACTIVE APPEND of two sectors on the APPEND extent, with a number of them still to append. -/
def appendWork (left : Nat) : Entry :=
  { work .A .append 9 0 with
    slot := some 1, base := 11, size := 240, first := 0, count := 2, state := .active, writeBuffers := List.replicate left ones }

/-- The run of that APPEND at relative sector 30, in a pass. -/
def appendAccess (pass : Pass) (left failed : Nat) : Access :=
  { Access.begin (.entry 0) .appendRun (some .log) false (some 1) 11 30 48 240 with
    pass := pass, done := 2 - left, failed := failed, underWay := true }

/-- The fill mark of the APPEND extent. -/
def marked (mark : Nat) (s : State) : State := updFill 1 (fun f => { f with mark := mark, pending := 2 }) s

/-- That run TRANSFERRING in a phase, the fill mark where it stands. -/
def appending (mark left : Nat) (ph : Phase) (a : Access) : State :=
  driving a .transferring ph (marked mark (working [appendWork left] live))

theorem test_witness_AppendSectorAndMarking :
    (∀ c ∈ [(31, 2, Phase.data, Pass.work), (240, 2, .data, .work), (31, 1, .data, .work), (31, 1, .readBack, .readBack),
        (30, 2, .headerCheck, .work), (30, 2, .data, .marking), (30, 2, .headerCheck, .markCheck)],
        let s := appending c.1 c.2.1 c.2.2.1 (appendAccess c.2.2.2 c.2.1 2)
        s.seq.state = .transferring ∧ s.seq.phase = c.2.2.1 ∧ s.seq.access = some (appendAccess c.2.2.2 c.2.1 2)
          ∧ appendWork c.2.1 ∈ s.work ∧ (s.extent 1).map (fun x => x.fill.map (fun f => f.mark)) = some (some c.1)
          ∧ OrdersLawful s ∧ s.volume.state = .mounted ∧ s.posted = [] ∧ s.writeRetries (appendAccess c.2.2.2 c.2.1 2) ≤ 2)
      ∧ (appendWork 2).writeBuffers = ones :: [ones] ∧ (appendWork 1).writeBuffers = ones :: []
      ∧ placeOf (appendAccess .work 2 2) < 7680 ∧ (appendAccess .work 1 2).done + 0 + 1 = (appendWork 1).count
      ∧ (31 : Nat) < 48 ∧ RepliesLawful (appending 31 2 .data (appendAccess .work 2 2)) := by
  and_intros <;> first | decide +kernel | exact replies_of_none_due (by decide +kernel) (by decide +kernel)

/-- The header of relative sector 30 of the APPEND extent, in a state. -/
def appendHeader (st : HeaderState) : HeaderImage :=
  { cylinder := 12, head := 0, sector := 6, state := st, check := headerCheck 12 0 6 st }

theorem test_witness_AppendSectorAndMarking_headers :
    AddressRight (appendAccess .markCheck 2 2) (appendHeader .void) ∧ AddressWrong { appendAccess .work 2 2 with sector := 31 } (appendHeader .void)
      ∧ ({ appendAccess .work 2 3 with restored := true, further := true } : Access).further = true
      ∧ live.writeRetries (appendAccess .work 2 3) ≤ 3 := by decide +kernel

theorem test_witness_AppendCuts :
    (∀ c ∈ [(30, 2, Phase.header), (31, 2, .data), (31, 1, .data)],
        let s := appending c.1 c.2.1 c.2.2 (appendAccess .work c.2.1 0)
        s.seq.access = some (appendAccess .work c.2.1 0) ∧ appendWork c.2.1 ∈ s.work ∧ OrdersLawful s ∧ s.ownerActive .fault = false
          ∧ s.ownerActive .power = false)
      ∧ (appendWork 2).writeBuffers.tail ≠ [] ∧ (appendWork 1).writeBuffers.tail = [] ∧ (appendWork 1).writeBuffers ≠ []
      ∧ (appendWork 1).done + ((appendAccess .work 1 0).done + 1) = (appendWork 1).count
      ∧ RepliesLawful (appending 31 2 .data (appendAccess .work 2 0)) := by
  and_intros <;> first | decide +kernel | exact replies_of_none_due (by decide +kernel) (by decide +kernel)

/-- A period of POWER activity that the line monitor has begun and the sequencer has still to take. -/
def dipped (mode : ShutdownMode) (s : State) : State :=
  { s with levels := s.levels ||| lineBit .power, powerPeriod := some mode, powerOwed := [mode] }

theorem test_witness_PowerLine_owner :
    (∀ m ∈ [ShutdownMode.sectorEnd, .immediate],
      (dipped m live).lineActive .power = true ∧ (dipped m live).ownerActive .power = false ∧ (dipped m live).powerOwed = m :: [])
      ∧ (run .powerInactive (takenBy .monitor (dipped .sectorEnd live))).powerOwed = .sectorEnd :: []
      ∧ (run .powerInactive (takenBy .monitor (dipped .sectorEnd live))).powerPeriod = none
      ∧ (live.powerOwed = [] ∧ live.settings.powerMode = .sectorEnd ∧ live.powerEarly = 0)
      ∧ (run .powerActive (takenBy .owner live)).powerEarly ≠ 0 := by decide +kernel

/-- The choice falling on one piece of work. -/
def chosen (s : State) : Option Candidate × Direction := choose s.direction (s.seq.cylinder.getD 0) s.candidates

/-- A MAP-STORE entry. -/
def storeWork : Entry := { work .A .mapStore 9 0 with slot := none, base := 0, size := 0, first := 0, count := 0, serial := 5 }

/-- A posted APPEND of one sector on the APPEND extent. -/
def postedAppend : Posted := { posted .A 9 0 with kind := .append, slot := 1, base := 11, first := none }

/-- A state with one posted write. -/
def holding (p : Posted) (s : State) : State := { s with posted := [p], nextOrder := 1 }

theorem test_witness_ArbiterGrantsOtherWrites :
    (∀ s ∈ [marked 30 (working [{ appendWork 2 with state := .queued }] live), marked 240 (working [{ appendWork 2 with state := .queued }] live),
            working [storeWork] live],
        s.seq.access = none ∧ s.seq.state = .idle ∧ (chosen s).1.map (fun c => c.owner) = some (.entry 0) ∧ OrdersLawful s
          ∧ s.ownerActive .protect = false)
      ∧ (∀ s ∈ [holding (posted .A 9 0) live, holding { posted .A 9 0 with token := some 3 } live, marked 30 (holding postedAppend live),
                marked 240 (holding postedAppend live), { holding (posted .A 9 0) live with acted := 5 }],
          s.seq.access = none ∧ s.seq.state = .idle ∧ (chosen s).1.map (fun c => c.owner) = some (.posted 0) ∧ OrdersLawful s
            ∧ ∀ e ∈ s.work, e.state ≠ .watching)
      ∧ (live.claim (.extent 0)).token ≠ 3 ∧ live.volume.label = some .valid ∧ live.volume.serial = some 7
      ∧ ({ working [work .A .write 9 0] live with acted := 5 } : State).ownerActive .protect = true
      ∧ RepliesLawful (holding (posted .A 9 0) live) := by
  and_intros <;> first | decide +kernel | exact replies_of_none_due (by decide +kernel) (by decide +kernel)

/-- A running sweep of channel A over slots, its item `i` current. -/
def running (kind : SweepKind) (slots : List Slot) (i : Nat) (top sector : Option Nat) : Sweep :=
  { kind := kind, channel := .A, tag := 77, verify := false
    items := slots.map (fun k => { slot := k, order := 0, token := none, top := top, failed := false, result := none })
    window := none, current := some i, sector := sector, halt := false, cause := none, discard := false }

/-- A state with a sweep. -/
def sweeping (sw : Sweep) (s : State) : State := { s with sweep := some sw, nextOrder := 1 }

theorem test_witness_SweepOffered :
    (∀ sw ∈ [running .scan [0] 0 none none, running .scan [0] 0 (some 239) (some 12), running .clear [0, 1] 0 none none,
             running .clear [0] 0 (some 239) (some 12)],
        (sweeping sw live).candidates = [] ∧ sw.current = some 0 ∧ (sw.items[0]?).map (fun it => it.slot) = some 0)
      ∧ (marked 0 (sweeping (running .clear [1] 0 none none) live)).fillMark 1 = 0
      ∧ live.extent 0 = some openExtent ∧ live.powerPeriod = none
      ∧ (∃ e ∈ [{ work .B .write 3 0 with state := .parked }], e.live = true ∧ e.slot = some 0 ∧ e.order < 1)
      ∧ (live.claim (.extent 0)).token ≠ 3 ∧ RepliesLawful (sweeping (running .scan [0] 0 none none) live) := by
  and_intros <;> first | decide +kernel | exact replies_of_none_due (by decide +kernel) (by decide +kernel)

/-- A sweep's step on a sector of the OPEN extent, or of the APPEND extent. -/
def stepping (kind : AccessKind) (k : Slot) (base m failed : Nat) : Access :=
  { Access.begin .sweep kind (some .bulk) false (some k) base m (m + 1) 240 with failed := failed, underWay := true, restored := true, further := true }

/-- A step in a phase, of a sweep whose only item, or first of two, is its extent. -/
def midStep (a : Access) (ph : Phase) (sw : Sweep) : State := driving a .transferring ph (marked 31 (sweeping sw live))

theorem test_witness_SweepStepEnds :
    (∀ k ∈ [((0 : Slot), 1), (1, 11)], ∀ m ∈ [0, 30], ∀ sw ∈ [running .clear [k.1] 0 (some 239) (some m), running .clear [k.1, 31] 0 none none],
        ∀ c ∈ [none, some StopCause.halt, some .protect],
        let s := midStep (stepping .clearStep k.1 k.2 m 4) .data { sw with cause := c }
        s.seq.access = some (stepping .clearStep k.1 k.2 m 4) ∧ s.seq.phase = .data ∧ (s.extent k.1).isSome ∧ OrdersLawful s
          ∧ (sw.items[0]?).map (fun it => it.slot) = some k.1 ∧ s.writeRetries (stepping .clearStep k.1 k.2 m 4) ≤ 4
          ∧ s.readRetries (stepping .scanStep k.1 k.2 m 4) ≤ 4)
      ∧ placeOf (stepping .clearStep 0 1 0 4) < 7680 ∧ (stepping .scanStep 0 1 239 0).sector + 1 = (stepping .scanStep 0 1 239 0).size
      ∧ (∀ ph ∈ [Phase.headerCheck, .dataRead], (midStep (stepping .scanStep 0 1 239 4) ph (running .scan [0] 0 none none)).seq.phase = ph)
      ∧ AddressWrong (stepping .clearStep 0 1 0 4) (header .written)
      ∧ (∀ m ∈ [29, 30], (midStep (stepping .clearStep 1 11 m 0) .header (running .clear [1] 0 none none)).seq.phase = .header)
      ∧ ((midStep (stepping .clearStep 1 11 30 0) .header (running .clear [1] 0 none none)).fill 1).map (fun f => (f.state, f.mark))
          = some (.known, 31)
      ∧ RepliesLawful (midStep (stepping .clearStep 0 1 0 4) .data (running .clear [0] 0 none none)) := by
  and_intros <;> first | decide +kernel | exact replies_of_none_due (by decide +kernel) (by decide +kernel)

/-- A clearing step on a sector of the APPEND extent, its fill mark at 31, that has not come to its HEADER phase. -/
def coming (m : Nat) (st : SeqState) (stops : List Stop) : State :=
  let s := driving { stepping .clearStep 1 11 m 0 with underWay := false, stops := stops } st .none
    (marked 31 (sweeping (running .clear [1] 0 (some 30) (some m)) { live with settings := { live.settings with powerMode := .immediate } }))
  { s with seq := { s.seq with accepted := true } }

theorem test_witness_SweepStepEnds_cut :
    (∀ m ∈ [29, 30], ∀ st ∈ [SeqState.restoring, .seeking, .searching, .transferring], ∀ stops ∈ [[], [Stop.cut]],
        let s := coming m st stops
        s.ownerActive .fault = false ∧ s.ownerActive .power = false ∧ s.powerOwed = [] ∧ s.settings.powerMode = .immediate
          ∧ s.seq.accepted = true ∧ s.sweep.map (fun sw => sw.cause) = some none ∧ OrdersLawful s ∧ s.volume.state = .mounted
          ∧ s.work = [] ∧ s.posted = [] ∧ (s.fill 1).map (fun f => (f.state, f.mark)) = some (.known, 31)
          ∧ ∀ a ∈ s.seq.access, a.owner = .sweep ∧ a.slot = some 1 ∧ a.stops = stops ∧ a.sector = m)
      ∧ RepliesLawful (coming 30 .searching []) := by
  and_intros <;> first | decide +kernel | exact replies_of_none_due (by decide +kernel) (by decide +kernel)

/-- R23: a clearing step on the sector at fill mark - 1 cut before its HEADER phase completes leaves the fill state UNKNOWN, by FAULT, by POWER in
IMMEDIATE mode, or as its SEEK ends under a cut that waits; one on another sector, or cut in its DATA phase, leaves it KNOWN. -/
theorem test_clearing_step_cut :
    let state (s : State) : Option (FillState × Nat) := (s.fill 1).map (fun f => (f.state, f.mark))
    [29, 30].map (fun m => state (run .faultActive (takenBy .owner (coming m .seeking [])))) = [some (.known, 31), some (.unknown, 31)]
      ∧ [29, 30].map (fun m => state (run .powerActive (takenBy .owner (coming m .searching [])))) = [some (.known, 31), some (.unknown, 31)]
      ∧ [29, 30].map (fun m => state (run .seekDone (coming m .seeking [.cut]))) = [some (.known, 31), some (.unknown, 31)]
      ∧ state (run .faultActive (midStep (stepping .clearStep 1 11 31 0) .data (running .clear [1] 0 none none))) = some (.known, 31) := by
  decide +kernel

/-- A verified clearing step at its read-back. -/
def verifying (m failed : Nat) : Access := { stepping .clearStep 1 11 m failed with pass := .readBack, verify := true }

theorem test_witness_SweepStepEnds_more :
    (∀ c ∈ [none, some StopCause.halt, some .protect], ∀ f ∈ [0, 4],
        let s := midStep (verifying 30 f) .readBack { running .clear [1] 0 none none with cause := c }
        s.seq.access = some (verifying 30 f) ∧ s.seq.phase = .readBack ∧ s.seq.state = .transferring ∧ OrdersLawful s
          ∧ s.writeRetries (verifying 30 f) ≤ 4)
      ∧ AddressRight (verifying 30 0) { cylinder := 12, head := 0, sector := 6, state := .blank, check := headerCheck 12 0 6 .blank }
      ∧ (∀ c ∈ [none, some StopCause.halt], ∀ m ∈ [0, 239], ∀ ph ∈ [Phase.headerCheck, .dataRead],
          let s := midStep (stepping .scanStep 0 1 m 4) ph { running .scan [0, 1] 0 none none with cause := c }
          s.seq.access = some (stepping .scanStep 0 1 m 4) ∧ s.seq.phase = ph ∧ s.readRetries (stepping .scanStep 0 1 m 4) ≤ 4)
      ∧ (∀ st ∈ [HeaderState.blank, .void],
          AddressRight (stepping .scanStep 0 1 0 4) { cylinder := 1, head := 0, sector := 0, state := st, check := headerCheck 1 0 0 st })
      ∧ AddressWrong (stepping .scanStep 0 1 0 4) (header .written)
      ∧ RepliesLawful (midStep (verifying 30 0) .readBack (running .clear [1] 0 none none)) := by
  and_intros <;> first | decide +kernel | exact replies_of_none_due (by decide +kernel) (by decide +kernel)

/-- R169, R170, R171: a verified clearing step is done once its read-back finds a BLANK header; a halted scanning step over a VOID sector ends
its sweep. -/
theorem test_verified_and_halted_steps :
    (run (.readBackComplete { cylinder := 12, head := 0, sector := 6, state := .blank, check := headerCheck 12 0 6 .blank } (field zeroSector))
        (midStep (verifying 30 0) .readBack (running .clear [1] 0 none none))).sweep.map (fun sw => sw.sector) = some (some 29)
      ∧ (run (.headerReadComplete { cylinder := 1, head := 0, sector := 0, state := .void, check := headerCheck 1 0 0 .void })
          (midStep (stepping .scanStep 0 1 0 0) .headerCheck
            { running .scan [0] 0 none none with halt := true, cause := some .halt })).sweep = none := by decide +kernel

theorem test_witness_ProtectActive_CLEAR :
    (sweeping (running .clear [0] 0 none none) live).seq.access = none
      ∧ (midStep (stepping .clearStep 0 1 0 0) .data (running .clear [0] 0 none none)).seq.access = some (stepping .clearStep 0 1 0 0)
      ∧ (stepping .clearStep 0 1 0 0).stops = [] ∧ (stepping .clearStep 0 1 0 0).underWay = true
      ∧ live.ownerActive .protect = false := by decide +kernel

theorem test_witness_ReadyActiveAndUnloadPressed_sweep :
    (∀ s ∈ [sweeping (running .clear [0, 31] 0 none none) live, sweeping (running .scan [0] 0 none none) (offered .read none),
            midStep (stepping .clearStep 0 1 0 0) .data (running .clear [0] 0 none none)],
        s.ownerActive .unload = false ∧ s.volume.state = .mounted ∧ s.sweep.isSome)
      ∧ (sweeping (running .clear [0, 31] 0 none none) live).seq.access = none ∧ (sweeping (running .clear [0, 31] 0 none none) live).posted = []
      ∧ (∃ e ∈ (sweeping (running .scan [0] 0 none none) (offered .read none)).work, e.live = true)
      ∧ (stepping .clearStep 0 1 0 0).owner = .sweep
      ∧ RepliesLawful (sweeping (running .clear [0, 31] 0 none none) live) := by
  and_intros <;> first | decide +kernel | exact replies_of_none_due (by decide +kernel) (by decide +kernel)

theorem test_witness_SecondSeekTimeout :
    (∀ a ∈ [access (.entry 0) .writeRun 23 24, access .sweep .scanStep 23 24],
        (restoring 2 (driving a .restoring .none live)).seq.access = some a ∧ (restoring 2 (driving a .restoring .none live)).seq.accepted = true
          ∧ (restoring 2 (driving a .restoring .none live)).seq.seekTimeouts = 2 ∧ a.stops = [] ∧ a.kind ≠ .labelRead)
      ∧ OrdersLawful (restoring 2 (driving (access (.entry 0) .writeRun 23 24) .restoring .none
          (working [{ work .A .write 9 0 with state := .active }] live)))
      ∧ RepliesLawful (restoring 2 live) :=
  ⟨by decide +kernel, by decide +kernel, replies_of_none_due (by decide +kernel) (by decide +kernel)⟩

/-- A verified clearing step on sector 30 of the APPEND extent, its HEADER phase complete, lost to a second seek timeout. -/
def stepLost (stops : List Stop) (cause : Option StopCause) : State :=
  restoring 2 (driving { stepping .clearStep 1 11 30 0 with stops := stops } .restoring .none
    (marked 30 (sweeping { running .clear [1, 31] 0 (some 30) (some 30) with cause := cause } live)))

theorem test_witness_SecondSeekTimeout_step :
    (∀ c ∈ [([], none), ([], some .halt), ([.protect], some StopCause.protect)],
      (stepLost c.1 c.2).seq.access = some { stepping .clearStep 1 11 30 0 with stops := c.1 } ∧ (stepLost c.1 c.2).seq.accepted = true
        ∧ (stepLost c.1 c.2).sweep.map (fun sw => (sw.cause, sw.current)) = some (c.2, some 0) ∧ (stepLost c.1 c.2).volume.state = .mounted
        ∧ OrdersLawful (stepLost c.1 c.2))
      ∧ ∀ stops cause, RepliesLawful (stepLost stops cause) :=
  ⟨by decide +kernel, fun _ _ => replies_of_none_due (by decide +kernel : live.ports.a.queue.length ≤ 4 ∧ live.ports.a.due = [])
    (by decide +kernel : live.ports.b.queue.length ≤ 4 ∧ live.ports.b.due = [])⟩

/-- R170: such a step leaves the fill mark as the last done step left it, its item PARTIAL. -/
theorem test_seek_error_raises_the_mark :
    ∀ c ∈ [([], none), ([], some .halt), ([.protect], some StopCause.protect)],
      ((run .seekDone (stepLost c.1 c.2)).fill 1).map (fun f => (f.mark, f.state)) = some (31, .known)
        ∧ (run .seekDone (stepLost c.1 c.2)).sweep.map (fun sw => sw.current) = if c.2 = none then some (some 1) else none := by
  decide +kernel

/-- A fill search of the APPEND extent, its probe's second seek timeout restored. -/
def probeLost : State :=
  restoring 2 (driving (Access.begin .volume .probe none false (some 1) 11 30 31 240) .restoring .none
    { live with volume := { live.volume with state := .mounting, mount := .search 1 0 61 } })

/-- The store of STORING, its second seek timeout restored. -/
def storeLost : State :=
  restoring 2 (driving (Access.begin .volume .labelWrite (some .setup) true none 0 0 1 1) .restoring .none
    (inVolume .storing live))

theorem test_witness_SecondSeekTimeout_volume :
    (∀ s ∈ [probeLost, storeLost],
        s.seq.state = .restoring ∧ s.seq.accepted = true ∧ s.seq.seekTimeouts = 2 ∧ s.volume.drainExpired = false ∧ OrdersLawful s
          ∧ ∀ a ∈ s.seq.access, a.stops = [] ∧ a.owner = .volume)
      ∧ probeLost.volume.mount = .search 1 0 61 ∧ probeLost.volume.state = .mounting ∧ storeLost.volume.state = .storing
      ∧ RepliesLawful probeLost ∧ RepliesLawful storeLost := by
  and_intros <;> first | decide +kernel | exact replies_of_none_due (by decide +kernel) (by decide +kernel)

/-- R152, R159: a probe lost to a second seek timeout leaves its extent UNKNOWN with nothing recorded, and the mount goes on; a store so lost
leaves the label as it is, and STOP is issued. -/
theorem test_volume_accesses_lost :
    ((run .seekDone probeLost).fill 1).map (fun f => (f.mark, f.state)) = some (0, .unknown) ∧ (run .seekDone probeLost).seq.defects = []
      ∧ (run .seekDone probeLost).volume.state = .mounted
      ∧ (run .seekDone storeLost).volume = { storeLost.volume with state := .releasing } ∧ (run .seekDone storeLost).seq.state = .stopping := by
  decide +kernel

theorem test_witness_SectorPulse_twelfth :
    (searching none (some 0) 11).seq.access = some { access (.entry 0) .readRun 23 24 with unsync := 11 }
      ∧ (searching none (some 0) 11).seq.counter = none ∧ (searching none (some 0) 11).readRetries (access (.entry 0) .readRun 23 24) = 4
      ∧ (searching none (some 0) 11).volume.state = .mounted ∧ RepliesLawful (searching none (some 0) 11) := by
  and_intros <;> first | decide +kernel | exact replies_of_none_due (by decide +kernel) (by decide +kernel)

/-- A commit run in a phase, with a FLUSH watching the posted write and a number of others. -/
def commits (a : Access) (p : Posted) (watched : List Nat) : State :=
  driving a .transferring .data (marked 30
    { working [{ work .A .flush 8 7 with slot := none, state := .watching, watched := watched, writeBuffers := [] }] live with
      posted := [p], nextOrder := 8 })

theorem test_witness_PostedCommitAndFlushEnd :
    (∀ w ∈ [[0], [0, 3]],
        (commits (access (.posted 0) .writeRun 0 1) { posted .A 9 0 with committing := true } w).posted = [{ posted .A 9 0 with committing := true }]
          ∧ OrdersLawful (commits (access (.posted 0) .writeRun 0 1) { posted .A 9 0 with committing := true } w)
          ∧ (commits (access (.posted 0) .writeRun 0 1) { posted .A 9 0 with committing := true } w).ownerActive .fault = false)
      ∧ (posted .A 9 0).buffers = [ones] ∧ ({ postedAppend with torn := true } : Posted).torn = true
      ∧ placeOf (access (.posted 0) .writeRun 0 1) < 7680 ∧ (access (.posted 0) .writeRun 0 1).verify = false
      ∧ RepliesLawful (commits (access (.posted 0) .writeRun 0 1) (posted .A 9 0) [0]) := by
  and_intros <;> first | decide +kernel | exact replies_of_none_due (by decide +kernel) (by decide +kernel)

/-- A label of one extent of a kind, with one defect. -/
def label (kind : ExtentKind) : Label :=
  { version := 1, serial := 9, map := (Vector.replicate 32 none).set 3 (some (definition kind 1 2 false).raw)
    defects := [{ cylinder := 319, head := 1, sector := 11, cause := 2, firstSeen := 5, count := 255 }], marker := true }

/-- The label read of a mount. -/
def labelAccess (failed : Nat) : Access := { Access.begin .volume .labelRead none false none 0 0 1 1 with failed := failed, underWay := true }

/-- A mount in its label read, in a phase. -/
def mountRead (a : Access) (ph : Phase) : State :=
  driving a .transferring ph
    { State.reset with
      levels := 1, acted := 1, ctlBuffer := .labelIn, volume := { Volume.reset with state := .mounting, generation := 1, mount := .label } }

theorem label_lawful (kind : ExtentKind) : LabelLawful (label kind) := by
  refine ⟨rfl, rfl, ?_, ?_, by cases kind <;> decide, by cases kind <;> decide, by cases kind <;> decide⟩
  · have h : ∀ k : Slot, ∀ raw ∈ (label kind).map.get k, (wellFormedDefinition raw).isSome := by cases kind <;> decide +kernel
    exact fun k raw hk => h k raw hk
  · have h : ∀ k : Slot, k ≠ 3 → (label kind).map.get k = none := by cases kind <;> decide +kernel
    intro j k d e hne hd he
    by_cases hj : j = 3
    · rw [h k (fun hk => hne (hj.trans hk.symm))] at he
      cases he
    · rw [h j hj] at hd
      cases hd

theorem test_witness_MountLabelAndFillSearch :
    LabelLawful (label .append) ∧ LabelLawful (label .opn) ∧ ¬ LabelLawful { label .opn with marker := false }
      ∧ (∀ ph ∈ [Phase.dataRead, .headerCheck], (mountRead (labelAccess 4) ph).seq.access = some (labelAccess 4)
          ∧ (mountRead (labelAccess 4) ph).volume.state = .mounting ∧ (∀ k, (mountRead (labelAccess 4) ph).extent k = none)
          ∧ (mountRead (labelAccess 4) ph).seq.defects = [] ∧ (labelAccess 4).base = 0 ∧ (labelAccess 4).sector = 0)
      ∧ AddressRight (labelAccess 0) { cylinder := 0, head := 0, sector := 0, state := .blank, check := headerCheck 0 0 0 .blank }
      ∧ RepliesLawful (mountRead (labelAccess 0) .dataRead) :=
  ⟨label_lawful _, label_lawful _, fun h => absurd h.1 (by decide), by decide +kernel, by decide +kernel,
    replies_of_none_due (by decide +kernel) (by decide +kernel)⟩

/-- A fill search of the APPEND extent between two bounds, its probe in the middle passing. -/
def probe (lo hi failed : Nat) : State :=
  let a := { Access.begin .volume .probe none false (some 1) 11 ((lo + hi) / 2) ((lo + hi) / 2 + 1) 240 with failed := failed, underWay := true }
  driving a .transferring .headerCheck
    { live with volume := { live.volume with state := .mounting, mount := .search 1 lo hi } }

theorem test_witness_MountLabelAndFillSearch_probe :
    (probe 0 61 0).volume.mount = .search 1 0 61 ∧ (probe 0 61 0).volume.state = .mounting ∧ (probe 0 61 0).extent 1 = some appendExtent
      ∧ (∀ a ∈ (probe 0 61 0).seq.access, AddressRight a (appendHeader .written) ∧ a.kind = .probe ∧ a.cls = none)
      ∧ (∀ a ∈ (probe 30 31 4).seq.access, 4 ≤ a.failed ∧ ¬ AddressRight a { appendHeader .written with check := 0 })
      ∧ RepliesLawful (probe 0 61 0) := by
  and_intros <;> first | decide +kernel | exact replies_of_none_due (by decide +kernel) (by decide +kernel)

theorem test_witness_ExtentRefusals_lists :
    Stands .clear .A (request .clear [2, 0, 31]) (asked .clear [2, 0, 31] live)
      ∧ sweepOperands (request .clear [2, 0, 31]) = some ([0] ++ 31 :: []) ∧ live.extent 31 = some guardedExtent
      ∧ (live.claim (.extent 31)).holder ≠ some .A
      ∧ Stands .scan .A (request .scan [1, 2]) (asked .scan [1, 2] live) ∧ sweepOperands (request .scan [1, 2]) = some ([] ++ 2 :: [])
      ∧ live.extent 2 = none
      ∧ Stands .claim .A (request .claim [2, 0, 0, 1, 1, 0]) (asked .claim [2, 0, 0, 1, 1, 0] live)
      ∧ (claimOperands .A (request .claim [2, 0, 0, 1, 1, 0])).map (fun o => o.target) = some (.extent 2)
      ∧ RepliesLawful (asked .clear [2, 0, 31] live) := by
  and_intros <;> first | decide +kernel | exact quiet _ _

/-- A READ's run of two sectors, a buffer allocated for each. -/
def buffered : State :=
  { driving (access (.entry 0) .readRun 22 24) .transferring .dataRead
      (working [{ work .A .read 9 0 with state := .active, first := 22, count := 2, allocated := 2, writeBuffers := [] }] live) with
    pending := [.clockTick] }

theorem test_witness_StepKeepsBuffersLawful :
    OrdersLawful buffered ∧ RunsLawful buffered ∧ BuffersLawful buffered ∧ heldBuffers .A buffered = 2 ∧ ∃ t, step buffered = .next t := by
  refine ⟨by decide +kernel, ⟨fun ch d hd => ?_, ?_, by decide +kernel, fun a n ha ho => ?_⟩, fun ch => ?_, by decide +kernel, ⟨_, rfl⟩⟩
  · cases ch <;> cases hd
  · intro e he _ hs
    rw [List.mem_singleton.mp (show e ∈ [_] from he)] at hs
    rcases hs with h | h <;> cases h
  · cases ha
    cases ho
    exact ⟨_, List.mem_singleton.mpr rfl, by decide +kernel⟩
  · cases ch <;> decide +kernel

/-! ## What meets the hypotheses of the statements: run boundaries, FORCE, and the ends of a label write -/

/-- A WRITE or READ of two sectors, ACTIVE on a run that ends with its first. -/
def twoSectors (kind : WorkKind) (force : Bool) : Entry :=
  { work .A kind 9 0 with
    state := .active, count := 2, allocated := 1, writeBuffers := [ones, ones]
    flags := { quiet := false, medium := false, urgent := false, force := force } }

/-- That run TRANSFERRING in a phase and a pass, with attempts failed. -/
def atBoundary (kind : AccessKind) (wk : WorkKind) (ph : Phase) (pass : Pass) (failed : Nat) (force : Bool) : State :=
  driving { access (.entry 0) kind 23 24 with pass := pass, failed := failed, underWay := true } .transferring ph
    (working [twoSectors wk force] live)

/-- The hypotheses that the statements about a run's last sector share. -/
abbrev AtItsEnd (s : State) (a : Access) (e : Entry) : Prop :=
  s.seq.access = some a ∧ s.seq.state = .transferring ∧ e ∈ s.work ∧ a.owner = .entry e.order ∧ a.sector + 1 = a.runEnd
    ∧ e.done + a.done + 1 < e.count ∧ a.stops = [] ∧ OrdersLawful s ∧ s.volume.state = .mounted ∧ s.volume.drainExpired = false

theorem test_witness_boundary_of_a_run :
    (∀ f ∈ [true, false], ∀ c ∈ [(AccessKind.writeRun, WorkKind.write, Phase.data, Pass.work, 0), (.writeRun, .write, .readBack, .readBack, 0),
        (.readRun, .read, .dataRead, .work, 0), (.readRun, .read, .dataRead, .work, 4)],
        AtItsEnd (atBoundary c.1 c.2.1 c.2.2.1 c.2.2.2.1 c.2.2.2.2 f)
          { access (.entry 0) c.1 23 24 with pass := c.2.2.2.1, failed := c.2.2.2.2, underWay := true } (twoSectors c.2.1 f))
      ∧ placeOf (access (.entry 0) .writeRun 23 24) < 7680 ∧ (twoSectors .write true).writeBuffers = ones :: [ones]
      ∧ live.readRetries (access (.entry 0) .readRun 23 24) ≤ 4
      ∧ RepliesLawful (atBoundary .writeRun .write .data .work 0 true) ∧ RepliesLawful (atBoundary .readRun .read .dataRead .work 4 false) := by
  and_intros <;> first | decide +kernel | exact replies_of_none_due (by decide +kernel) (by decide +kernel)

/-- R84: at a boundary a READ goes on, is parked for work of a higher class, and is parked without room for its next run. -/
theorem test_boundary_tests :
    (∀ c ∈ [(work .B .read 3 1, SeqState.seeking), ({ work .B .read 3 1 with cls := some .setup }, .idle)],
        (run (.headerReadComplete (header .blank)) (driving (access (.entry 0) .readRun 23 24) .transferring .headerCheck
          (working [twoSectors .read false, c.1] live))).seq.state = c.2)
      ∧ (run (.headerReadComplete (header .blank)) (driving (access (.entry 0) .readRun 23 24) .transferring .headerCheck
          (working [{ twoSectors .read false with readBuffers := List.replicate 11 ones }] live))).seq.state = .idle := by decide +kernel

/-- R90, R127: a READ's last sector found VOID ends it VOID; a header failure lets a write go on when its check passed before, and not
otherwise. -/
theorem test_void_at_the_end_and_waived_failure :
    ((run (.headerReadComplete (header .void)) (driving (access (.entry 0) .readRun 23 24) .transferring .headerCheck
        (working [{ twoSectors .read false with count := 1 }] live))).port .A).queue.map
          (fun r => match r with | .completion c => (c.outcome, c.conditions) | _ => (.done, [])) = [(.void, [(0, .void)])]
      ∧ [true, false].map (fun passed =>
          (run (.headerReadComplete { header .written with check := 0 }) (driving { access (.entry 0) .writeRun 23 24 with checkPassed := passed }
            .transferring .headerCheck (working [twoSectors .write false] live))).seq.phase) = [.header, .none] := by decide +kernel

theorem test_witness_HeaderReadComplete_ends :
    (∀ n ∈ [1, 2], ∀ s ∈ [driving (access (.entry 0) .readRun 23 24) .transferring .headerCheck
            (working [{ twoSectors .read false with count := n }] live)],
        s.seq.access = some (access (.entry 0) .readRun 23 24) ∧ (access (.entry 0) .readRun 23 24).sector + 1 = 24
          ∧ (∀ e ∈ s.work, e.order = 0 ∧ e.done + 0 + 1 ≤ e.count) ∧ OrdersLawful s ∧ s.volume.state = .mounted
          ∧ OrdersLawful (expired s) ∧ DrainWaits (access (.entry 0) .readRun 23 24) (expired s))
      ∧ AddressRight (access (.entry 0) .readRun 23 24) (header .void)
      ∧ ({ access (.entry 0) .writeRun 23 24 with checkPassed := true } : Access).waives = true
      ∧ ({ access (.entry 0) .writeRun 23 24 with tornResume := true } : Access).waives = true
      ∧ ({ stepping .clearStep 0 1 23 0 with restored := true } : Access).waives = true
      ∧ (access (.entry 0) .writeRun 23 24).waives = false := by decide +kernel

theorem test_witness_DataReadComplete_failed :
    (passing .readRun .read 23 25 .dataRead .work).readRetries { access (.entry 0) .readRun 23 25 with failed := 4 } ≤ 4
      ∧ (∀ r ∈ [24, 25],
          (driving { access (.entry 0) .readRun 23 r with failed := 4 } .transferring .dataRead
            (working [{ work .A .read 9 0 with state := .active, count := r - 23 }] live)).seq.access
              = some { access (.entry 0) .readRun 23 r with failed := 4 })
      ∧ (field zeroSector).check ^^^ 1 ≠ crc (field zeroSector).data.toList :=
  ⟨by decide +kernel, by decide +kernel, field_flipped _⟩

theorem test_witness_AppendSectorAndMarking_more :
    (∀ c ∈ [(48, 2, Phase.data, Pass.work), (31, 2, .readBack, .readBack), (31, 2, .headerCheck, .marking)],
        let s := appending c.1 c.2.1 c.2.2.1 (appendAccess c.2.2.2 c.2.1 2)
        s.seq.phase = c.2.2.1 ∧ s.seq.access = some (appendAccess c.2.2.2 c.2.1 2) ∧ appendWork c.2.1 ∈ s.work ∧ OrdersLawful s)
      ∧ (appendAccess .work 2 2).runEnd ≤ 48 ∧ 48 < (appendAccess .work 2 2).size
      ∧ (appendWork 2).done + (appendAccess .work 2 2).done + 1 < (appendWork 2).count
      ∧ AddressRight (appendAccess .readBack 2 2) (appendHeader .written)
      ∧ (field (Vector.replicate 256 1)).check = crc (field (Vector.replicate 256 1)).data.toList
      ∧ (field (Vector.replicate 256 1)).data.toList = ones ∧ (appendAccess .marking 2 2).checkPassed = false
      ∧ (∀ z ∈ (appending 31 2 .headerCheck (appendAccess .marking 2 2)).work, z.order = 0) := by
  and_intros <;> first | decide +kernel | exact field_check _

/-- A posted write of two sectors, its commit run at the end of its first cylinder. -/
def committingTwo (force : Bool) : State :=
  driving { access (.posted 0) .writeRun 23 24 with underWay := true } .transferring .data
    { live with
      posted := [{ posted .A 9 0 with first := some 23, count := 2, committing := true, buffers := [ones, ones], force := force }], nextOrder := 1 }

theorem test_witness_PostedCommitAndFlushEnd_boundary :
    (∀ f ∈ [true, false],
        (committingTwo f).seq.access = some { access (.posted 0) .writeRun 23 24 with underWay := true } ∧ (committingTwo f).seq.phase = .data
          ∧ (committingTwo f).posted.map (fun p => p.buffers) = [ones :: [ones]] ∧ OrdersLawful (committingTwo f)
          ∧ ∀ e ∈ (committingTwo f).work, e.state ≠ .watching)
      ∧ RepliesLawful (committingTwo true) :=
  ⟨by decide +kernel, replies_of_none_due (by decide +kernel) (by decide +kernel)⟩

/-- A posted APPEND of three sectors, its commit run past its first cylinder's last sector. -/
def committingAppend : State :=
  driving { appendAccess .work 2 0 with owner := .posted 0, sector := 47 } .transferring .data
    (marked 48 (holding { postedAppend with count := 3, committing := true, buffers := [ones, ones], first := some 30 } live))

theorem test_witness_PostedCommitAndFlushEnd_append :
    committingAppend.seq.access = some { appendAccess .work 2 0 with owner := .posted 0, sector := 47 } ∧ committingAppend.seq.phase = .data
      ∧ committingAppend.posted.map (fun p => p.buffers) = [ones :: [ones]] ∧ (committingAppend.fill 1).map (fun f => f.mark) = some 48
      ∧ 48 < (appendAccess .work 2 0).size ∧ (appendAccess .work 2 0).runEnd ≤ 48 ∧ OrdersLawful committingAppend
      ∧ (∀ e ∈ committingAppend.work, e.state ≠ .watching) ∧ RepliesLawful committingAppend := by
  and_intros <;> first | decide +kernel | exact replies_of_none_due (by decide +kernel) (by decide +kernel)

/-- The hypotheses that the statements about a stop at a sector's end share: a line's stop waits, or an expired drain timer's. -/
abbrev StopsWait (s : State) : Prop :=
  (∀ st ∈ [[Stop.protect], [.power], [.power, .protect]],
      OrdersLawful (stoppedAt st s) ∧ (stoppedAt st s).volume.state = .mounted ∧ (stoppedAt st s).volume.drainExpired = false
        ∧ (stoppedAt st s).seq.access.isSome ∧ (stoppedAt st s).ownerActive .protect = false
        ∧ ∀ a ∈ (stoppedAt st s).seq.access, ProtectWaits a ∨ PowerWaits a)
    ∧ OrdersLawful (expired s) ∧ ∀ a ∈ (expired s).seq.access, DrainWaits a (expired s)

theorem test_witness_stops_at_a_sector_end :
    (∀ s ∈ [passing .writeRun .write 23 25 .data .work, atBoundary .writeRun .write .data .work 0 false,
            passing .writeRun .write 23 25 .readBack .readBack, atBoundary .writeRun .write .readBack .readBack 0 false,
            appending 31 2 .data (appendAccess .work 2 2), appending 31 2 .readBack (appendAccess .readBack 2 2),
            appending 30 2 .headerCheck (appendAccess .markCheck 2 2), committingTwo false, committingAppend], StopsWait s)
      ∧ (∀ s ∈ [passing .readRun .read 23 25 .dataRead .work, atBoundary .readRun .read .dataRead .work 4 false],
          OrdersLawful (expired s) ∧ s.seq.access.isSome ∧ ∀ a ∈ (expired s).seq.access, DrainWaits a (expired s))
      ∧ AddressRight (appendAccess .markCheck 2 2) (appendHeader .void)
      ∧ RepliesLawful (stoppedAt [.power] (atBoundary .writeRun .write .data .work 0 false))
      ∧ RepliesLawful (expired (atBoundary .readRun .read .dataRead .work 4 false)) :=
  ⟨by decide +kernel, by decide +kernel, by decide +kernel, replies_of_none_due (by decide +kernel) (by decide +kernel),
    replies_of_none_due (by decide +kernel) (by decide +kernel)⟩

theorem test_witness_HeaderReadComplete_more :
    ({ passing .writeRun .write 23 25 .headerCheck .work with powerTaken := some .immediate } : State).powerTaken = some .immediate
      ∧ (∀ s ∈ [driving { access (.entry 0) .writeRun 23 25 with failed := 2 } .transferring .headerCheck live],
          s.seq.access = some { access (.entry 0) .writeRun 23 25 with failed := 2 } ∧ s.seq.phase = .headerCheck
            ∧ s.writeRetries { access (.entry 0) .writeRun 23 25 with failed := 2 } ≤ 2)
      ∧ (access (.entry 0) .writeRun 22 25).restored = false ∧ (access (.entry 0) .writeRun 22 25).waives = false
      ∧ AddressWrong (access (.entry 0) .writeRun 22 25) (header .written) := by decide +kernel

/-- A label write's read-back, of a MAP-STORE or of the store of STORING. -/
def labelBack (owner : Owner) (failed : Nat) (v : VolumeState) : State :=
  driving { Access.begin owner .labelWrite (some .setup) true none 0 0 1 1 with pass := .readBack, failed := failed, underWay := true }
    .transferring .readBack { inVolume v (working [{ storeWork with state := .active }] live) with ctlBuffer := .label (label .opn) }

/-- A WRITE's run at its read-back, its attempts used up, the last of them the one further attempt or not. -/
def readingBack (further : Bool) : State :=
  driving { access (.entry 0) .writeRun 23 25 with pass := .readBack, failed := 3, restored := true, further := further, underWay := true }
    .transferring .readBack (working [twoSectors .write false] live)

theorem test_witness_ReadBackComplete_further :
    ∀ b ∈ [true, false],
      (readingBack b).seq.access.map (fun a => (a.further, a.pass, a.failed)) = some (b, .readBack, 3) ∧ OrdersLawful (readingBack b)
        ∧ ∀ a ∈ (readingBack b).seq.access, (readingBack b).writeRetries a ≤ a.failed := by decide +kernel

theorem test_witness_HeaderReadComplete_further :
    ∀ b ∈ [true, false], ∀ s ∈ [driving { access (.entry 0) .writeRun 22 25 with failed := 2, restored := true, further := b } .transferring
        .headerCheck (working [twoSectors .write false] live)],
      s.seq.access = some { access (.entry 0) .writeRun 22 25 with failed := 2, restored := true, further := b } ∧ OrdersLawful s
        ∧ s.volume.state = .mounted ∧ ∀ a ∈ s.seq.access, s.writeRetries a ≤ a.failed ∧ a.waives = false ∧ AddressWrong a (header .written) := by
  decide +kernel

/-- R129: a last allowed attempt that fails at its address check calls for the one further attempt, without a restore of its own where one was
made before (log 43); whether that one fails at its own address check or at its read-back, the cause is HEADER, and WRITE is for a last
allowed attempt that fails at its read-back. -/
theorem test_further_attempt :
    (run (.headerReadComplete (header .written)) (driving { access (.entry 0) .writeRun 22 25 with failed := 2, restored := true } .transferring
        .headerCheck live)).seq.access.map (fun a => (a.further, a.failed)) = some (true, 3)
      ∧ (run (.headerReadComplete (header .written)) (driving { access (.entry 0) .writeRun 22 25 with failed := 2, restored := true } .transferring
        .headerCheck live)).seq.state = .searching ∧
    (run (.headerReadComplete (header .written)) (driving { access (.entry 0) .writeRun 22 25 with failed := 2 } .transferring .headerCheck
        live)).seq.access.map (fun a => (a.further, a.failed)) = some (true, 3)
      ∧ (run (.headerReadComplete (header .written)) (driving { access (.entry 0) .writeRun 22 25 with failed := 3, restored := true, further := true }
          .transferring .headerCheck (working [twoSectors .write false] live))).seq.defects.map (fun d => d.cause) = [.header]
      ∧ [true, false].map (fun b => (run (.readBackComplete (header .blank) (field zeroSector)) (readingBack b)).seq.defects.map (fun d => d.cause))
          = [[.header], [.write]] := by decide +kernel

theorem test_witness_ReadBackComplete_label :
    (∀ c ∈ [(Owner.entry 0, 0, VolumeState.mounted), (.entry 0, 2, .mounted), (.volume, 0, .storing), (.volume, 2, .storing)],
        (labelBack c.1 c.2.1 c.2.2).seq.access = some
            { Access.begin c.1 .labelWrite (some .setup) true none 0 0 1 1 with pass := .readBack, failed := c.2.1, underWay := true }
          ∧ (labelBack c.1 c.2.1 c.2.2).seq.phase = .readBack ∧ (labelBack c.1 c.2.1 c.2.2).ctlBuffer = .label (label .opn)
          ∧ (labelBack c.1 c.2.1 c.2.2).volume.state = c.2.2 ∧ OrdersLawful (labelBack c.1 c.2.1 c.2.2)
          ∧ { storeWork with state := .active } ∈ (labelBack c.1 c.2.1 c.2.2).work)
      ∧ live.writeRetries (Access.begin .volume .labelWrite (some .setup) true none 0 0 1 1) = 2
      ∧ AddressRight (Access.begin .volume .labelWrite (some .setup) true none 0 0 1 1)
          { cylinder := 0, head := 0, sector := 0, state := .written, check := headerCheck 0 0 0 .written }
      ∧ (field (Config.labelWords (label .opn))).check = crc (field (Config.labelWords (label .opn))).data.toList
      ∧ (field zeroSector).check ^^^ 1 ≠ crc (field zeroSector).data.toList
      ∧ RepliesLawful (labelBack .volume 0 .storing) :=
  ⟨by decide +kernel, by decide +kernel, by decide +kernel, field_check _, field_flipped _,
    replies_of_none_due (by decide +kernel) (by decide +kernel)⟩

theorem test_witness_ArbiterChoosesAndWriteHoldHolds_eligible :
    HeldBack (working [work .A .write 8 0, work .A .read 9 1] live) 1 False (entryTouches live (work .A .read 9 1))
      ∧ AppendBefore (working [{ appendWork 2 with state := .queued }] live) 1 1
      ∧ RoomFor live (work .A .read 9 0) ∧ ¬ RoomFor { live with settings := { live.settings with quotaA := 0 } } (work .A .read 9 0)
      ∧ OrdersLawful (working [{ work .A .read 9 0 with state := .parked, count := 30, first := 0, allocated := 0, reserved := 3 }] live) := by
  refine ⟨Or.inl ⟨work .A .write 8 0, by decide +kernel, by decide +kernel, by decide +kernel, Or.inr (by decide +kernel), some 0, 23, ?_, ?_⟩,
    Or.inl ⟨_, List.mem_singleton.mpr rfl, by decide +kernel⟩, by decide +kernel, by decide +kernel, by decide +kernel⟩
  · exact (by decide +kernel : some 0 = some (0 : Slot) ∧ 23 ≤ 23 ∧ 23 < 23 + 1)
  · exact (by decide +kernel : some 0 = some (0 : Slot) ∧ 23 ≤ 23 ∧ 23 < 23 + 1)

theorem test_witness_SecondSeekTimeout_gone :
    ∀ s ∈ [restoring 2 (driving (access (.entry 0) .writeRun 23 24) .restoring .none (working [{ work .A .write 9 0 with state := .active }] live))],
      s.seq.state = .restoring ∧ s.seq.restoreTimer = some 0 ∧ s.seq.seekTimeouts = 2 ∧ s.seq.access = some (access (.entry 0) .writeRun 23 24)
        ∧ { work .A .write 9 0 with state := .active } ∈ s.work ∧ s.volume.state ≠ .absent ∧ OrdersLawful s ∧ RepliesLawful s := by
  intro s h
  rw [List.mem_singleton.mp h]
  and_intros <;> first | decide +kernel | exact replies_of_none_due (by decide +kernel) (by decide +kernel)

/-! ## What the events of one step come to, worked out -/

/-- R9: a sector write cut by a reset that begins a mount leaves its sector torn on the record. -/
theorem test_reset_keeps_the_tear :
    (run (.powerOnReset 1) (passing .writeRun .write 23 24 .data .work)).medium.map (fun x => (x.1, x.2.data)) = [(47, .torn)] := by
  decide +kernel

/-- R137: between the monitor's taking of a change and its owner's, STATUS shows the new level and the owner has not acted. -/
theorem test_status_between :
    (run .faultActive (takenBy .monitor live)).lineActive .fault = true ∧ (run .faultActive (takenBy .monitor live)).seq.state = .idle
      ∧ (run .faultActive (takenBy .owner live)).lineActive .fault = false ∧ (run .faultActive (takenBy .owner live)).seq.state = .notSafe := by
  decide +kernel

/-- R106: an APPEND's own fault is logged before those of the younger posted APPENDs that it ends. -/
theorem test_faults_in_admission_order :
    ((run .faultActive (driving { appendAccess .work 2 0 with owner := .posted 0, kind := .appendRun } .transferring .header
        { live with posted := [{ postedAppend with committing := true }, { postedAppend with tag := 10, order := 1 }], nextOrder := 2 })).logs.get
      .A).entries.map (fun e => (e.tag, e.cause)) = [(9, .writeFault), (10, .fillUnknown)] := by decide +kernel

/-- R106: the posted writes that the arbiter's choices end under PROTECT are logged in admission order, whatever the order of the choices. -/
theorem test_protected_in_admission_order :
    ((run .arbiterChoice { live with
        acted := 5, nextOrder := 2
        posted := [{ posted .A 9 0 with first := some 239 }, { posted .A 10 1 with first := some 0 }] }).logs.get .A).entries.map
      (fun e => (e.tag, e.cause)) = [(9, .writeProtected), (10, .writeProtected)] := by decide +kernel

/-- A draining volume whose drain timer has come to 0 while a halted sweep's step of a kind searches, no sector under way. -/
def drainingStep (sk : SweepKind) (kind : AccessKind) : State :=
  drained (driving { stepping kind 0 1 5 0 with underWay := false } .searching .none
    (sweeping { running sk [0] 0 none none with halt := true, cause := some .halt } live))

/-- R158, R171: a halted sweep's scanning step with no sector under way is stopped by the drain timer's expiry, and the sweep with it; its
clearing step is carried to its end, and the sweep and the drain end there. -/
theorem test_halted_step_at_drain_expiry :
    (run .drainTimerExpiry (drainingStep .scan .scanStep)).seq.access = none ∧ (run .drainTimerExpiry (drainingStep .scan .scanStep)).sweep = none
      ∧ (run .drainTimerExpiry (drainingStep .clear .clearStep)).seq.access.map (fun a => a.kind) = some .clearStep
      ∧ (run .drainTimerExpiry (drainingStep .clear .clearStep)).volume.drainExpired = true
      ∧ (run .dataPhaseComplete (expired (midStep (stepping .clearStep 0 1 5 0) .data
          { running .clear [0] 0 none none with halt := true, cause := some .halt }))).sweep = none
      ∧ (run .dataPhaseComplete (expired (midStep (stepping .clearStep 0 1 5 0) .data
          { running .clear [0] 0 none none with halt := true, cause := some .halt }))).volume.state = .releasing := by decide +kernel

theorem test_witness_DrainTimerExpiry_step :
    (∀ c ∈ [(SweepKind.scan, AccessKind.scanStep), (.clear, .clearStep)],
        (drainingStep c.1 c.2).volume.state = .draining ∧ (drainingStep c.1 c.2).volume.drainTimer = some 0 ∧ OrdersLawful (drainingStep c.1 c.2)
          ∧ (drainingStep c.1 c.2).seq.access = some { stepping c.2 0 1 5 0 with underWay := false }
          ∧ (stepping c.2 0 1 5 0).owner = .sweep ∧ (stepping c.2 0 1 5 0).kind = c.2 ∧ (drainingStep c.1 c.2).seq.phase ≠ .data
          ∧ (drainingStep c.1 c.2).hasVolumeWork = true ∧ AccessLawful (drainingStep c.1 c.2))
      ∧ RepliesLawful (drainingStep .scan .scanStep) ∧ RepliesLawful (drainingStep .clear .clearStep) :=
  ⟨by decide +kernel, replies_of_none_due (by decide +kernel) (by decide +kernel), replies_of_none_due (by decide +kernel) (by decide +kernel)⟩

/-- R76, R98: the room that a write ended under PROTECT frees goes to a short started READ before a QUEUED READ is chosen for it. -/
theorem test_room_to_the_short_read :
    ((run .arbiterChoice { working
        [{ work .A .write 1 0 with first := 0, count := 8, writeBuffers := List.replicate 8 ones },
         { work .A .read 2 1 with state := .parked, first := 24, count := 8, writeBuffers := [], reserved := 4 },
         { work .A .read 3 2 with first := 48, count := 8, writeBuffers := [], cls := some .urgent }] live with acted := 5 }).work.map
      (fun e => (e.tag, e.state, e.reserved, e.allocated))) = [(2, .active, 0, 8), (3, .queued, 0, 0)] := by decide +kernel

/-- R133, R146: a run that a PROTECT stop waits to end ends with its SEEK, the timeout told to no one. -/
theorem test_seek_timeout_under_protect :
    (run .seekTimeout (stopping .seeking)).seq.access = none ∧ (run .seekTimeout (stopping .seeking)).seq.state = .restoring
      ∧ ((run .seekTimeout (stopping .seeking)).port .A).queue = [.completion (endingOf (work .A .write 9 0) .writeProtected)] := by
  decide +kernel

/-- R122, R129: the restore of a last attempt leaves a single mismatch counted. -/
theorem test_last_restore_keeps_one_mismatch :
    (run (.headerReadComplete (header .written)) (driving { access (.entry 0) .writeRun 22 25 with failed := 2 } .transferring .headerCheck
      live)).seq.mismatches = 1
      ∧ (run (.headerReadComplete (header .written)) (driving { access (.entry 0) .writeRun 22 25 with failed := 2 } .transferring .headerCheck
      live)).seq.state = .restoring := by decide +kernel

/-- R137, R144, R146: the sequencer's taking of POWER stops the write in progress before the line monitor's, and a PROTECT stop taken first ends
the write that a POWER cut then cuts. -/
theorem test_power_before_the_monitor :
    (run .powerActive (takenBy .owner (passing .writeRun .write 23 25 .data .work))).seq.access.map (fun a => a.stops) = some [.power]
      ∧ ((run .powerActive (takenBy .owner (driving { access (.entry 0) .writeRun 23 25 with underWay := true, stops := [.protect] }
          .transferring .headerCheck (dipped .immediate (working [{ twoSectors .write false with state := .active }] live))))).port .A).queue.map
          (fun r => match r with | .completion c => c.outcome | _ => .done) = [.writeProtected] := by decide +kernel

/-- R143: the sequencer's taking of a beginning of POWER activity that the line monitor has ended since asks no stop, and asks one while the
period runs. -/
theorem test_stop_of_an_ended_period :
    let begun := run .powerActive (takenBy .monitor (passing .writeRun .write 23 25 .data .work))
    (run .powerActive (takenBy .owner (run .powerInactive (takenBy .monitor begun)))).seq.access.map (fun a => a.stops) = some []
      ∧ (run .powerActive (takenBy .owner begun)).seq.access.map (fun a => a.stops) = some [.power]
      ∧ (run .powerInactive (takenBy .monitor (run .powerActive (takenBy .owner begun)))).seq.access.map (fun a => a.stops) = some [] := by
  decide +kernel

/-- R144, R146: at a run's last sector with sectors remaining a POWER stop parks the entry with no hold in force; PROTECT, taken while the
POWER stop waits, ends it, there and at a sector within the run. -/
theorem test_stops_at_a_run_end :
    (run .dataPhaseComplete (stoppedAt [.power] (atBoundary .writeRun .write .data .work 0 false))).work.map (fun e => (e.state, e.done))
        = [(.parked, 1)]
      ∧ ∀ s ∈ [atBoundary .writeRun .write .data .work 0 false, passing .writeRun .write 23 25 .data .work],
          ((run .dataPhaseComplete (stoppedAt [.power, .protect] s)).port .A).queue.map
            (fun r => match r with | .completion c => (c.outcome, c.sectorsDone) | _ => (.done, 0)) = [(.writeProtected, 1)] := by decide +kernel

/-- A MAP-STORE's label write in its DATA phase, with stops waiting, under the settings' mode IMMEDIATE. -/
def labelWriting (stops : List Stop) : State :=
  let s : State := { live with settings := { live.settings with powerMode := .immediate } }
  driving { Access.begin (.entry 0) .labelWrite (some .setup) true none 0 0 1 1 with underWay := true, stops := stops }
    .transferring .data { working [{ storeWork with state := .active }] s with ctlBuffer := .label (label .opn) }

/-- R145, R146, R161: a MAP-STORE whose HEADER phase has begun is PARKED by a cut in IMMEDIATE mode, also with PROTECT taken first. -/
theorem test_store_cut_under_protect :
    ∀ stops ∈ [[], [Stop.protect]],
      (run .powerActive (takenBy .owner (labelWriting stops))).work.map (fun e => (e.state, e.done)) = [(.parked, 0)] := by decide +kernel

theorem test_witness_PowerLine_store :
    (∀ stops ∈ [[], [Stop.protect]],
      (labelWriting stops).ownerActive .power = false ∧ (labelWriting stops).powerOwed = [] ∧ (labelWriting stops).volume.state = .mounted
        ∧ (labelWriting stops).settings.powerMode = .immediate ∧ (labelWriting stops).seq.state = .transferring
        ∧ (labelWriting stops).seq.phase = .data ∧ (∀ a ∈ (labelWriting stops).seq.access, a.kind = .labelWrite ∧ placeOf a < 7680)
        ∧ OrdersLawful (labelWriting stops))
      ∧ RepliesLawful (labelWriting [.protect]) :=
  ⟨by decide +kernel, replies_of_none_due (by decide +kernel) (by decide +kernel)⟩

/-- R9, R93: an APPEND cut in its DATA phase by a departure ends VOLUME-GONE with TORN reported, the sector not counted. -/
theorem test_departure_reports_torn :
    ∀ c ∈ [Instr.doorOpen, .readyInactive],
      ((run c (appending 31 2 .data (appendAccess .work 2 0))).port .A).queue.map
        (fun r => match r with | .completion c => (c.outcome, c.sectorsDone, c.conditions) | _ => (.done, 0, []))
          = [(.volumeGone, 0, [(0, .torn)])] := by decide +kernel

/-- R172: a last step ended by a second seek timeout under a PROTECT stop leaves its item PROTECTED. -/
theorem test_seek_error_under_protect :
    ((run .seekDone (restoring 2 (driving { stepping .clearStep 0 1 0 0 with underWay := true } .restoring .none
      (sweeping { running .clear [0] 0 none none with cause := some .protect } live)))).port .A).queue.map
        (fun r => match r with | .completion c => (c.outcome, c.body) | _ => (.done, .none))
      = [(.writeProtected, .sweep [(0, .prot)])] := by decide +kernel

end Sys2Proof.Tests
end

section
/-! PROOFS. The arithmetic of the spec: addresses and runs, the ones'-complement span sum, and the check words. -/

namespace Sys2Proof.Machine

/-! ## The span sum (R101, R126) -/

theorem onesAdd_le {t w : Nat} (ht : t ≤ 65535) (hw : w ≤ 65535) : onesAdd t w ≤ 65535 := by
  unfold onesAdd
  split <;> omega

theorem onesAdd_mod (t w : Nat) : onesAdd t w % 65535 = (t + w) % 65535 := by
  unfold onesAdd
  split <;> omega

theorem onesAdd_eq_zero {t w : Nat} : onesAdd t w = 0 ↔ t = 0 ∧ w = 0 := by
  unfold onesAdd
  split <;> omega

theorem word_toNat_le (w : Word) : w.toNat ≤ 65535 := by
  have := w.isLt
  omega

theorem word_eq_zero_iff {w : Word} : w = 0 ↔ w.toNat = 0 := by
  rw [← BitVec.toNat_inj]
  rfl

/-- The ones'-complement sum of words, added one by one to a total. -/
def onesSum (ws : List Word) (t : Nat) : Nat := ws.foldl (fun t w => onesAdd t w.toNat) t

theorem onesSum_le {ws : List Word} {t : Nat} (ht : t ≤ 65535) : onesSum ws t ≤ 65535 := by
  induction ws generalizing t with
  | nil => exact ht
  | cons w ws ih => exact ih (onesAdd_le ht (word_toNat_le w))

theorem onesSum_mod (ws : List Word) (t : Nat) : onesSum ws t % 65535 = (t + (ws.map (fun w => w.toNat)).sum) % 65535 := by
  induction ws generalizing t with
  | nil => rfl
  | cons w ws ih =>
    have step : onesSum (w :: ws) t % 65535 = (onesAdd t w.toNat + (ws.map (fun w => w.toNat)).sum) % 65535 := ih _
    have head := onesAdd_mod t w.toNat
    rw [step, List.map_cons, List.sum_cons]
    omega

theorem onesSum_eq_zero {ws : List Word} {t : Nat} : onesSum ws t = 0 ↔ t = 0 ∧ ∀ w ∈ ws, w = 0 := by
  induction ws generalizing t with
  | nil => simp [onesSum]
  | cons w ws ih =>
    have step : onesSum (w :: ws) t = 0 ↔ onesAdd t w.toNat = 0 ∧ ∀ w ∈ ws, w = 0 := ih
    rw [step, onesAdd_eq_zero, ← word_eq_zero_iff, List.forall_mem_cons, and_assoc]

/-- The words that a check span sums. -/
def CheckSpan.summed (sp : CheckSpan) (ws : List Word) : List Word := (ws.drop sp.first).take (sp.last + 1 - sp.first)

theorem spanSum_toNat (sp : CheckSpan) (ws : List Word) : (spanSum sp ws).toNat = onesSum (sp.summed ws) 0 := by
  have h : onesSum (sp.summed ws) 0 ≤ 65535 := onesSum_le (by omega)
  exact Nat.mod_eq_of_lt (show onesSum (sp.summed ws) 0 < 2 ^ 16 by omega)

/-- A word outside the span does not enter its sum. -/
theorem summed_set {sp : CheckSpan} {ws : List Word} {i : Nat} (hi : i < sp.first ∨ sp.last < i) (v : Word) :
    sp.summed (ws.set i v) = sp.summed ws := by
  unfold CheckSpan.summed
  rcases hi with hi | hi
  · rw [List.drop_set_of_lt hi]
  · by_cases hlt : i < sp.first
    · rw [List.drop_set_of_lt hlt]
    · rw [List.drop_set, if_neg hlt, List.take_set_of_le (by omega)]

theorem spanSum_set {sp : CheckSpan} {ws : List Word} (hi : sp.insert < sp.first ∨ sp.last < sp.insert) (v : Word) :
    spanSum sp (ws.set sp.insert v) = spanSum sp ws := by
  rw [← BitVec.toNat_inj, spanSum_toNat, spanSum_toNat, summed_set hi]

/-- The sum read back holds the span (R126). -/
theorem spanHolds_insertSpan {sp : CheckSpan} {ws : List Word} (hlen : sp.insert < ws.length)
    (hi : sp.insert < sp.first ∨ sp.last < sp.insert) : spanHolds (some sp) (insertSpan (some sp) ws) = true := by
  have hsum := spanSum_set (ws := ws) hi (spanSum sp ws)
  simp [spanHolds, insertSpan, hsum, hlen]

/-- A span holds exactly where inserting its sum would change nothing. -/
theorem spanHolds_iff {sp : CheckSpan} {ws : List Word} (hlen : sp.insert < ws.length) :
    spanHolds (some sp) ws = true ↔ insertSpan (some sp) ws = ws := by
  have hget : ws[sp.insert]? = some ws[sp.insert] := List.getElem?_eq_getElem hlen
  simp only [spanHolds, insertSpan, hget, beq_iff_eq, Option.some.injEq]
  constructor
  · intro h
    rw [← h, List.set_getElem_self]
  · intro h
    have hat : (ws.set sp.insert (spanSum sp ws))[sp.insert]? = ws[sp.insert]? := by rw [h]
    rw [List.getElem?_set_self hlen, hget] at hat
    exact (Option.some.inj hat).symm

/-! ## The check words (R6, R176) -/

theorem crc_concat (ws : List Word) (w : Word) : crc (ws ++ [w]) = crcWord (crc ws) w := by
  simp [crc, List.foldl_append]

/-- A bit that equals the check's most significant bit only shifts it. -/
theorem crcBit_msb (c : Word) : crcBit c c.msb = c <<< 1 := by simp [crcBit]

/-- The check holds the low bits of the very word that enters it, moved to the top: entering them shifts them out one by one. -/
theorem crcBits_self (w : Word) (n : Nat) (hn : n ≤ 16) : crcBits n w (w <<< (16 - n)) = 0 := by
  induction n with
  | zero => exact BitVec.shiftLeft_eq_zero (by omega)
  | succ n ih =>
    have hmsb : (w <<< (16 - (n + 1))).msb = w.getLsbD n := by
      rw [BitVec.msb_eq_getLsbD_last, BitVec.getLsbD_shiftLeft]
      have hpos : 16 - 1 - (16 - (n + 1)) = n := by omega
      rw [hpos]
      simp
    have hshift : w <<< (16 - (n + 1)) <<< 1 = w <<< (16 - n) := by
      rw [← BitVec.shiftLeft_add]
      congr 1
      omega
    show crcBits n w (crcBit (w <<< (16 - (n + 1))) (w.getLsbD n)) = 0
    rw [← hmsb, crcBit_msb, hshift]
    exact ih (by omega)

theorem crcWord_self (w : Word) : crcWord w w = 0 := by
  have h := crcBits_self w 16 (le_refl _)
  rwa [Nat.sub_self, BitVec.shiftLeft_zero] at h

/-- Words followed by their own check word have the check 0. -/
theorem crc_append_crc (ws : List Word) : crc (ws ++ [crc ws]) = 0 := by
  rw [crc_concat, crcWord_self]

end Sys2Proof.Machine

namespace Sys2Proof.Proofs

open Sys2Proof.Machine Sys2Proof.Safety

/-- Settles O60, part by part from the lemmas on addresses, on the ones'-complement sum and on the check above. -/
theorem arithmeticOfTheSpec : Obligations.ArithmeticOfTheSpec := by
  unfold Obligations.ArithmeticOfTheSpec
  refine ⟨?_, ?_, ?_, fun _ => ⟨rfl, rfl⟩, ?_, ?_, fun _ _ => rfl, rfl, ?_, fun _ _ _ => ⟨rfl, rfl, rfl⟩, ?_, ?_, ?_⟩
  · intro base m
    unfold cylinderOf headOf sectorOf
    omega
  · intro n k
    unfold runLength
    omega
  · intro v w
    refine ⟨onesAdd_le (word_toNat_le v) (word_toNat_le w), onesAdd_mod _ _, ?_⟩
    rw [onesAdd_eq_zero, word_eq_zero_iff, word_eq_zero_iff]
  · intro sp ws hlen hfl hlast hins hout
    have hin : sp.insert < ws.length := by omega
    have hsummed : (ws.drop sp.first).take (sp.last - sp.first + 1) = sp.summed ws := by
      unfold CheckSpan.summed
      congr 1
      omega
    dsimp only
    rw [hsummed]
    refine ⟨⟨spanSum sp ws, rfl, ?_, ?_⟩, spanHolds_insertSpan hin hout, spanHolds_iff hin⟩
    · rw [spanSum_toNat, onesSum_mod, Nat.zero_add]
    · rw [word_eq_zero_iff, spanSum_toNat, onesSum_eq_zero]
      exact and_iff_right rfl
  · intro c b
    unfold crcBit
    by_cases h : c.msb = b <;> simp [h]
  · exact fun ws w => ⟨crc_concat ws w, crc_append_crc ws⟩
  · intro h
    exact beq_iff_eq
  · intro f
    exact beq_iff_eq
  · intro kind tag ws
    exact crc_append_crc _

end Sys2Proof.Proofs
end

section
/-! PROOFS. One entry, or one posted write, of the lists changed: what the lists then hold, and what states alike but for reservations keep
of it. -/

namespace Sys2Proof.Machine

open Sys2Proof.Safety

/-! ## One entry changed -/

/-- The state in which the entry of an admission order is this one. -/
def withEntry (y : Entry) (s : State) : State := { s with work := s.work.map (fun x => if x.order = y.order then y else x) }

/-- The state in which the posted write of an admission order is this one. -/
def withPosted (y : Posted) (s : State) : State := { s with posted := s.posted.map (fun x => if x.order = y.order then y else x) }

theorem updEntry_updEntry {n : Nat} {f g : Entry → Entry} (hf : ∀ x, (f x).order = x.order) (s : State) :
    updEntry n g (updEntry n f s) = updEntry n (fun x => g (f x)) s := by
  simp only [updEntry, List.map_map]
  congr 1
  refine List.map_congr_left (fun x _ => ?_)
  by_cases h : x.order = n <;> simp [h, hf]

theorem updPosted_updPosted {n : Nat} {f g : Posted → Posted} (hf : ∀ x, (f x).order = x.order) (s : State) :
    updPosted n g (updPosted n f s) = updPosted n (fun x => g (f x)) s := by
  simp only [updPosted, List.map_map]
  congr 1
  refine List.map_congr_left (fun x _ => ?_)
  by_cases h : x.order = n <;> simp [h, hf]

theorem eq_of_order {l : List Entry} (hn : (l.map (fun e => e.order)).Nodup) {x y : Entry} (hx : x ∈ l) (hy : y ∈ l)
    (h : x.order = y.order) : x = y := List.inj_on_of_nodup_map hn hx hy h

theorem eq_of_posted_order {l : List Posted} (hn : (l.map (fun p => p.order)).Nodup) {x y : Posted} (hx : x ∈ l) (hy : y ∈ l)
    (h : x.order = y.order) : x = y := List.inj_on_of_nodup_map hn hx hy h

/-- The change of an entry that stands in the list, by what becomes of it. -/
theorem updEntry_of_mem {s : State} (ho : OrdersLawful s) {e : Entry} (he : e ∈ s.work) {f : Entry → Entry}
    (hf : (f e).order = e.order) : updEntry e.order f s = withEntry (f e) s := by
  simp only [updEntry, withEntry, hf]
  congr 1
  refine List.map_congr_left (fun x hx => ?_)
  by_cases h : x.order = e.order
  · rw [if_pos h, if_pos h, eq_of_order (work_orders_nodup ho) hx he h]
  · rw [if_neg h, if_neg h]

theorem updPosted_of_mem {s : State} (ho : OrdersLawful s) {p : Posted} (hp : p ∈ s.posted) {f : Posted → Posted}
    (hf : (f p).order = p.order) : updPosted p.order f s = withPosted (f p) s := by
  simp only [updPosted, withPosted, hf]
  congr 1
  refine List.map_congr_left (fun x hx => ?_)
  by_cases h : x.order = p.order
  · rw [if_pos h, if_pos h, eq_of_posted_order (posted_orders_nodup ho) hx hp h]
  · rw [if_neg h, if_neg h]

theorem updEntry_withEntry {y : Entry} {n : Nat} (hn : y.order = n) {f : Entry → Entry} (hf : (f y).order = y.order) (s : State) :
    updEntry n f (withEntry y s) = withEntry (f y) s := by
  subst hn
  simp only [updEntry, withEntry, List.map_map, hf]
  congr 1
  refine List.map_congr_left (fun x _ => ?_)
  by_cases h : x.order = y.order <;> simp [h]

theorem mem_withEntry {s : State} {e y : Entry} (he : e ∈ s.work) (h : y.order = e.order) : y ∈ (withEntry y s).work :=
  List.mem_map.2 ⟨e, he, if_pos h.symm⟩

theorem mem_withPosted {s : State} {p y : Posted} (hp : p ∈ s.posted) (h : y.order = p.order) : y ∈ (withPosted y s).posted :=
  List.mem_map.2 ⟨p, hp, if_pos h.symm⟩

theorem updEntry_orders {n : Nat} {f : Entry → Entry} (hf : ∀ x, (f x).order = x.order) (s : State) :
    (updEntry n f s).work.map (fun e => e.order) = s.work.map (fun e => e.order) := by
  simp only [updEntry, List.map_map]
  refine List.map_congr_left (fun x _ => ?_)
  by_cases h : x.order = n <;> simp [h, hf]

theorem withEntry_orders (y : Entry) (s : State) :
    (withEntry y s).work.map (fun e => e.order) = s.work.map (fun e => e.order) := by
  simp only [withEntry, List.map_map]
  refine List.map_congr_left (fun x _ => ?_)
  by_cases h : x.order = y.order <;> simp [h]

theorem withPosted_orders (y : Posted) (s : State) :
    (withPosted y s).posted.map (fun p => p.order) = s.posted.map (fun p => p.order) := by
  simp only [withPosted, List.map_map]
  refine List.map_congr_left (fun x _ => ?_)
  by_cases h : x.order = y.order <;> simp [h]

/-- The law of the orders (R50) speaks of the orders alone. -/
theorem ordersLawful_congr {s t : State} (ho : OrdersLawful s) (hw : t.work.map (fun e => e.order) = s.work.map (fun e => e.order))
    (hp : t.posted.map (fun p => p.order) = s.posted.map (fun p => p.order)) (hn : t.nextOrder = s.nextOrder) : OrdersLawful t := by
  obtain ⟨hnd, hlt, hplt⟩ := ho
  refine ⟨by rw [hw, hp]; exact hnd, fun e he => ?_, fun p hm => ?_⟩
  · obtain ⟨x, hx, hxo⟩ := List.mem_map.1 (hw ▸ List.mem_map_of_mem (f := fun e : Entry => e.order) he)
    rw [hn, ← hxo]
    exact hlt x hx
  · obtain ⟨x, hx, hxo⟩ := List.mem_map.1 (hp ▸ List.mem_map_of_mem (f := fun p : Posted => p.order) hm)
    rw [hn, ← hxo]
    exact hplt x hx

theorem withEntry_ordersLawful {s : State} (ho : OrdersLawful s) (y : Entry) : OrdersLawful (withEntry y s) :=
  ordersLawful_congr ho (withEntry_orders y s) rfl rfl

theorem withPosted_ordersLawful {s : State} (ho : OrdersLawful s) (y : Posted) : OrdersLawful (withPosted y s) :=
  ordersLawful_congr ho rfl (withPosted_orders y s) rfl

theorem updEntry_ordersLawful {s : State} (ho : OrdersLawful s) {n : Nat} {f : Entry → Entry} (hf : ∀ x, (f x).order = x.order) :
    OrdersLawful (updEntry n f s) := ordersLawful_congr ho (updEntry_orders hf s) rfl rfl

/-! ## States alike but for reservations -/

theorem bareEntry_eq_iff {x y : Entry} : bareEntry x = bareEntry y ↔ ∃ r, x = { y with reserved := r } := by
  constructor
  · intro h
    refine ⟨x.reserved, ?_⟩
    calc x = { bareEntry x with reserved := x.reserved } := rfl
      _ = { bareEntry y with reserved := x.reserved } := by rw [h]
  · rintro ⟨r, rfl⟩
    rfl

theorem sameBut_symm {s t : State} (h : SameButReservations s t) : SameButReservations t s := by
  obtain ⟨w, rfl, hw⟩ := sameBut_exists h
  exact ⟨rfl, hw.symm⟩

theorem orders_of_bare {l m : List Entry} (h : m.map bareEntry = l.map bareEntry) :
    m.map (fun e => e.order) = l.map (fun e => e.order) := by
  have hcomp : (fun e : Entry => e.order) = (fun e : Entry => e.order) ∘ bareEntry := rfl
  rw [hcomp, ← List.map_map, ← List.map_map, h]

theorem sameBut_ordersLawful {s t : State} (h : SameButReservations s t) (ho : OrdersLawful s) : OrdersLawful t := by
  obtain ⟨w, rfl, hw⟩ := sameBut_exists h
  exact ordersLawful_congr ho (orders_of_bare hw) rfl rfl

theorem sameBut_repliesLawful {s t : State} (h : SameButReservations s t) (hl : RepliesLawful s) : RepliesLawful t := by
  obtain ⟨w, rfl, -⟩ := sameBut_exists h
  exact hl

/-- The entry of an order stands under it with another reservation perhaps. -/
theorem sameBut_entry {s t : State} (h : SameButReservations s t) {n : Nat} {e : Entry} (he : s.entry n = some e) :
    ∃ r, t.entry n = some { e with reserved := r } := by
  have hfind : (t.entry n).map bareEntry = (s.entry n).map bareEntry := bare_find h.2 n
  rw [he] at hfind
  obtain ⟨x, hx, hb⟩ := Option.map_eq_some_iff.1 hfind
  obtain ⟨r, rfl⟩ := bareEntry_eq_iff.1 hb
  exact ⟨r, hx⟩

theorem map_bare_congr {l m : List Entry} (h : m.map bareEntry = l.map bareEntry) {f g : Entry → Entry}
    (hfg : ∀ x y, bareEntry y = bareEntry x → bareEntry (g y) = bareEntry (f x)) :
    (m.map g).map bareEntry = (l.map f).map bareEntry := by
  induction l generalizing m with
  | nil =>
    have hm : m = [] := by simpa using h
    subst hm
    rfl
  | cons x l ih =>
    cases m with
    | nil => simp at h
    | cons y m =>
      simp only [List.map_cons, List.cons.injEq] at h ⊢
      exact ⟨hfg x y h.1, ih h.2⟩

/-- Two changes of an entry that differ in its reservation alone. -/
theorem sameBut_updEntry {s t : State} (h : SameButReservations s t) (n : Nat) {f g : Entry → Entry}
    (hfg : ∀ x r, bareEntry (g { x with reserved := r }) = bareEntry (f x)) :
    SameButReservations (updEntry n f s) (updEntry n g t) := by
  obtain ⟨w, rfl, hw⟩ := sameBut_exists h
  refine ⟨rfl, map_bare_congr hw (fun x y hxy => ?_)⟩
  obtain ⟨r, rfl⟩ := bareEntry_eq_iff.1 hxy
  by_cases hx : x.order = n
  · rw [if_pos hx, if_pos hx]
    exact hfg x r
  · rw [if_neg hx, if_neg hx]
    rfl

theorem sameBut_entryLeft {s t : State} (h : SameButReservations s t) (e : Entry) :
    SameButReservations (entryLeft e s) (entryLeft e t) := by
  obtain ⟨w, rfl, hw⟩ := sameBut_exists h
  refine ⟨rfl, ?_⟩
  exact bare_filter hw e.order

/-- An ended entry's completion given out, or the entry left, its appends pending already released (R70, R91, R92, R177). -/
def endingPlaced (e : Entry) (code : Code) (s : State) : State :=
  if e.discard = true ∨ (e.flags.quiet = true ∧ code = .done ∧ e.late = false ∧ e.conditions = []) then entryLeft e s
  else if (s.port e.channel).queue.length < 4 then
    entryLeft e (s.updPort e.channel (fun p => { p with queue := p.queue ++ [.completion (endingOf e code)] }))
  else
    updEntry e.order (fun x => { x with state := .finished, outcome := some code, writeBuffers := [], allocated := 0, reserved := 0,
                                        run := none, deadline := none })
      (s.updPort e.channel (fun p => { p with due := p.due ++ [.entry e.order] }))

/-- An ended APPEND's unappended sectors have left appends pending (R25). -/
def pendingReleased (e : Entry) (s : State) : State :=
  match e.kind, e.slot with
  | .append, some k => updFill k (fun f => { f with pending := f.pending - (e.count - e.done) }) s
  | _, _ => s

theorem entryEnded_eq (e : Entry) (code : Code) (s : State) : entryEnded e code s = endingPlaced e code (pendingReleased e s) := rfl

/-- Releasing appends pending changes the extents alone, and by themselves. -/
theorem pendingReleased_extents (e : Entry) : ∃ g : Vector (Option Extent) 32 → Vector (Option Extent) 32,
    ∀ s, pendingReleased e s = { s with extents := g s.extents } := by
  unfold pendingReleased
  split
  · rename_i k _ _
    exact ⟨fun v => v.set k.val ((v.get k).map (fun x => { x with fill := x.fill.map (fun f =>
      { f with pending := f.pending - (e.count - e.done) }) })) k.isLt, fun _ => rfl⟩
  · exact ⟨id, fun _ => rfl⟩

theorem sameBut_pendingReleased {s t : State} (h : SameButReservations s t) (e : Entry) :
    SameButReservations (pendingReleased e s) (pendingReleased e t) := by
  obtain ⟨g, hg⟩ := pendingReleased_extents e
  obtain ⟨w, rfl, hw⟩ := sameBut_exists h
  rw [hg, hg]
  exact ⟨rfl, hw⟩

theorem sameBut_updPort {s t : State} (h : SameButReservations s t) (ch : Channel) (f : Port → Port) :
    SameButReservations (s.updPort ch f) (t.updPort ch f) := by
  obtain ⟨w, rfl, hw⟩ := sameBut_exists h
  exact ⟨rfl, hw⟩

theorem sameBut_port {s t : State} (h : SameButReservations s t) (ch : Channel) : t.port ch = s.port ch := by rw [h.1]; rfl

/-- The end of an entry does not look at reservations. -/
theorem sameBut_entryEnded {s t : State} (h : SameButReservations s t) (e : Entry) (r : Nat) (code : Code) :
    SameButReservations (entryEnded e code s) (entryEnded { e with reserved := r } code t) := by
  rw [entryEnded_eq, entryEnded_eq]
  have hp : SameButReservations (pendingReleased e s) (pendingReleased { e with reserved := r } t) := sameBut_pendingReleased h e
  have hq := congrArg (fun p => p.queue.length) (sameBut_port hp e.channel)
  unfold endingPlaced
  by_cases hc : e.discard = true ∨ (e.flags.quiet = true ∧ code = .done ∧ e.late = false ∧ e.conditions = [])
  · rw [if_pos hc, if_pos hc]
    exact sameBut_entryLeft hp e
  · rw [if_neg hc, if_neg hc]
    by_cases hroom : ((pendingReleased e s).port e.channel).queue.length < 4
    · rw [if_pos hroom, if_pos (hq.symm ▸ hroom)]
      exact sameBut_entryLeft (sameBut_updPort hp e.channel _) e
    · rw [if_neg hroom, if_neg (fun h => hroom (hq ▸ h))]
      exact sameBut_updEntry (sameBut_updPort hp e.channel _) e.order (fun _ _ => rfl)

/-- The end of a piece of work as a step leaves it that has settled, in a state alike but for reservations. -/
theorem settle_endEntry_of_sameBut {s t : State} (h : SameButReservations s t) (ho : OrdersLawful s) (hl : RepliesLawful s)
    (hv : s.volume.state = .mounted) {e : Entry} (he : e ∈ s.work) (code : Code) :
    SameButReservations (entryEnded e code s) (settle (endEntry e.order code t)) := by
  obtain ⟨r, hr⟩ := sameBut_entry h (entry_of_mem ho he)
  have hmem : ({ e with reserved := r } : Entry) ∈ t.work := List.mem_of_find?_eq_some hr
  have hvt : t.volume.state = .mounted := by rw [h.1]; exact hv
  exact sameBut_trans (sameBut_entryEnded h e r code)
    (settle_endEntry (sameBut_ordersLawful h ho) (sameBut_repliesLawful h hl) (by simp [hvt]) (by simp [hvt]) hmem code)

/-- Settling what is alike but for reservations to a MOUNTED state that keeps the law of R177. -/
theorem settle_of_sameBut {s t : State} (h : SameButReservations s t) (hl : RepliesLawful s) (hv : s.volume.state = .mounted) :
    SameButReservations s (settle t) :=
  sameBut_trans h (settle_of_mounted (sameBut_repliesLawful h hl) (by rw [h.1]; exact hv))

/-! ## The grant of a run (R83) -/

/-- The claim check of a grant, in the words of the claims (R41, R42). -/
theorem mayWriteNow_iff (s : State) (k : Slot) (ch : Channel) (token : Option Nat) :
    s.mayWriteNow k ch token = true ↔ ClaimStands s k ch token := by
  cases token <;> simp [State.mayWriteNow, State.claimHeld, ClaimStands]

/-- A READ's grant (R83, R98). -/
theorem grantEntry_read {s : State} {e : Entry} (he : s.entry e.order = some e) (hk : e.kind = .read) :
    SameButReservations
      { updEntry e.order (fun x => { x with
          state := .active, deadline := none, allocated := runLength (e.first + e.done) e.remaining
          run := some (e.first + e.done, runLength (e.first + e.done) e.remaining) }) s with
        seq := begun (Access.begin (.entry e.order) .readRun e.cls false e.slot e.base (e.first + e.done)
          (e.first + e.done + runLength (e.first + e.done) e.remaining) e.size) s.seq }
      (grantEntry e.order s) := by
  unfold grantEntry
  rw [he]
  dsimp only
  rw [hk]
  dsimp only
  unfold grantRead
  dsimp only
  rw [updEntry_updEntry (f := fun x => { x with state := .active, deadline := none }) (fun _ => rfl), beginAccess_eq_begun]
  have h := sameBut_updEntry (sameBut_refl s) e.order
    (f := fun x => { x with state := .active, deadline := none, allocated := runLength (e.first + e.done) e.remaining
                            run := some (e.first + e.done, runLength (e.first + e.done) e.remaining) })
    (g := fun x => { x with state := .active, deadline := none, allocated := runLength (e.first + e.done) e.remaining
                            run := some (e.first + e.done, runLength (e.first + e.done) e.remaining)
                            reserved := min ((updEntry e.order (fun x => { x with state := .active, deadline := none }) s).unused e.channel
                              + e.reserved - runLength (e.first + e.done) e.remaining)
                              (runLength (e.first + e.done + runLength (e.first + e.done) e.remaining)
                                (e.remaining - runLength (e.first + e.done) e.remaining)) })
    (fun _ _ => rfl)
  exact ⟨rfl, h.2⟩

/-- A WRITE's grant with its claim held (R41, R83). -/
theorem grantEntry_write {s : State} {e : Entry} (he : s.entry e.order = some e) (hk : e.kind = .write) {k : Slot} (hs : e.slot = some k)
    (hc : ClaimStands s k e.channel e.token) :
    grantEntry e.order s =
      { updEntry e.order (fun x => { x with
          state := .active, deadline := none, run := some (e.first + e.done, runLength (e.first + e.done) e.remaining)
          tornNext := false }) s with
        seq := begun { Access.begin (.entry e.order) .writeRun e.cls e.verify (some k) e.base (e.first + e.done)
          (e.first + e.done + runLength (e.first + e.done) e.remaining) e.size with tornResume := e.tornNext } s.seq } := by
  have hm : (updEntry e.order (fun x => { x with state := .active, deadline := none }) s).mayWriteNow k e.channel e.token = true :=
    (mayWriteNow_iff s k e.channel e.token).2 hc
  unfold grantEntry
  rw [he]
  dsimp only
  rw [hk, hs]
  dsimp only
  rw [if_pos hm]
  unfold grantWrite
  dsimp only
  rw [updEntry_updEntry (f := fun x => { x with state := .active, deadline := none }) (fun _ => rfl), beginAccess_eq_begun, hs]
  rfl

/-- A WRITE's grant with its claim lost (R41). -/
theorem grantEntry_write_lost {s : State} {e : Entry} (he : s.entry e.order = some e) (hk : e.kind = .write) {k : Slot}
    (hs : e.slot = some k) (hc : ¬ ClaimStands s k e.channel e.token) :
    grantEntry e.order s = endEntry e.order .claimLost (updEntry e.order (fun x => { x with state := .active, deadline := none }) s) := by
  have hm : ¬ (updEntry e.order (fun x => { x with state := .active, deadline := none }) s).mayWriteNow k e.channel e.token = true :=
    fun h => hc ((mayWriteNow_iff s k e.channel e.token).1 h)
  unfold grantEntry
  rw [he]
  dsimp only
  rw [hk, hs]
  dsimp only
  rw [if_neg hm]

end Sys2Proof.Machine
end

section
/-! PROOFS. HEADER_PHASE_COMPLETE, and ARBITER_CHOICE where it grants a READ or a WRITE its run or leaves the drive alone. -/

namespace Sys2Proof.Machine

open Sys2Proof.Safety

/-! ## The HEADER phase completed (R8, R22, R24, R169) -/

theorem inPhase_eq {s : State} {p : Phase} {a : Access} (ht : s.seq.state = .transferring) (hp : s.seq.phase = p)
    (ha : s.seq.access = some a) : s.inPhase p = some a := by
  simp [State.inPhase, ht, hp, ha]

/-- How the fill fields of an access's extent stand once its HEADER phase has completed. -/
def Access.fillAfterHeader (a : Access) (f : Fill) : Fill :=
  if a.kind = .appendRun ∧ a.pass = .work ∧ f.mark = a.sector then { f with mark := f.mark + 1 }
  else if a.kind = .clearStep ∧ f.state = .known ∧ f.mark = a.sector + 1 then { f with mark := a.sector }
  else f

theorem headerFill_extents (a : Access) (s : State) : headerFill a s = { s with extents := (headerFill a s).extents } := by
  unfold headerFill
  split
  · split <;> rfl
  · rfl
  · rfl

/-- The fill mark as a HEADER phase completes, slot by slot. -/
theorem headerFill_extent (a : Access) (s : State) (k : Slot) :
    (headerFill a s).extent k =
      if a.slot = some k then (s.extent k).map (fun e => { e with fill := e.fill.map a.fillAfterHeader }) else s.extent k := by
  have kept : ∀ f : Fill → Fill, (∀ x, f x = x) →
      s.extent k = if a.slot = some k then (s.extent k).map (fun e => { e with fill := e.fill.map f }) else s.extent k := by
    intro f hf
    obtain rfl : f = id := funext hf
    simp
  have moved : ∀ (j : Slot) (f : Fill → Fill), a.slot = some j → (∀ x, f x = a.fillAfterHeader x) → (updFill j f s).extent k =
      if a.slot = some k then (s.extent k).map (fun e => { e with fill := e.fill.map a.fillAfterHeader }) else s.extent k := by
    intro j f hj hf
    obtain rfl : f = a.fillAfterHeader := funext hf
    rw [updFill, updExtent_extent, hj]
    simp only [Option.some.injEq, eq_comm]
  unfold headerFill
  split
  · rename_i j hk hj
    split
    · rename_i hpass
      exact moved j _ hj (fun f => by simp [Access.fillAfterHeader, hk, hpass])
    · rename_i hpass
      exact kept _ (fun f => by simp [Access.fillAfterHeader, hk, hpass])
  · rename_i j hk hj
    exact moved j _ hj (fun f => by simp [Access.fillAfterHeader, hk])
  · rename_i happ hclear
    cases hs : a.slot with
    | none => simp
    | some j =>
      have h1 : a.kind ≠ .appendRun := fun h => happ j h hs
      have h2 : a.kind ≠ .clearStep := fun h => hclear j h hs
      rw [← hs]
      exact kept _ (fun f => by simp [Access.fillAfterHeader, h1, h2])

/-! ## The arbiter's choice (R79 to R83) -/

theorem driveFree_iff (s : State) : s.driveFree = true ↔ s.seq.access = none ∧ s.seq.state = .idle := by
  simp [State.driveFree]

/-- With no posted write gone there is nothing to log. -/
theorem logProtected_self (s : State) : logProtected s s = s := by
  have hnil : s.posted.filter (fun p => (s.postedWrite p.order).isNone) = [] := by
    rw [List.filter_eq_nil_iff]
    intro p hp hnone
    rw [Option.isNone_iff_eq_none, State.postedWrite, List.find?_eq_none] at hnone
    exact hnone p hp (decide_eq_true rfl)
  rw [logProtected, hnil]
  rfl

/-- A choice that falls on no write ends none. -/
theorem protectedChoices_eq {s : State}
    (h : ∀ c dir, choose s.direction (s.seq.cylinder.getD 0) s.candidates = (some c, dir) → s.choiceWrites c.owner = false) (n : Nat) :
    protectedChoices n s = s := by
  cases n with
  | zero => rfl
  | succ n =>
    unfold protectedChoices
    split
    · rfl
    · rename_i c dir hc
      rw [if_neg (by simp [h c dir hc])]

/-- Without PROTECT, or where the choice falls on no write, the arbiter ends no write (R79). -/
theorem endProtectedChoices_eq {s : State}
    (h : s.ownerActive .protect = true → ∀ c dir, choose s.direction (s.seq.cylinder.getD 0) s.candidates = (some c, dir) →
      s.choiceWrites c.owner = false) : endProtectedChoices s = s := by
  unfold endProtectedChoices
  split
  · rw [protectedChoices_eq (h ‹_›), logProtected_self]
  · rfl

/-- ARBITER_CHOICE that falls on an entry which PROTECT does not end: the entry is granted (R83). -/
theorem arbiterChoice_entry {s : State} {n : Nat} {c : Candidate} {dir : Direction} (ha : s.seq.access = none) (hi : s.seq.state = .idle)
    (hc : choose s.direction (s.seq.cylinder.getD 0) s.candidates = (some c, dir)) (ho : c.owner = .entry n)
    (hp : s.ownerActive .protect = true → s.choiceWrites (.entry n) = false) :
    exec .arbiterChoice s = .next (settle (grantEntry n { s with direction := dir })) := by
  have hfree : s.driveFree = true := (driveFree_iff s).2 ⟨ha, hi⟩
  have hend : endProtectedChoices s = s := endProtectedChoices_eq (fun hact c' dir' hc' => by
    rw [hc] at hc'
    obtain ⟨⟨rfl⟩, rfl⟩ := Prod.mk.inj hc'
    rw [ho]
    exact hp hact)
  show execArbiterChoice s = _
  unfold execArbiterChoice chooseAndGrant
  rw [if_pos hfree, hend, hc]
  dsimp only
  rw [ho]
  rfl

/-- A read's choice writes nothing. -/
theorem choiceWrites_read {s : State} {e : Entry} (he : s.entry e.order = some e) (hk : e.kind = .read) :
    s.choiceWrites (.entry e.order) = false := by
  simp [State.choiceWrites, he, hk]

end Sys2Proof.Machine

namespace Sys2Proof.Proofs

open Sys2Proof.Machine Sys2Proof.Safety

/-- Settles O45: the medium from the rules of the sector record, the fill mark from `headerFill_extent`. -/
theorem headerPhaseComplete : Obligations.HeaderPhaseComplete := by
  intro a s ht hp ha hplace
  have hexec : exec .headerPhaseComplete s = .next (updSeq (fun q => { q with phase := .data })
      (headerFill a (putHeader a.address (.whole (headerFor a.address a.headerWritten)) s))) := by
    show execHeaderPhaseComplete s = _
    rw [execHeaderPhaseComplete, inPhase_eq ht hp ha]
  have hput : putHeader a.address (.whole (headerFor a.address a.headerWritten)) s =
      { s with
        medium := mediumSet (placeOf a)
          { header := .whole (headerOn (placeOf a) (writtenState a)), data := s.oldData (placeOf a) } s.medium } := if_pos hplace
  rw [hput] at hexec
  refine ⟨_, hexec, ?_, ?_, ?_, ?_⟩
  · rw [updSeq_medium, headerFill_extents]
    exact mediumAt_mediumSet_same _ _ _
  · intro b hb
    rw [updSeq_medium, headerFill_extents]
    exact mediumAt_mediumSet_ne hb _ _
  · exact fun k => headerFill_extent a _ k
  · rw [headerFill_extents]
    rfl

/-- Settles O38: the choice falls on the entry, and the grant's rule says what it leaves. -/
theorem arbiterChoice : Obligations.ArbiterChoice := by
  refine ⟨fun e k c dir s ha hi hc hown he hk ho hl hv => ?_, fun s => ⟨fun ha hi hnone hsw hl hv => ?_, fun hbusy => ?_⟩⟩
  · have hentry : s.entry e.order = some e := entry_of_mem ho he
    have hentry' : ({ s with direction := dir } : State).entry e.order = some e := hentry
    dsimp only
    refine ⟨fun hread => ?_, fun hwrite hprot hheld => ?_, fun hwrite hprot hlost => ?_⟩
    · refine ⟨_, arbiterChoice_entry ha hi hc hown (fun _ => choiceWrites_read hentry hread), ?_⟩
      rw [← hk]
      exact settle_of_sameBut (grantEntry_read hentry' hread) hl hv
    · refine ⟨_, arbiterChoice_entry ha hi hc hown (fun h => by simp [hprot] at h), ?_⟩
      rw [grantEntry_write hentry' hwrite hk hheld]
      exact settle_of_sameBut (sameBut_refl _) hl hv
    · refine ⟨_, arbiterChoice_entry ha hi hc hown (fun h => by simp [hprot] at h), ?_⟩
      rw [grantEntry_write_lost hentry' hwrite hk hlost]
      have hmem : ({ e with state := .active, deadline := none } : Entry) ∈
          (updEntry e.order (fun x => { x with state := .active, deadline := none }) { s with direction := dir }).work :=
        List.mem_map.2 ⟨e, he, if_pos rfl⟩
      have hord : OrdersLawful (updEntry e.order (fun x => { x with state := .active, deadline := none }) { s with direction := dir }) :=
        updEntry_ordersLawful (s := { s with direction := dir }) ho (fun _ => rfl)
      exact settle_endEntry_of_sameBut (sameBut_refl _) hord hl hv hmem .claimLost
  · have hfree : s.driveFree = true := (driveFree_iff s).2 ⟨ha, hi⟩
    have hchoose : choose s.direction (s.seq.cylinder.getD 0) s.candidates = (none, s.direction) := by
      rw [hnone]
      rfl
    have hend : endProtectedChoices s = s := endProtectedChoices_eq (fun _ c dir hc => by
      rw [hchoose] at hc
      cases hc)
    have hexec : exec .arbiterChoice s = .next (settle s) := by
      show execArbiterChoice s = _
      unfold execArbiterChoice chooseAndGrant offerSweep
      rw [if_pos hfree, hend, hchoose]
      dsimp only
      rw [hsw]
    exact ⟨_, hexec, settle_of_mounted hl hv⟩
  · have hnot : ¬ s.driveFree = true := fun h => by
      obtain ⟨h1, h2⟩ := (driveFree_iff s).1 h
      rcases hbusy with hb | hb
      · exact hb h1
      · exact hb h2
    show execArbiterChoice s = _
    rw [execArbiterChoice, if_neg hnot]

end Sys2Proof.Proofs
end

section
/-! PROOFS. Runs ended, stopped and cut: the rules for an entry's and a posted write's run, and FAULT as the sequencer takes it. -/

namespace Sys2Proof.Machine

open Sys2Proof.Safety

/-! ## Entries: a run ended or stopped -/

theorem updEntry_congr {s : State} (ho : OrdersLawful s) {e : Entry} (he : e ∈ s.work) {f g : Entry → Entry} (h : f e = g e) :
    updEntry e.order f s = updEntry e.order g s := by
  unfold updEntry
  congr 1
  refine List.map_congr_left (fun x hx => ?_)
  by_cases hxe : x.order = e.order
  · rw [if_pos hxe, if_pos hxe, eq_of_order (work_orders_nodup ho) hx he hxe, h]
  · rw [if_neg hxe, if_neg hxe]

/-- An entry that is changed and then ends, as a settled step leaves it. -/
theorem settle_endEntry_changed {s : State} (ho : OrdersLawful s) (hl : RepliesLawful s) (hv : s.volume.state = .mounted) {e : Entry}
    (he : e ∈ s.work) {g : Entry → Entry} (hg : ∀ x, (g x).order = x.order) (code : Code) :
    SameButReservations (entryEnded (g e) code (updEntry e.order g s)) (settle (endEntry e.order code (updEntry e.order g s))) := by
  have hmem : g e ∈ (updEntry e.order g s).work := List.mem_map.2 ⟨e, he, if_pos rfl⟩
  have hend := settle_endEntry_of_sameBut (sameBut_refl _) (updEntry_ordersLawful ho hg) hl hv hmem code
  rwa [hg e] at hend

/-- An entry that ends with its run's sectors credited (R89), as a settled step leaves it. -/
theorem settle_credited {s : State} (ho : OrdersLawful s) (hl : RepliesLawful s) (hv : s.volume.state = .mounted) {e : Entry}
    (he : e ∈ s.work) (n : Nat) (code : Code) :
    SameButReservations
      (entryEnded { e with done := e.done + n } code (updEntry e.order (fun x => { x with done := e.done + n }) s))
      (settle (endEntry e.order code (updEntry e.order (fun x => { x with done := x.done + n }) s))) := by
  rw [updEntry_congr ho he (f := fun x => { x with done := x.done + n }) (g := fun x => { x with done := e.done + n }) rfl]
  exact settle_endEntry_changed ho hl hv he (g := fun x => { x with done := e.done + n }) (fun _ => rfl) code

theorem creditRun_entry {a : Access} {n : Nat} (h : a.owner = .entry n) (s : State) :
    creditRun a s = updEntry n (fun e => { e with done := e.done + a.done }) s := by
  simp only [creditRun, h]

theorem creditRun_posted {a : Access} {n : Nat} (h : a.owner = .posted n) (s : State) : creditRun a s = s := by
  simp only [creditRun, h]

theorem endRun_entry {a : Access} {n : Nat} (h : a.owner = .entry n) (code : Code) (s : State) :
    endRun a code s = endEntry n code (updEntry n (fun e => { e with done := e.done + a.done }) (endAccess s)) := by
  simp only [endRun, creditRun_entry h, h]

theorem endRun_posted {a : Access} {n : Nat} (h : a.owner = .posted n) (code : Code) (s : State) :
    endRun a code s = faultPosted n (postedCause code) (endAccess s) := by
  simp only [endRun, creditRun_posted h, h]

theorem stopRun_entry {a : Access} {n : Nat} (h : a.owner = .entry n) (torn : Bool) (s : State) :
    stopRun a torn s = updEntry n (fun e => { e with
      done := e.done + a.done, state := .parked, run := none, allocated := 0, tornNext := torn }) (endAccess s) := by
  simp only [stopRun, park, creditRun_entry h, h]
  exact updEntry_updEntry (f := fun e => { e with done := e.done + a.done }) (fun _ => rfl) _

/-! ## The sequencer apart from the endings -/

/-- The end of an entry does not look at the sequencer. -/
theorem updSeq_endEntry (f : Sequencer → Sequencer) (n : Nat) (code : Code) (s : State) :
    updSeq f (endEntry n code s) = endEntry n code (updSeq f s) := by
  unfold endEntry
  rw [show (updSeq f s).entry n = s.entry n from rfl]
  cases s.entry n with
  | none => rfl
  | some e =>
    dsimp only
    cases e.kind
    case append => cases e.slot <;> (dsimp only; split <;> rfl)
    all_goals (dsimp only; split <;> rfl)

/-- What a cut leaves is a matter of the medium alone (R9). -/
theorem tear_eq (s : State) : tear s = { s with medium := cutMedium s } := by
  have honly : tear s = { s with medium := (tear s).medium } := by
    unfold tear putHeader putData
    split
    · rfl
    · split
      · split <;> rfl
      · split <;> rfl
      · rfl
  rw [honly, tear_medium]

theorem cutMedium_eq {s : State} (hh : s.seq.phase ≠ .header) (hd : s.seq.phase ≠ .data) : cutMedium s = s.medium := by
  unfold cutMedium
  split
  · exact absurd ‹_› hh
  · exact absurd ‹_› hd
  · rfl

theorem cutMedium_data {s : State} {a : Access} (ha : s.seq.access = some a) (hd : s.seq.phase = .data) (hplace : placeOf a < 7680) :
    cutMedium s = mediumSet (placeOf a) { header := .whole (headerOn (placeOf a) (writtenState a)), data := .torn } s.medium := by
  unfold cutMedium
  rw [ha, hd]
  exact if_pos hplace

/-- The sequencer once it has taken FAULT (R140), its access apart. -/
def Sequencer.cutOff (q : Sequencer) : Sequencer :=
  { q with state := .notSafe, cylinder := none, target := none, phase := .none, gate := false, accepted := false, seekTimer := none,
           restoreTimer := none, faultTimer := some 2000 }

theorem enterNotSafe_eq (s : State) : enterNotSafe s = updSeq Sequencer.cutOff s := rfl

/-! ## Posted writes: an end with no FLUSH watching (R104, R106) -/

theorem map_sawEnd_quiet {l : List Entry} (h : ∀ e ∈ l, e.state ≠ .watching) (n : Nat) (fault : Bool) :
    l.map (Entry.sawEnd n fault) = l := by
  conv_rhs => rw [← List.map_id l]
  exact List.map_congr_left (fun e he => by simp [Entry.sawEnd, h e he])

theorem foldl_endFlush_quiet {l : List Entry} (h : ∀ e ∈ l, e.state ≠ .watching) (s : State) : l.foldl endFlush s = s := by
  induction l with
  | nil => rfl
  | cons e l ih =>
    have he : endFlush s e = s := by simp [endFlush, h e (List.mem_cons_self ..)]
    rw [List.foldl_cons, he, ih (fun x hx => h x (List.mem_cons_of_mem _ hx))]

/-- A posted write has left, with no FLUSH to learn it. -/
theorem postedLeaves_quiet {s : State} (hq : ∀ e ∈ s.work, e.state ≠ .watching) (p : Posted) (fault : Bool) :
    postedLeaves p.order fault s = postedLeft p s := by
  unfold postedLeaves
  dsimp only
  rw [map_sawEnd_quiet hq]
  simp only [placeFreed, postedLeft, dueAgain_eq]
  exact foldl_endFlush_quiet hq _

theorem faultOne_quiet {s : State} (hq : ∀ e ∈ s.work, e.state ≠ .watching) {p : Posted} (hp : s.postedWrite p.order = some p)
    (cause : Code) : faultOne p.order cause s = postedFaulted p cause s := by
  unfold faultOne leaveFaulted postedFaulted
  rw [hp]
  dsimp only
  by_cases hk : p.kind = .append
  · rw [if_pos hk, if_pos hk]
    exact postedLeaves_quiet (s := raise p.channel .postedFault (lowerPending p.slot p.buffers.length (logFault cause s p))) hq p true
  · rw [if_neg hk, if_neg hk]
    exact postedLeaves_quiet (s := raise p.channel .postedFault (logFault cause s p)) hq p true

theorem faultPosted_quiet {s : State} (hd : s.drainEnding = false) (hq : ∀ e ∈ s.work, e.state ≠ .watching) {p : Posted}
    (hp : s.postedWrite p.order = some p) (cause : Code) : faultPosted p.order cause s = postedFaulted p cause s := by
  rw [faultPosted, if_neg (by simp [hd]), faultOne_quiet hq hp]

theorem drainEnding_mounted {s : State} (hv : s.volume.state = .mounted) : s.drainEnding = false := by
  simp [State.drainEnding, hv]

/-- The fault of a posted write does not look at the sequencer. -/
theorem updSeq_postedFaulted (f : Sequencer → Sequencer) (p : Posted) (cause : Code) (s : State) :
    updSeq f (postedFaulted p cause s) = postedFaulted p cause (updSeq f s) := by
  unfold postedFaulted
  dsimp only
  split <;> rfl

theorem postedFaulted_volume (p : Posted) (cause : Code) (s : State) : (postedFaulted p cause s).volume = s.volume := by
  unfold postedFaulted
  dsimp only
  split <;> rfl

theorem dueAgain_queue (p : Port) : (dueAgain p).queue = p.queue := by
  rw [dueAgain_eq]

theorem dueAgain_due (p : Port) : (dueAgain p).due = p.due := by
  rw [dueAgain_eq]

/-- The law of R177 speaks of the queues and due lists alone. -/
theorem repliesLawful_congr {s t : State} (hl : RepliesLawful s)
    (h : ∀ ch, (t.port ch).queue = (s.port ch).queue ∧ (t.port ch).due = (s.port ch).due) : RepliesLawful t := by
  intro ch
  obtain ⟨hq, hd⟩ := h ch
  rw [hq, hd]
  exact hl ch

theorem postedLeft_repliesLawful {s : State} (hl : RepliesLawful s) (p : Posted) : RepliesLawful (postedLeft p s) :=
  repliesLawful_congr hl (fun ch => by cases ch <;> exact ⟨dueAgain_queue _, dueAgain_due _⟩)

theorem postedFaulted_repliesLawful {s : State} (hl : RepliesLawful s) (p : Posted) (cause : Code) :
    RepliesLawful (postedFaulted p cause s) := by
  unfold postedFaulted
  refine postedLeft_repliesLawful (repliesLawful_congr hl (fun ch => ?_)) p
  dsimp only
  split <;> cases ch <;> cases p.channel <;> exact ⟨rfl, rfl⟩

/-! ## FAULT (R140, R142) -/

theorem takesFault_iff (q : SeqState) :
    q.takesFault = true ↔ q ≠ .noCartridge ∧ q ≠ .notSafe ∧ q ≠ .stopping ∧ q ≠ .offline := by
  cases q <;> simp [SeqState.takesFault]

/-- FAULT_ACTIVE as the sequencer takes it. -/
theorem faultActive_owner {s : State} (h : s.ownerActive .fault = false) :
    exec .faultActive (takenBy .owner s) =
      .next (if s.seq.state.takesFault then settle (enterNotSafe (cutByFault (actedOn .fault true s))) else actedOn .fault true s) := by
  show execFaultActive _ = _
  rw [execFaultActive, lineChange_owner, ownerTakes_change (by simp [h])]
  rfl

/-- FAULT_ACTIVE meets an access with no stop waiting. -/
theorem faultActive_cut {s : State} (h : s.ownerActive .fault = false) (ht : s.seq.state.takesFault = true) {a : Access}
    (ha : s.seq.access = some a) (hstops : a.stops = []) :
    exec .faultActive (takenBy .owner s) =
      .next (settle (updSeq Sequencer.cutOff (faultCut a (actedOn .fault true s)))) := by
  have hcut : cutByFault (actedOn .fault true s) = faultCut a (actedOn .fault true s) := by
    unfold cutByFault
    rw [show (actedOn .fault true s).seq.access = some a from ha]
    simp [hstops]
  rw [faultActive_owner h, if_pos ht, hcut, enterNotSafe_eq]

end Sys2Proof.Machine

namespace Sys2Proof.Proofs

open Sys2Proof.Machine Sys2Proof.Safety

/-- FAULT cuts a WRITE in its DATA phase: it ends WRITE-FAULT, its sector torn (R9, R140). -/
theorem faultActive_write {s : State} (hf : s.ownerActive .fault = false) (hl : RepliesLawful s) (ho : OrdersLawful s) {a : Access}
    {e : Entry} (ht : s.seq.state.takesFault = true) (ha : s.seq.access = some a) (hstops : a.stops = []) (hk : a.kind = .writeRun)
    (hpass : a.pass = .work) (hown : a.owner = .entry e.order) (he : e ∈ s.work) (hph : s.seq.phase = .data)
    (hplace : placeOf a < 7680) (hv : s.volume.state = .mounted) :
    ∃ t, exec .faultActive (takenBy .owner s) = .next t
      ∧ SameButReservations
          (entryEnded { e with done := e.done + a.done } .writeFault
            (updEntry e.order (fun x => { x with done := e.done + a.done })
              { actedOn .fault true s with
                ctlBuffer := .free
                medium := mediumSet (placeOf a) { header := .whole (headerOn (placeOf a) .written), data := .torn } s.medium
                seq := { s.seq.cutOff with access := none } })) t := by
  have hwritten : writtenState a = .written := by simp [writtenState, hk, hpass]
  have hmed : cutMedium (actedOn .fault true s) =
      mediumSet (placeOf a) { header := .whole (headerOn (placeOf a) .written), data := .torn } s.medium := by
    rw [← hwritten]
    exact cutMedium_data (s := actedOn .fault true s) ha hph hplace
  have hcut : faultCut a (actedOn .fault true s) = endRun a .writeFault (tear (actedOn .fault true s)) := by
    simp only [faultCut, hk]
  refine ⟨_, faultActive_cut hf ht ha hstops, ?_⟩
  rw [hcut, tear_eq, hmed, endRun_entry hown, updSeq_endEntry]
  generalize mediumSet _ _ _ = m
  exact settle_credited (s := updSeq Sequencer.cutOff (endAccess { actedOn .fault true s with medium := m })) ho hl hv he a.done .writeFault

/-- FAULT cuts a READ: it is PARKED (R140). -/
theorem faultActive_read {s : State} (hf : s.ownerActive .fault = false) (hl : RepliesLawful s) (ho : OrdersLawful s) {a : Access}
    {e : Entry} (ht : s.seq.state.takesFault = true) (ha : s.seq.access = some a) (hstops : a.stops = []) (hk : a.kind = .readRun)
    (hown : a.owner = .entry e.order) (he : e ∈ s.work) (hh : s.seq.phase ≠ .header) (hd : s.seq.phase ≠ .data)
    (hv : s.volume.state = .mounted) :
    ∃ t, exec .faultActive (takenBy .owner s) = .next t
      ∧ SameButReservations
          (updEntry e.order (fun x => { x with
              done := e.done + a.done, state := .parked, run := none, allocated := 0, tornNext := false })
            { actedOn .fault true s with ctlBuffer := .free, seq := { s.seq.cutOff with access := none } }) t := by
  have hcut : faultCut a (actedOn .fault true s) = stopRun a false (actedOn .fault true s) := by
    simp only [faultCut, hk]
    rw [tear_eq, cutMedium_eq (s := actedOn .fault true s) hh hd]
  refine ⟨_, faultActive_cut hf ht ha hstops, ?_⟩
  rw [hcut, stopRun_entry hown, updEntry_congr (s := endAccess (actedOn .fault true s)) ho he
    (g := fun x => { x with done := e.done + a.done, state := .parked, run := none, allocated := 0, tornNext := false }) rfl]
  exact settle_of_sameBut (sameBut_refl _) hl hv

/-- FAULT cuts a commit run with no FLUSH watching: its posted write faults WRITE-FAULT (R140). -/
theorem faultActive_posted {s : State} (hf : s.ownerActive .fault = false) (hl : RepliesLawful s) (ho : OrdersLawful s) {a : Access}
    {p : Posted} (ht : s.seq.state.takesFault = true) (ha : s.seq.access = some a) (hstops : a.stops = []) (hk : a.kind = .writeRun)
    (hown : a.owner = .posted p.order) (hp : p ∈ s.posted) (hh : s.seq.phase ≠ .header) (hd : s.seq.phase ≠ .data)
    (hq : ∀ e ∈ s.work, e.state ≠ .watching) (hv : s.volume.state = .mounted) :
    ∃ t, exec .faultActive (takenBy .owner s) = .next t
      ∧ SameButReservations
          (postedFaulted p .writeFault
            { actedOn .fault true s with ctlBuffer := .free, seq := { s.seq.cutOff with access := none } }) t := by
  have hcut : faultCut a (actedOn .fault true s) = endRun a .writeFault (actedOn .fault true s) := by
    simp only [faultCut, hk]
    rw [tear_eq, cutMedium_eq (s := actedOn .fault true s) hh hd]
  have hfault := faultPosted_quiet (s := endAccess (actedOn .fault true s)) (drainEnding_mounted hv) hq
    (postedWrite_of_mem ho hp) .writeFault
  refine ⟨_, faultActive_cut hf ht ha hstops, ?_⟩
  rw [hcut, endRun_posted hown]
  rw [show postedCause .writeFault = .writeFault from rfl, hfault, updSeq_postedFaulted]
  refine settle_of_mounted (postedFaulted_repliesLawful (s := updSeq Sequencer.cutOff (endAccess (actedOn .fault true s))) hl p _) ?_
  rw [postedFaulted_volume]
  exact hv

/-- Settles O57: FAULT_ACTIVE by what it cuts, FAULT_INACTIVE by the state it finds. -/
theorem faultLine : Obligations.FaultLine := by
  refine ⟨fun s hf hl ho => ?_, fun s hf => ?_⟩
  · dsimp only
    rw [← takesFault_iff]
    refine ⟨fun hno => ?_, fun ht ha hv => ?_, ?_, ?_, ?_⟩
    · rw [faultActive_owner hf, if_neg hno]
    · have hnone : cutByFault (actedOn .fault true s) = actedOn .fault true s := by
        unfold cutByFault
        rw [show (actedOn .fault true s).seq.access = none from ha]
      refine ⟨_, faultActive_owner hf, ?_⟩
      rw [if_pos ht, hnone]
      have hsettle := settle_of_mounted (s := enterNotSafe (actedOn .fault true s)) hl hv
      rw [enterNotSafe_eq] at hsettle ⊢
      have hseq : updSeq Sequencer.cutOff (actedOn .fault true s) =
          { actedOn .fault true s with seq := { s.seq.cutOff with access := none } } := by
        rw [← ha]
        rfl
      rw [hseq] at hsettle ⊢
      exact hsettle
    · intro a e ht ha hstops hk hpass hown he _ hph hplace hv
      exact faultActive_write hf hl ho ht ha hstops hk hpass hown he hph hplace hv
    · intro a e ht ha hstops hk hown he hh hd hv
      exact faultActive_read hf hl ho ht ha hstops hk hown he hh hd hv
    · intro a p ht ha hstops hk hown hp hh hd hq hv
      exact faultActive_posted hf hl ho ht ha hstops hk hown hp hh hd hq hv
  · have hexec : exec .faultInactive (takenBy .owner s) = .next (if s.seq.state = .notSafe then
        issueRestore (updSeq (fun q => { q with faultTimer := none }) (actedOn .fault false s)) else actedOn .fault false s) := by
      show execFaultInactive _ = _
      rw [execFaultInactive, lineChange_owner, ownerTakes_change (by simp [hf])]
      rfl
    refine ⟨fun hs => ?_, fun hs => ?_⟩
    · rw [hexec, if_pos hs]
      rfl
    · rw [hexec, if_neg hs]

end Sys2Proof.Proofs
end

section
/-! PROOFS. An APPEND's sector write cut by FAULT or by POWER in IMMEDIATE mode (R141). -/

namespace Sys2Proof.Machine

open Sys2Proof.Safety

/-! ## Endings and the extents -/

theorem updFill_comm {f g : Fill → Fill} (h : ∀ x, f (g x) = g (f x)) (j k : Slot) (s : State) :
    updFill j f (updFill k g s) = updFill k g (updFill j f s) := by
  have hext : (updFill j f (updFill k g s)).extents = (updFill k g (updFill j f s)).extents := by
    refine Vector.ext (fun i hi => ?_)
    have hget : ∀ u : State, u.extents[i] = u.extent ⟨i, hi⟩ := fun _ => rfl
    rw [hget, hget]
    simp only [updFill, updExtent_extent]
    split_ifs <;> simp [Option.map_map, Function.comp_def, h]
  calc updFill j f (updFill k g s) = { s with extents := (updFill j f (updFill k g s)).extents } := rfl
    _ = { s with extents := (updFill k g (updFill j f s)).extents } := by rw [hext]
    _ = updFill k g (updFill j f s) := rfl

/-- An ending lowers appends pending and changes the fill fields in no other way. -/
theorem updFill_endEntry {g : Fill → Fill} (hg : ∀ f m, g { f with pending := f.pending - m } = { g f with pending := (g f).pending - m })
    (k : Slot) (n : Nat) (code : Code) (s : State) : updFill k g (endEntry n code s) = endEntry n code (updFill k g s) := by
  unfold endEntry
  rw [show (updFill k g s).entry n = s.entry n from rfl]
  cases s.entry n with
  | none => rfl
  | some e =>
    dsimp only
    cases e.kind
    case append =>
      cases e.slot with
      | none =>
        dsimp only
        split <;> rfl
      | some j =>
        dsimp only
        rw [lowerPending, lowerPending, updFill_comm (fun f => (hg f e.remaining).symm) j k s]
        split <;> rfl
    all_goals
      dsimp only
      split <;> rfl

theorem updFill_endingPlaced (g : Fill → Fill) (k : Slot) (e : Entry) (code : Code) (s : State) :
    updFill k g (endingPlaced e code s) = endingPlaced e code (updFill k g s) := by
  unfold endingPlaced
  split
  · rfl
  · rw [show (updFill k g s).port e.channel = s.port e.channel from rfl]
    split <;> rfl

theorem updFill_pendingReleased {g : Fill → Fill}
    (hg : ∀ f m, g { f with pending := f.pending - m } = { g f with pending := (g f).pending - m }) (k : Slot) (e : Entry) (s : State) :
    updFill k g (pendingReleased e s) = pendingReleased e (updFill k g s) := by
  unfold pendingReleased
  split
  · exact (updFill_comm (fun f => (hg f _).symm) _ k s).symm
  · rfl

theorem updFill_entryEnded {g : Fill → Fill}
    (hg : ∀ f m, g { f with pending := f.pending - m } = { g f with pending := (g f).pending - m }) (k : Slot) (e : Entry) (code : Code)
    (s : State) : updFill k g (entryEnded e code s) = entryEnded e code (updFill k g s) := by
  rw [entryEnded_eq, entryEnded_eq, updFill_endingPlaced, updFill_pendingReleased hg]

/-- After an ending the entries are the others as they were, and the ended one, if it stays, FINISHED. -/
theorem mem_endEntry {n : Nat} {code : Code} {s : State} {x : Entry} (hx : x ∈ (endEntry n code s).work) :
    (x ∈ s.work ∧ x.order ≠ n) ∨ (x.order = n ∧ x.state = .finished) := by
  have key : ∀ u : State, u.work = s.work → ∀ (b : Bool) (ch : Channel),
      x ∈ (if b = true then dropEntry n u
        else addDue ch (.entry n) (updEntry n (fun e => { e with
          state := .finished, outcome := some code, writeBuffers := [], allocated := 0, reserved := 0, run := none
          deadline := none }) u)).work →
      (x ∈ s.work ∧ x.order ≠ n) ∨ (x.order = n ∧ x.state = .finished) := by
    intro u hu b ch hmem
    cases b
    · obtain ⟨y, hy, rfl⟩ := List.mem_map.1 hmem
      by_cases hyn : y.order = n
      · right
        rw [if_pos hyn]
        exact ⟨hyn, rfl⟩
      · left
        rw [if_neg hyn]
        exact ⟨hu ▸ hy, hyn⟩
    · obtain ⟨hy, hne⟩ := List.mem_filter.1 hmem
      exact .inl ⟨hu ▸ hy, of_decide_eq_true hne⟩
  unfold endEntry at hx
  cases he : s.entry n with
  | none =>
    rw [he] at hx
    have hnone : ∀ y ∈ s.work, ¬ decide (y.order = n) = true := List.find?_eq_none.1 he
    exact .inl ⟨hx, fun h => hnone x hx (decide_eq_true h)⟩
  | some e =>
    rw [he] at hx
    dsimp only at hx
    cases hk : e.kind
    case append =>
      rw [hk] at hx
      cases hs : e.slot with
      | none =>
        rw [hs] at hx
        exact key s rfl _ _ hx
      | some k =>
        rw [hs] at hx
        exact key (lowerPending k e.remaining s) rfl _ _ hx
    all_goals
      rw [hk] at hx
      exact key s rfl _ _ hx

theorem endEntry_posted (n : Nat) (code : Code) (s : State) : (endEntry n code s).posted = s.posted := by
  unfold endEntry
  dsimp only
  repeat' split
  all_goals rfl

/-- The fill state of an extent on which no APPEND waits becomes UNKNOWN, and nothing else changes (R23). -/
theorem fillBecomesUnknown_unwaited {s : State} {k : Slot}
    (hw : ∀ e ∈ s.work, e.kind = .append → e.slot = some k → e.state = .finished)
    (hp : ∀ p ∈ s.posted, ¬ (p.kind = .append ∧ p.slot = k)) :
    fillBecomesUnknown k s = updFill k (fun f => { f with state := .unknown }) s := by
  have h1 : s.work.filter (fun e => e.kind = .append ∧ e.slot = some k ∧ (e.state = .queued ∨ e.state = .parked)) = [] := by
    rw [List.filter_eq_nil_iff]
    intro e he h
    obtain ⟨hk, hs, hst⟩ := of_decide_eq_true h
    rw [hw e he hk hs] at hst
    simp at hst
  have h2 : s.posted.filter (fun p => p.kind = .append ∧ p.slot = k ∧ p.committing = false) = [] := by
    rw [List.filter_eq_nil_iff]
    intro p hm h
    obtain ⟨hk, hs, -⟩ := of_decide_eq_true h
    exact hp p hm ⟨hk, hs⟩
  unfold fillBecomesUnknown
  dsimp only
  rw [show (updFill k (fun f => { f with state := .unknown }) s).work = s.work from rfl,
    show (updFill k (fun f => { f with state := .unknown }) s).posted = s.posted from rfl, h1, h2]
  rfl

/-- An entry put in its place and then ended, as a settled step leaves it. -/
theorem settle_endEntry_with {s : State} (ho : OrdersLawful s) (hl : RepliesLawful s) (hv : s.volume.state = .mounted) {e y : Entry}
    (he : e ∈ s.work) (hy : y.order = e.order) (code : Code) :
    SameButReservations (entryEnded y code (withEntry y s)) (settle (endEntry e.order code (withEntry y s))) := by
  have hend := settle_endEntry_of_sameBut (sameBut_refl _) (withEntry_ordersLawful ho y) hl hv (mem_withEntry he hy) code
  rwa [hy] at hend

/-- The one APPEND of an extent ends with the fill state made UNKNOWN, as a settled step leaves it (R23). -/
theorem settle_unknown_end {s : State} (ho : OrdersLawful s) (hl : RepliesLawful s) (hv : s.volume.state = .mounted) {e y : Entry}
    {k : Slot} (he : e ∈ s.work) (hy : y.order = e.order) (hone : ∀ z ∈ s.work, z.kind = .append → z.slot = some k → z.order = e.order)
    (hp : ∀ p ∈ s.posted, ¬ (p.kind = .append ∧ p.slot = k)) (f : Sequencer → Sequencer) (code : Code) :
    SameButReservations (updFill k (fun g => { g with state := .unknown }) (entryEnded y code (withEntry y (updSeq f s))))
      (settle (updSeq f (fillBecomesUnknown k (endEntry e.order code (withEntry y s))))) := by
  have hdone : ∀ x ∈ (endEntry e.order code (withEntry y s)).work, x.kind = .append → x.slot = some k → x.state = .finished := by
    intro x hx hk hs
    rcases mem_endEntry hx with ⟨hmem, hne⟩ | ⟨-, hfin⟩
    · obtain ⟨z, hz, rfl⟩ := List.mem_map.1 hmem
      by_cases hzy : z.order = y.order
      · rw [if_pos hzy] at hne
        exact absurd hy hne
      · rw [if_neg hzy] at hne hk hs
        exact absurd (hone z hz hk hs) hne
    · exact hfin
  have hpost : ∀ p ∈ (endEntry e.order code (withEntry y s)).posted, ¬ (p.kind = .append ∧ p.slot = k) := by
    rw [endEntry_posted]
    exact hp
  have hcomm : updSeq f (fillBecomesUnknown k (endEntry e.order code (withEntry y s))) =
      endEntry e.order code (withEntry y (updSeq f (updFill k (fun g => { g with state := .unknown }) s))) := by
    rw [fillBecomesUnknown_unwaited hdone hpost, updFill_endEntry (fun _ _ => rfl), updSeq_endEntry]
    rfl
  rw [hcomm, updFill_entryEnded (fun _ _ => rfl)]
  exact settle_endEntry_with (s := updSeq f (updFill k (fun g => { g with state := .unknown }) s)) ho hl hv he hy code

/-! ## The cut of an APPEND's sector (R141) -/

/-- The entry with the condition of the data sector it is at reported (R68, R89). -/
def Entry.reporting (c : Condition) (e : Entry) : Entry :=
  { e with conditions := addCondition (e.count - e.writeBuffers.length) c e.conditions }

theorem reportSector_append {s : State} (ho : OrdersLawful s) {e : Entry} (he : e ∈ s.work) (hk : e.kind = .append) {a : Access}
    (hown : a.owner = .entry e.order) (c : Condition) : reportSector a c s = withEntry (e.reporting c) s := by
  have hidx : s.sectorIndex a = e.count - e.writeBuffers.length := by
    simp [State.sectorIndex, hown, entry_of_mem ho he, hk]
  simp only [reportSector, hown, reportCondition, hidx]
  exact updEntry_of_mem ho he (f := fun x => { x with conditions := addCondition _ c x.conditions }) rfl

/-- A data sector counted appended as TORN, for an entry's APPEND (R141). -/
theorem countTorn_entry {s : State} (ho : OrdersLawful s) {e : Entry} (he : e ∈ s.work) (hk : e.kind = .append) {a : Access} {k : Slot}
    (hown : a.owner = .entry e.order) (hslot : a.slot = some k) :
    countTorn a s = withEntry { e.reporting .torn with writeBuffers := e.writeBuffers.tail } (lowerPending k 1 s) := by
  unfold countTorn
  rw [reportSector_append ho he hk hown]
  simp only [dropBuffer, hown, hslot]
  rw [updEntry_withEntry (y := e.reporting .torn) (n := e.order) rfl rfl]
  rfl

theorem appendCut_header {a : Access} {m : Nat} : appendCut a .header m = .unknown := rfl

theorem appendCut_torn {a : Access} {m : Nat} (hpass : a.pass = .work) (h : a.sector < m) : appendCut a .data m = .torn := by
  simp [appendCut, hpass, h]

theorem fillMark_eq {s : State} {k : Slot} {x : Extent} {f : Fill} (hx : s.extent k = some x) (hf : x.fill = some f) :
    s.fillMark k = f.mark := by
  simp [State.fillMark, State.fill, hx, hf]

theorem endRun_withEntry {a : Access} {e y : Entry} (hown : a.owner = .entry e.order) (hy : y.order = e.order) (code : Code) (s : State) :
    endRun a code (withEntry y s) = endEntry e.order code (withEntry { y with done := y.done + a.done } (endAccess s)) := by
  rw [endRun_entry hown]
  exact congrArg _ (updEntry_withEntry hy (f := fun x => { x with done := x.done + a.done }) rfl (endAccess s))

theorem withEntry_self {s : State} (ho : OrdersLawful s) {e : Entry} (he : e ∈ s.work) : withEntry e s = s := by
  show withEntry (id e) s = s
  rw [← updEntry_of_mem ho he (f := id) rfl]
  simp [updEntry]

end Sys2Proof.Machine
end

section
/-! PROOFS. FAULT and POWER, in IMMEDIATE mode, as the sequencer takes them during an APPEND's sector write. -/

namespace Sys2Proof.Machine

open Sys2Proof.Safety

/-- An APPEND's access cut by FAULT, its extent's fill mark known. -/
theorem faultCut_append {s : State} {a : Access} {k : Slot} (hk : a.kind = .appendRun) (hslot : a.slot = some k) :
    faultCut a s = appendFaultCut a k { s with medium := cutMedium s } := by
  simp only [faultCut, hk, withSlot, hslot, tear_eq]

theorem powerCut_append {s : State} {a : Access} {k : Slot} (hk : a.kind = .appendRun) (hslot : a.slot = some k) :
    powerCut a s = appendPowerCut a k { s with medium := cutMedium s } := by
  simp only [powerCut, hk, withSlot, hslot, tear_eq]

/-- The state in which the sequencer has taken POWER as ACTIVE in IMMEDIATE mode. -/
def powerTakenNow (rest : List ShutdownMode) (early : Nat) (s : State) : State :=
  { actedOn .power true s with powerTaken := some .immediate, powerOwed := rest, powerEarly := early }

/-- POWER_ACTIVE as the sequencer takes it in IMMEDIATE mode during a write with no command outstanding (R145). -/
theorem powerActive_cut {s : State} {a : Access} {rest : List ShutdownMode} {early : Nat} (hp : s.ownerActive .power = false)
    (hmode : (s.powerOwed = .immediate :: rest ∧ early = s.powerEarly)
      ∨ (s.powerOwed = [] ∧ rest = [] ∧ s.settings.powerMode = .immediate ∧ early = s.powerEarly + 1))
    (ht : s.seq.state = .transferring) (ha : s.seq.access = some a) (hw : a.kind.writes = true) :
    exec .powerActive (takenBy .owner s) =
      .next (settle (updSeq (fun q => { q with gate := false }) (powerCut a (powerTakenNow rest early s)))) := by
  have hshut : (actedOn .power true s).shutdownMode = .immediate := by
    show s.powerOwed.headD s.settings.powerMode = .immediate
    rcases hmode with ⟨h, -⟩ | ⟨h, -, h', -⟩
    · rw [h]
      rfl
    · rw [h]
      exact h'
  have htake : takeBeginning (actedOn .power true s) = powerTakenNow rest early s := by
    show ({ actedOn .power true s with
      powerTaken := some (actedOn .power true s).shutdownMode, powerOwed := s.powerOwed.tail
      powerEarly := if s.powerOwed.isEmpty then s.powerEarly + 1 else s.powerEarly } : State) = _
    rw [hshut]
    rcases hmode with ⟨h, h'⟩ | ⟨h, h', -, h''⟩
    · rw [h, h']
      rfl
    · rw [h, h', h'']
      rfl
  have hcut : onWriteAccess askCut (powerTakenNow rest early s) = powerCut a (powerTakenNow rest early s) := by
    unfold onWriteAccess
    rw [show (powerTakenNow rest early s).seq.access = some a from ha]
    dsimp only
    have hout : (powerTakenNow rest early s).commandOutstanding = false := by
      show (s.seq.state == .seeking || s.seq.state == .restoring) = false
      rw [ht]
      rfl
    rw [if_pos hw, askCut, hout]
    rfl
  show execPowerActive _ = _
  rw [execPowerActive, lineChange_owner, ownerTakes_change (by simp [hp])]
  unfold shutDown
  dsimp only
  rw [hshut, htake]
  dsimp only
  rw [hcut]

/-- An APPEND's run ended in its cut's HEADER phase by FAULT. -/
theorem appendFaultCut_header {s : State} (ho : OrdersLawful s) {e : Entry} (he : e ∈ s.work) {a : Access} {k : Slot}
    (hown : a.owner = .entry e.order) (hph : s.seq.phase = .header) :
    appendFaultCut a k s =
      fillBecomesUnknown k (endEntry e.order .writeFault (withEntry { e with done := e.done + a.done } (endAccess s))) := by
  unfold appendFaultCut
  rw [hph, appendCut_header]
  dsimp only
  rw [← endRun_withEntry hown rfl, withEntry_self ho he]

theorem appendPowerCut_header {s : State} (ho : OrdersLawful s) {e : Entry} (he : e ∈ s.work) (hk : e.kind = .append) {a : Access}
    {k : Slot} (hown : a.owner = .entry e.order) (hph : s.seq.phase = .header) :
    appendPowerCut a k s =
      fillBecomesUnknown k (endEntry e.order .mediumError
        (withEntry { e.reporting .mediumError with done := e.done + a.done } (endAccess s))) := by
  unfold appendPowerCut
  rw [hph, appendCut_header]
  dsimp only
  rw [reportSector_append ho he hk hown, endRun_withEntry (y := e.reporting .mediumError) hown rfl]
  rfl

/-- The entry of an APPEND with its data sector counted appended as TORN, in a run that had counted `n` before (R141). -/
def Entry.tornAppended (n : Nat) (e : Entry) : Entry :=
  { e.reporting .torn with done := e.done + (n + 1), writeBuffers := e.writeBuffers.tail }

theorem appendFaultCut_data {s : State} (ho : OrdersLawful s) {e : Entry} (he : e ∈ s.work) (hk : e.kind = .append) {a : Access}
    {k : Slot} (hown : a.owner = .entry e.order) (hslot : a.slot = some k) (hpass : a.pass = .work) (hph : s.seq.phase = .data)
    (hmark : a.sector < s.fillMark k) :
    appendFaultCut a k s =
      endEntry e.order .writeFault (withEntry (e.tornAppended a.done) (endAccess (lowerPending k 1 s))) := by
  unfold appendFaultCut
  rw [hph, appendCut_torn hpass hmark]
  dsimp only
  rw [countTorn_entry ho he hk hown hslot]
  exact endRun_withEntry (a := { a with done := a.done + 1 })
    (y := { e.reporting .torn with writeBuffers := e.writeBuffers.tail }) hown rfl .writeFault _

/-- POWER cuts an APPEND past the fill mark: PARKED with data left, or at its end. -/
theorem appendPowerCut_data {s : State} (ho : OrdersLawful s) {e : Entry} (he : e ∈ s.work) (hk : e.kind = .append) {a : Access}
    {k : Slot} (hown : a.owner = .entry e.order) (hslot : a.slot = some k) (hpass : a.pass = .work) (hph : s.seq.phase = .data)
    (hmark : a.sector < s.fillMark k) (hstops : a.stops = []) :
    appendPowerCut a k s =
      if e.writeBuffers.tail.isEmpty then
        runEnds { a with done := a.done + 1 }
          (withEntry { e.reporting .torn with writeBuffers := e.writeBuffers.tail } (lowerPending k 1 s))
      else
        withEntry { e.tornAppended a.done with state := .parked, run := none, allocated := 0, tornNext := false }
          (endAccess (lowerPending k 1 s)) := by
  have hbuf : (withEntry { e.reporting .torn with writeBuffers := e.writeBuffers.tail } (lowerPending k 1 s)).ownerBuffers
      { a with done := a.done + 1 } = e.writeBuffers.tail := by
    have hmem := mem_withEntry (s := lowerPending k 1 s) (y := { e.reporting .torn with writeBuffers := e.writeBuffers.tail }) he rfl
    have hent := entry_of_mem (withEntry_ordersLawful (s := lowerPending k 1 s) ho
      { e.reporting .torn with writeBuffers := e.writeBuffers.tail }) hmem
    unfold State.ownerBuffers
    dsimp only
    rw [hown]
    dsimp only
    rw [show (withEntry { e.reporting .torn with writeBuffers := e.writeBuffers.tail } (lowerPending k 1 s)).entry e.order =
      some { e.reporting .torn with writeBuffers := e.writeBuffers.tail } from hent]
    rfl
  have hfirst : ({ a with done := a.done + 1 } : Access).protectFirst = false := by
    simp [Access.protectFirst, hstops]
  unfold appendPowerCut
  rw [hph, appendCut_torn hpass hmark]
  dsimp only
  rw [countTorn_entry ho he hk hown hslot, hbuf]
  split
  · rfl
  · rw [cutRun, hfirst, if_neg (by simp), stopRun_entry (a := { a with done := a.done + 1 }) hown]
    exact updEntry_withEntry (y := { e.reporting .torn with writeBuffers := e.writeBuffers.tail }) (n := e.order) rfl rfl
      (endAccess (lowerPending k 1 s))

/-- An entry's run at its end, by whether sectors remain (R84, R90). -/
theorem runEnds_entry {s : State} (ho : OrdersLawful s) {e y : Entry} (he : e ∈ s.work) (hy : y.order = e.order) {a : Access}
    (hown : a.owner = .entry e.order) :
    runEnds a (withEntry y s) =
      if y.count - (y.done + a.done) = 0 then
        endEntry e.order y.normalOutcome (withEntry { y with done := y.done + a.done } (endAccess s))
      else boundaryEntry a.nextStop e.order (topUpBoth (withEntry { y with done := y.done + a.done } (endAccess s))) := by
  have hcred : creditRun a (endAccess (withEntry y s)) = withEntry { y with done := y.done + a.done } (endAccess s) := by
    rw [creditRun_entry hown]
    exact updEntry_withEntry hy (f := fun x => { x with done := x.done + a.done }) rfl (endAccess s)
  have hent : (withEntry { y with done := y.done + a.done } (endAccess s)).entry e.order = some { y with done := y.done + a.done } := by
    rw [← hy]
    exact entry_of_mem (s := withEntry { y with done := y.done + a.done } (endAccess s))
      (withEntry_ordersLawful (s := endAccess s) ho _)
      (mem_withEntry (s := endAccess s) (y := { y with done := y.done + a.done }) he hy)
  unfold runEnds
  dsimp only
  rw [hcred, hown]
  dsimp only
  rw [hent]
  rfl

theorem runEnds_entry_last {s : State} (ho : OrdersLawful s) {e y : Entry} (he : e ∈ s.work) (hy : y.order = e.order) {a : Access}
    (hown : a.owner = .entry e.order) (hlast : y.done + a.done = y.count) :
    runEnds a (withEntry y s) =
      endEntry e.order y.normalOutcome (withEntry { y with done := y.done + a.done } (endAccess s)) := by
  rw [runEnds_entry ho he hy hown, if_pos (by omega)]

end Sys2Proof.Machine

namespace Sys2Proof.Proofs

open Sys2Proof.Machine Sys2Proof.Safety

/-- Settles O59, by the line that cuts and by the phase it cuts in (R141). -/
theorem appendCuts : Obligations.AppendCuts := by
  intro a k x f e s ht ha hk hslot hown he hek hes hbuf hx hf hstops ho hl hv hdrain hone hnp
  have hmark : s.fillMark k = f.mark := fillMark_eq hx hf
  have htakes : s.seq.state.takesFault = true := by
    rw [ht]
    rfl
  dsimp only
  refine ⟨fun hfault => ⟨fun hph => ?_, fun hph hpass hlt => ?_⟩, fun rest early hpow hmode => ⟨fun hph => ?_, fun hph hpass hlt hmore => ?_,
    fun hph hpass hlt hlast hcount => ?_⟩⟩
  · have hcut : faultCut a (actedOn .fault true s) = fillBecomesUnknown k (endEntry e.order .writeFault
        (withEntry { e with done := e.done + a.done } (endAccess { actedOn .fault true s with medium := cutMedium s }))) := by
      rw [faultCut_append hk hslot]
      exact appendFaultCut_header (s := { actedOn .fault true s with medium := cutMedium s }) ho he hown hph
    refine ⟨_, faultActive_cut hfault htakes ha hstops, ?_⟩
    rw [hcut]
    exact settle_unknown_end (s := endAccess { actedOn .fault true s with medium := cutMedium s })
      (y := { e with done := e.done + a.done }) ho hl hv he rfl hone hnp Sequencer.cutOff .writeFault
  · have hcut : faultCut a (actedOn .fault true s) = endEntry e.order .writeFault (withEntry (e.tornAppended a.done)
        (endAccess (lowerPending k 1 { actedOn .fault true s with medium := cutMedium s }))) := by
      rw [faultCut_append hk hslot]
      exact appendFaultCut_data (s := { actedOn .fault true s with medium := cutMedium s }) ho he hek hown hslot hpass hph (hmark ▸ hlt)
    refine ⟨_, faultActive_cut hfault htakes ha hstops, ?_⟩
    rw [hcut, updSeq_endEntry]
    exact settle_endEntry_with
      (s := updSeq Sequencer.cutOff (endAccess (lowerPending k 1 { actedOn .fault true s with medium := cutMedium s })))
      (y := e.tornAppended a.done) ho hl hv he rfl .writeFault
  all_goals
    have hexec := powerActive_cut hpow hmode ht ha (by rw [hk]; rfl)
    have hcut : powerCut a (powerTakenNow rest early s) =
        appendPowerCut a k { powerTakenNow rest early s with medium := cutMedium s } := powerCut_append hk hslot
    rw [hcut] at hexec
    refine ⟨_, hexec, ?_⟩
  · rw [appendPowerCut_header (s := { powerTakenNow rest early s with medium := cutMedium s }) ho he hek hown hph]
    exact settle_unknown_end (s := endAccess { powerTakenNow rest early s with medium := cutMedium s })
      (y := { e.reporting .mediumError with done := e.done + a.done }) ho hl hv he rfl hone hnp (fun q => { q with gate := false })
      .mediumError
  all_goals
    rw [appendPowerCut_data (s := { powerTakenNow rest early s with medium := cutMedium s }) ho he hek hown hslot hpass hph (hmark ▸ hlt)
      hstops]
  · rw [if_neg (by simpa using hmore)]
    exact settle_of_sameBut (sameBut_refl _) hl hv
  · rw [if_pos (by simp [hlast]), runEnds_entry_last (a := { a with done := a.done + 1 })
      (s := lowerPending k 1 { powerTakenNow rest early s with medium := cutMedium s })
      (y := { e.reporting .torn with writeBuffers := e.writeBuffers.tail }) ho he rfl hown hcount, updSeq_endEntry]
    have hout : ({ e.reporting .torn with writeBuffers := e.writeBuffers.tail } : Entry).normalOutcome = .done := by
      simp [Entry.normalOutcome, Entry.reporting, hek]
    rw [hout]
    exact settle_endEntry_with
      (s := updSeq (fun q => { q with gate := false })
        (endAccess (lowerPending k 1 { powerTakenNow rest early s with medium := cutMedium s })))
      (y := e.tornAppended a.done) ho hl hv he rfl .done

end Sys2Proof.Proofs
end

section
/-! PROOFS. The label's test, a mount's fill search, and the accesses of a mount (R11, R150 to R153). -/

namespace Sys2Proof.Machine

open Sys2Proof.Safety

/-! ## The label's test (R11) -/

theorem get_mem_toList {α : Type} {n : Nat} (v : Vector α n) (x : α) : x ∈ v.toList ↔ ∃ k : Fin n, v.get k = x := by
  rw [Vector.mem_toList_iff, Vector.mem_iff_getElem]
  exact ⟨fun ⟨i, hi, h⟩ => ⟨⟨i, hi⟩, h⟩, fun ⟨k, h⟩ => ⟨k.val, k.isLt, h⟩⟩

theorem all_wellFormed_iff (m : Vector (Option RawDefinition) 32) :
    (m.toList.all (fun r => match r with | none => true | some raw => (wellFormedDefinition raw).isSome)) = true ↔
      ∀ k raw, m.get k = some raw → (wellFormedDefinition raw).isSome := by
  rw [List.all_eq_true]
  constructor
  · intro h k raw hk
    exact h (some raw) ((get_mem_toList m _).2 ⟨k, hk⟩)
  · intro h r hr
    obtain ⟨k, hk⟩ := (get_mem_toList m r).1 hr
    cases r with
    | none => rfl
    | some raw => exact h k raw hk

/-- Condition 5 of R11. -/
theorem mapDefinitions_eq_some {m : Vector (Option RawDefinition) 32} {ds : Vector (Option Definition) 32} :
    mapDefinitions m = some ds ↔
      (∀ k raw, m.get k = some raw → (wellFormedDefinition raw).isSome) ∧ m.map (fun r => r.bind wellFormedDefinition) = ds := by
  rw [← all_wellFormed_iff, mapDefinitions]
  exact Option.ite_none_right_eq_some.trans (and_congr_right (fun _ => Option.some_inj))

/-- Condition 6 of R11. -/
theorem disjointMap_iff (m : Vector (Option Definition) 32) :
    disjointMap m = true ↔ ∀ j k d e, j ≠ k → m.get j = some d → m.get k = some e → d.last < e.first ∨ e.last < d.first := by
  have hover : ∀ d e : Definition, (!d.overlaps e) = true ↔ d.last < e.first ∨ e.last < d.first := by
    intro d e
    simp only [Definition.overlaps, Bool.not_eq_true', decide_eq_false_iff_not]
    omega
  simp only [disjointMap, List.all_eq_true, Bool.or_eq_true, decide_eq_true_eq]
  constructor
  · intro h
    have upward : ∀ j k d e, j < k → m.get j = some d → m.get k = some e → d.last < e.first ∨ e.last < d.first := by
      intro j k d e hjk hd he
      have hpair := h j (List.mem_finRange j) k (List.mem_finRange k)
      rw [hd, he] at hpair
      rcases hpair with hle | hno
      · exact absurd hjk (not_lt.2 hle)
      · exact (hover d e).1 hno
    intro j k d e hne hd he
    rcases lt_or_gt_of_ne hne with hlt | hlt
    · exact upward j k d e hlt hd he
    · exact (upward k j e d hlt he hd).symm
  · intro h i _ j _
    by_cases hle : j ≤ i
    · exact .inl hle
    · right
      split
      · rename_i d e hd he
        exact (hover d e).2 (h i j d e (fun hij => hle (hij ▸ le_refl _)) hd he)
      · rfl

theorem defectCauseOf_eq {n : Nat} {c : DefectCause} (h : defectCauseOf n = some c) : c.code = n := by
  unfold defectCauseOf at h
  split at h <;> cases h <;> rfl

theorem defectCauseOf_isSome (n : Nat) : (defectCauseOf n).isSome = true ↔ n ≤ 2 := by
  rcases n with _ | _ | _ | n <;> simp [defectCauseOf]

/-- A defect image entry read as a defect list entry stands for itself. -/
theorem defectOf_raw {r : RawDefect} {d : Defect} (h : defectOf r = some d) : d.raw = r := by
  unfold defectOf at h
  split at h
  · rename_i c hc
    split at h
    · cases h
      have hcode := defectCauseOf_eq hc
      unfold Defect.raw
      dsimp only
      rw [hcode]
    · cases h
  · cases h

theorem defectOf_isSome (r : RawDefect) : (defectOf r).isSome = true ↔
    1 ≤ r.cylinder ∧ r.cylinder ≤ 319 ∧ r.head ≤ 1 ∧ r.sector ≤ 11 ∧ r.cause ≤ 2 ∧ 1 ≤ r.count ∧ r.count ≤ 255 := by
  have hcause := defectCauseOf_isSome r.cause
  unfold defectOf
  cases hc : defectCauseOf r.cause with
  | none =>
    rw [hc] at hcause
    simp only [Option.isSome_none, Bool.false_eq_true, false_iff] at hcause ⊢
    omega
  | some c =>
    rw [hc] at hcause
    have hle : r.cause ≤ 2 := hcause.1 rfl
    dsimp only
    split
    · simp only [Option.isSome_some, true_iff]
      omega
    · simp only [Option.isSome_none, Bool.false_eq_true, false_iff]
      omega

/-- Entries in range are all read, in their order. -/
theorem filterMap_defectOf {rs : List RawDefect} (h : ∀ r ∈ rs, (defectOf r).isSome = true) :
    (rs.filterMap defectOf).map Defect.raw = rs := by
  induction rs with
  | nil => rfl
  | cons r rs ih =>
    obtain ⟨d, hd⟩ := Option.isSome_iff_exists.1 (h r (List.mem_cons_self ..))
    rw [List.filterMap_cons_some hd, List.map_cons, defectOf_raw hd, ih (fun x hx => h x (List.mem_cons_of_mem _ hx))]

/-- A label that R11 holds valid is loaded with its map and its defect list. -/
theorem testLabel_lawful {l : Label} (h : LabelLawful l) :
    testLabel l = some (l.map.map (fun r => r.bind wellFormedDefinition), l.defects.filterMap defectOf)
      ∧ (l.defects.filterMap defectOf).map Defect.raw = l.defects := by
  obtain ⟨hmark, hver, hwf, hdis, hlen, hrange, hnd⟩ := h
  have hsome : ∀ d ∈ l.defects, (defectOf d).isSome = true := fun d hd => (defectOf_isSome d).2 (hrange d hd)
  have hmap : mapDefinitions l.map = some (l.map.map (fun r => r.bind wellFormedDefinition)) := by
    rw [mapDefinitions_eq_some]
    exact ⟨hwf, rfl⟩
  have hdef : defectsOf l.defects = some (l.defects.filterMap defectOf) := if_pos ⟨hlen, List.all_eq_true.2 hsome, hnd⟩
  have hdisj : disjointMap (l.map.map (fun r => r.bind wellFormedDefinition)) = true := by
    rw [disjointMap_iff]
    intro j k d e hne hd he
    have hget : ∀ i, (l.map.map (fun r => r.bind wellFormedDefinition)).get i = (l.map.get i).bind wellFormedDefinition := by
      intro i
      simp [Vector.get_eq_getElem]
    rw [hget] at hd he
    exact hdis j k d e hne hd he
  refine ⟨?_, filterMap_defectOf hsome⟩
  unfold testLabel
  rw [hmap, hdef]
  exact if_pos ⟨hmark, hver, hdisj⟩

/-- A label that passes the test is one that R11 holds valid. -/
theorem labelLawful_of_test {l : Label} (h : (testLabel l).isSome = true) : LabelLawful l := by
  unfold testLabel at h
  split at h
  case h_2 => cases h
  case h_1 m ds hm hd =>
    split at h
    case isFalse => cases h
    case isTrue hok =>
      obtain ⟨hmark, hver, hdisj⟩ := hok
      obtain ⟨hwf, rfl⟩ := mapDefinitions_eq_some.1 hm
      unfold defectsOf at hd
      split at hd
      case isFalse => cases hd
      case isTrue hdef =>
        obtain ⟨hlen, hall, hnd⟩ := hdef
        refine ⟨hmark, hver, hwf, ?_, hlen, fun d hdm => (defectOf_isSome d).1 (List.all_eq_true.1 hall d hdm), hnd⟩
        intro j k d e hne hj hk
        refine (disjointMap_iff _).1 hdisj j k d e hne ?_ ?_
        · simpa [Vector.get_eq_getElem] using hj
        · simpa [Vector.get_eq_getElem] using hk

/-! ## The fill search (R152, R153) -/

theorem mountComplete_eq (s : State) : mountComplete s = mounted s := rfl

/-- With the drive free a mount's search begins its next probe. -/
theorem mountAdvance_search {s : State} {k : Slot} {x : Extent} {lo hi : Nat} (hv : s.volume.state = .mounting) (hfree : s.driveFree = true)
    (hx : s.extent k = some x) : mountAdvance (setMount (.search k lo hi) s) = probing k x.defn lo hi s := by
  have hgo : (setMount (.search k lo hi) s).volume.state = .mounting ∧ (setMount (.search k lo hi) s).driveFree = true := ⟨hv, hfree⟩
  unfold mountAdvance
  rw [if_pos hgo]
  show beginProbe k ((lo + hi) / 2) (setMount (.search k lo hi) s) = _
  unfold beginProbe
  rw [show (setMount (.search k lo hi) s).extent k = some x from hx]
  dsimp only
  rw [beginAccess_eq_begun]
  rfl

/-- The search goes on from a slot, in the words of the claims. -/
theorem searchFrom_eq {s : State} (hv : s.volume.state = .mounting) (hfree : s.driveFree = true) (i : Nat) : searchFrom i s = searchOn i s := by
  have hnext : s.nextAppend i =
      (List.finRange 32).find? (fun k => decide (i ≤ k.val) && (s.extent k).any (fun e => e.defn.kind == .append)) := by
    unfold State.nextAppend
    congr 1
    funext k
    cases s.extent k <;> rfl
  unfold searchFrom searchOn
  rw [hnext]
  generalize (List.finRange 32).find? _ = next
  cases next with
  | none => exact mountComplete_eq s
  | some k =>
    dsimp only
    cases hx : s.extent k with
    | none => rfl
    | some e => exact mountAdvance_search hv hfree hx

theorem mounted_repliesLawful {s : State} (hl : RepliesLawful s) : RepliesLawful (mounted s) :=
  repliesLawful_congr hl (fun ch => by cases ch <;> exact ⟨rfl, rfl⟩)

/-- Settling while a mount goes on or as it completes changes reservations alone. -/
theorem settle_of_mounting {s : State} (hl : RepliesLawful s) (hv : s.volume.state = .mounting ∨ s.volume.state = .mounted) :
    SameButReservations s (settle s) := by
  rw [settle_of_lawful (by rcases hv with h | h <;> simp [h]) (by rcases hv with h | h <;> simp [h]) hl]
  exact sameButReservations_topUpBoth s

theorem settle_mounted {s : State} (hl : RepliesLawful s) : SameButReservations (mounted s) (settle (mounted s)) :=
  settle_of_mounting (mounted_repliesLawful hl) (.inr rfl)

theorem settle_searchOn {s : State} (hl : RepliesLawful s) (hv : s.volume.state = .mounting) (i : Nat) :
    SameButReservations (searchOn i s) (settle (searchOn i s)) := by
  unfold searchOn
  split
  · split
    · exact settle_of_mounting (s := probing _ _ _ _ s) hl (.inl hv)
    · exact settle_of_mounting hl (.inl hv)
  · exact settle_mounted hl

/-! ## The ends of a mount's accesses (R151, R152) -/

theorem mountAccessEnds_eq {s : State} (hv : s.volume.state = .mounting) (f : State → State) : mountAccessEnds f s = f (endAccess s) :=
  if_pos hv

theorem driveFree_endAccess (s : State) : (endAccess s).driveFree = true := rfl

/-- A valid label loaded (R151). -/
theorem labelFound_lawful {s : State} (hv : s.volume.state = .mounting) (hfree : s.driveFree = true) {l : Label} (h : LabelLawful l) :
    labelFound (some l) s =
      searchOn 0
        { s with
          volume := { s.volume with label := some .valid, serial := some l.serial }
          extents := Vector.ofFn (fun k => ((l.map.get k).bind wellFormedDefinition).map (fun d =>
            { defn := d, fill := if d.kind = .append then some { mark := 0, state := .unknown, pending := 0 } else none
              clearing := false }))
          seq := { s.seq with defects := l.defects.filterMap defectOf, overflow := false } } := by
  have hext : (l.map.map (fun r => r.bind wellFormedDefinition)).map (fun d => d.map mountedExtent) =
      Vector.ofFn (fun k => ((l.map.get k).bind wellFormedDefinition).map (fun d =>
        { defn := d, fill := if d.kind = .append then some { mark := 0, state := .unknown, pending := 0 } else none
          clearing := false })) := by
    refine Vector.ext (fun i hi => ?_)
    simp only [Vector.get_eq_getElem, Vector.getElem_map, Vector.getElem_ofFn]
    rfl
  unfold labelFound
  rw [Option.bind_some, (testLabel_lawful h).1]
  dsimp only
  rw [hext]
  refine searchFrom_eq ?_ ?_ 0
  · exact hv
  · have hsame : (s.seq.access.isNone && s.seq.state == .idle) = true := hfree
    exact hsame

/-- An invalid label, or none (R151). -/
theorem labelFound_unlawful {s : State} {o : Option Label} (h : ∀ l, o = some l → ¬ LabelLawful l) :
    labelFound o s = mounted { s with volume := { s.volume with label := some .unlabelled } } := by
  have hnone : o.bind testLabel = none := by
    cases o with
    | none => rfl
    | some l =>
      cases ht : testLabel l with
      | none => exact ht
      | some x => exact absurd (labelLawful_of_test (by rw [ht]; rfl)) (h l rfl)
  unfold labelFound
  rw [hnone]
  exact mountComplete_eq _

theorem readRetries_volume {s : State} {a : Access} (h : a.cls = none) : s.readRetries a = 4 := by
  simp [State.readRetries, h]

/-- The last allowed attempt at a read of the mount has failed. -/
theorem readAttemptFails_last {s : State} {a : Access} (hv : s.volume.state = .mounting) (hcls : a.cls = none) (hf : 4 ≤ a.failed)
    (cause : DefectCause) : readAttemptFails a cause s = readFails a cause s := by
  unfold readAttemptFails
  rw [mountWasCut_false (fun _ => hv), if_neg (by simp), readRetries_volume hcls, if_neg (by omega)]

/-- The record of a failed sector, in the words of the claims (R135). -/
theorem recordDefect_eq (a : Access) (cause : DefectCause) (s : State) :
    recordDefect a.cylinder (headOf a.sector) (sectorOf a.sector) cause s =
      { s with seq := defectRecorded a cause s.clock s.seq } := by
  unfold recordDefect defectRecorded
  rw [show a.cylinder = a.base + a.sector / 24 from rfl]
  split
  · rfl
  · rw [show (s.seq.defects.any (fun d => d.atAddress (a.base + a.sector / 24) (headOf a.sector) (sectorOf a.sector))) =
      s.seq.defects.any (atSector a) from rfl]
    split
    · rfl
    · split <;> rfl

/-- The consecutive mismatches after a header at which the address check does not pass (R122). -/
theorem noteCheck_not_right {a : Access} {h : HeaderImage} (hr : ¬ AddressRight a h) (s : State) :
    noteCheck (checkAddress a h) s = { s with seq := headerSeen a h s.seq } := by
  unfold headerSeen
  rw [if_neg hr]
  by_cases hw : AddressWrong a h
  · rw [checkAddress_of_wrong hw, if_pos hw]
    rfl
  · have hbad : h.check ≠ headerCheck h.cylinder h.head h.sector h.state := fun hc =>
      hw ⟨hc, fun ha => hr ⟨hc, ha⟩⟩
    rw [checkAddress_of_unreadable hbad, if_neg hw]
    rfl

/-- On a reading passage a header at which the address check does not pass is a failed attempt (R122). -/
theorem headerChecked_not_right {a : Access} {h : HeaderImage} (hr : ¬ AddressRight a h) (hpass : a.pass = .work)
    (hw : a.kind.writes = false) (s : State) : headerChecked a (checkAddress a h) s = settle (readAttemptFails a .header s) := by
  have hfails : checkFails a s = readAttemptFails a .header s := by
    unfold checkFails
    rw [hpass]
    dsimp only
    rw [hw]
    rfl
  rw [← hfails]
  unfold headerChecked
  rw [hpass]
  by_cases hwr : AddressWrong a h
  · rw [checkAddress_of_wrong hwr]
  · have hbad : h.check ≠ headerCheck h.cylinder h.head h.sector h.state := fun hc =>
      hwr ⟨hc, fun ha => hr ⟨hc, ha⟩⟩
    rw [checkAddress_of_unreadable hbad]
    dsimp only
    rw [hw]
    rfl

/-- HEADER_READ_COMPLETE of a reading passage at the right address (R122, R124). -/
theorem headerReadComplete_right {s : State} {a : Access} {h : HeaderImage} (ht : s.seq.state = .transferring)
    (hp : s.seq.phase = .headerCheck) (ha : s.seq.access = some a) (hpass : a.pass = .work) (hw : a.kind.writes = false)
    (hr : AddressRight a h) :
    exec (.headerReadComplete h) s = .next (readHeader a h.state (noteCheck (.passed h.state) s)) := by
  show execHeaderReadComplete h s = _
  rw [execHeaderReadComplete, inPhase_eq ht hp ha]
  dsimp only
  rw [checkAddress_of_right hr]
  simp only [headerChecked, hpass, hw, Bool.false_eq_true, if_false]

end Sys2Proof.Machine
end

section
/-! PROOFS. The accesses of a mount: the label read and the probes of the fill search. -/

namespace Sys2Proof.Proofs

open Sys2Proof.Machine Sys2Proof.Safety

/-- DATA_READ_COMPLETE of a mount's label read whose field is good (R151). -/
theorem dataReadComplete_label {s : State} {a : Access} {f : FieldImage} (ht : s.seq.state = .transferring)
    (hp : s.seq.phase = .dataRead) (ha : s.seq.access = some a) (hk : a.kind = .labelRead) (hv : s.volume.state = .mounting)
    (hgood : f.check = crc f.data.toList) :
    exec (.dataReadComplete f) s = .next (settle (labelFound f.contents (endAccess s))) := by
  have hf : fieldGood f = true := beq_iff_eq.2 hgood
  show execDataReadComplete f s = _
  rw [execDataReadComplete, inPhase_eq ht hp ha]
  dsimp only
  rw [if_pos hf]
  unfold goodField
  rw [hk]
  dsimp only
  rw [mountAccessEnds_eq hv]

/-- The last allowed attempt at a mount's label read fails: nothing is recorded of the label sector (R135, R151). -/
theorem dataReadComplete_label_failed {s : State} {a : Access} {f : FieldImage} (ht : s.seq.state = .transferring)
    (hp : s.seq.phase = .dataRead) (ha : s.seq.access = some a) (hk : a.kind = .labelRead) (hcls : a.cls = none) (hbase : a.base = 0)
    (hsector : a.sector = 0) (hv : s.volume.state = .mounting) (hbad : f.check ≠ crc f.data.toList) (hlast : 4 ≤ a.failed) :
    exec (.dataReadComplete f) s = .next (settle (labelFound none (endAccess s))) := by
  have hf : ¬ fieldGood f = true := fun h => hbad (beq_iff_eq.1 h)
  have hrec : recordDefect a.cylinder (headOf a.sector) (sectorOf a.sector) .read s = s := by
    have hzero : a.cylinder = 0 := by simp [Access.cylinder, cylinderOf, hbase, hsector]
    rw [recordDefect, if_pos (.inl hzero)]
  show execDataReadComplete f s = _
  rw [execDataReadComplete, inPhase_eq ht hp ha]
  dsimp only
  rw [if_neg hf, readAttemptFails_last hv hcls hlast]
  unfold readFails
  rw [hrec, hk]
  dsimp only
  rw [mountAccessEnds_eq hv]

/-- A mount's label read finds a header that is not WRITTEN (R11, R151). -/
theorem headerReadComplete_label {s : State} {a : Access} {h : HeaderImage} (ht : s.seq.state = .transferring)
    (hp : s.seq.phase = .headerCheck) (ha : s.seq.access = some a) (hk : a.kind = .labelRead) (hpass : a.pass = .work)
    (hv : s.volume.state = .mounting) (hr : AddressRight a h) (hst : h.state ≠ .written) :
    exec (.headerReadComplete h) s =
      .next (settle (labelFound none (endAccess (updSeq (fun q => { q with mismatches := 0 }) s)))) := by
  have hw : a.kind.writes = false := by rw [hk]; rfl
  rw [headerReadComplete_right ht hp ha hpass hw hr]
  unfold readHeader
  rw [hk]
  cases hs : h.state with
  | written => exact absurd hs hst
  | blank =>
    dsimp only
    rw [mountAccessEnds_eq (s := noteCheck (.passed .blank) s) hv]
    rfl
  | void =>
    dsimp only
    rw [mountAccessEnds_eq (s := noteCheck (.passed .void) s) hv]
    rfl

/-- Tables that stand empty stand so but for reservations. -/
theorem tables_of_sameBut {s t : State} (h : SameButReservations s t) (hx : ∀ k, s.extent k = none) (hd : s.seq.defects = []) :
    (∀ k, t.extent k = none) ∧ t.seq.defects = [] := by
  rw [h.1]
  exact ⟨hx, hd⟩

/-- A mount left UNLABELLED, as the step that finds it so leaves it (R151). -/
theorem settle_unlabelled {s : State} (hl : RepliesLawful s) {o : Option Label} (h : ∀ l, o = some l → ¬ LabelLawful l) :
    SameButReservations (mounted { s with volume := { s.volume with label := some .unlabelled } }) (settle (labelFound o s)) := by
  rw [labelFound_unlawful h]
  exact settle_mounted (s := { s with volume := { s.volume with label := some .unlabelled } }) hl

/-- A probe reports a header state: the search is halved, or its end stands (R152). -/
theorem probeFound_state {s : State} {k : Slot} {lo hi : Nat} {x : Extent} (hv : s.volume.state = .mounting) (hfree : s.driveFree = true)
    (hm : s.volume.mount = .search k lo hi) (hx : s.extent k = some x) (st : HeaderState) :
    probeFound (some st) s =
      if (if st = .blank then lo else (lo + hi) / 2 + 1) < (if st = .blank then (lo + hi) / 2 else hi) then
        probing k x.defn (if st = .blank then lo else (lo + hi) / 2 + 1) (if st = .blank then (lo + hi) / 2 else hi) s
      else
        searchOn (k.val + 1)
          (updFill k (fun f => { f with mark := if st = .blank then lo else (lo + hi) / 2 + 1, state := .known }) s) := by
  unfold probeFound
  rw [hm]
  dsimp only
  rw [mountAdvance_search hv hfree hx]
  congr 1
  exact searchFrom_eq (s := updFill k (fun f => { f with mark := if st = .blank then lo else (lo + hi) / 2 + 1, state := .known }) s)
    hv hfree (k.val + 1)

/-- A probe has failed its last attempt (R152). -/
theorem probeFound_none {s : State} {k : Slot} {lo hi : Nat} (hv : s.volume.state = .mounting) (hfree : s.driveFree = true)
    (hm : s.volume.mount = .search k lo hi) :
    probeFound none s = searchOn (k.val + 1) (updFill k (fun f => { f with mark := 0, state := .unknown }) s) := by
  unfold probeFound
  rw [hm]
  exact searchFrom_eq (s := updFill k (fun f => { f with mark := 0, state := .unknown }) s) hv hfree (k.val + 1)

/-- HEADER_READ_COMPLETE of a probe at the right address (R152). -/
theorem headerReadComplete_probe {s : State} {a : Access} {h : HeaderImage} (ht : s.seq.state = .transferring)
    (hp : s.seq.phase = .headerCheck) (ha : s.seq.access = some a) (hk : a.kind = .probe) (hpass : a.pass = .work)
    (hv : s.volume.state = .mounting) (hr : AddressRight a h) :
    exec (.headerReadComplete h) s =
      .next (settle (probeFound (some h.state) (endAccess (updSeq (fun q => { q with mismatches := 0 }) s)))) := by
  have hw : a.kind.writes = false := by rw [hk]; rfl
  rw [headerReadComplete_right ht hp ha hpass hw hr]
  unfold readHeader
  rw [hk]
  dsimp only
  rw [mountAccessEnds_eq (s := noteCheck (.passed h.state) s) hv]
  rfl

/-- A probe's last allowed attempt fails at its address check: its sector is recorded (R135, R152). -/
theorem headerReadComplete_probe_failed {s : State} {a : Access} {h : HeaderImage} (ht : s.seq.state = .transferring)
    (hp : s.seq.phase = .headerCheck) (ha : s.seq.access = some a) (hk : a.kind = .probe) (hcls : a.cls = none) (hpass : a.pass = .work)
    (hv : s.volume.state = .mounting) (hr : ¬ AddressRight a h) (hlast : 4 ≤ a.failed) :
    exec (.headerReadComplete h) s =
      .next (settle (probeFound none (endAccess { s with seq := defectRecorded a .header s.clock (headerSeen a h s.seq) }))) := by
  have hw : a.kind.writes = false := by rw [hk]; rfl
  have hvt : ({ s with seq := headerSeen a h s.seq } : State).volume.state = .mounting := hv
  show execHeaderReadComplete h s = _
  rw [execHeaderReadComplete, inPhase_eq ht hp ha]
  dsimp only
  rw [noteCheck_not_right hr, headerChecked_not_right hr hpass hw, readAttemptFails_last hvt hcls hlast]
  unfold readFails
  rw [recordDefect_eq, hk]
  dsimp only
  rw [mountAccessEnds_eq (by exact hv)]

/-- Settles O52: the label read by what its field or header says, the probe by its bounds. -/
theorem mountLabelAndFillSearch : Obligations.MountLabelAndFillSearch := by
  refine ⟨fun a s ht ha hk _ hcls hpass hbase hsector hv hl hx hd => ?_, fun h a k lo hi x s ht hp ha hk _ hcls hpass hv hm hx hl => ?_⟩
  · dsimp only
    refine ⟨fun f l hp hgood hcon hlaw => ?_, fun f hp hgood hcon => ?_, fun f hp hbad hlast => ?_, fun h hp hr hst => ?_⟩
    · refine ⟨l.defects.filterMap defectOf, (testLabel_lawful hlaw).2, _, dataReadComplete_label ht hp ha hk hv hgood, ?_⟩
      rw [hcon, labelFound_lawful (s := endAccess s) hv (driveFree_endAccess s) hlaw]
      generalize Vector.ofFn _ = table
      exact settle_searchOn
        (s := { endAccess s with
          volume := { s.volume with label := some .valid, serial := some l.serial }, extents := table
          seq := { ended s.seq with defects := l.defects.filterMap defectOf, overflow := false } }) hl hv 0
    · have hsame := settle_unlabelled (s := endAccess s) hl hcon
      exact ⟨_, dataReadComplete_label ht hp ha hk hv hgood, hsame, tables_of_sameBut hsame hx hd⟩
    · have hsame := settle_unlabelled (s := endAccess s) (o := none) hl (fun l h => nomatch h)
      exact ⟨_, dataReadComplete_label_failed ht hp ha hk hcls hbase hsector hv hbad hlast, hsame, tables_of_sameBut hsame hx hd⟩
    · have hsame := settle_unlabelled (s := endAccess (updSeq (fun q => { q with mismatches := 0 }) s)) (o := none) hl
        (fun l h => nomatch h)
      exact ⟨_, headerReadComplete_label ht hp ha hk hpass hv hr hst, hsame, tables_of_sameBut hsame hx hd⟩
  · dsimp only
    have hstate := probeFound_state (s := endAccess (updSeq (fun q => { q with mismatches := 0 }) s)) hv (driveFree_endAccess _) hm hx
      h.state
    refine ⟨fun hr hlt => ?_, fun hr hle => ?_, fun hr hlast => ?_⟩
    · refine ⟨_, headerReadComplete_probe ht hp ha hk hpass hv hr, ?_⟩
      rw [hstate, if_pos hlt]
      exact settle_of_mounting (s := probing k x.defn _ _ (endAccess (updSeq (fun q => { q with mismatches := 0 }) s))) hl (.inl hv)
    · refine ⟨_, headerReadComplete_probe ht hp ha hk hpass hv hr, ?_⟩
      rw [hstate, if_neg (not_lt.2 hle)]
      exact settle_searchOn (s := updFill k _ (endAccess (updSeq (fun q => { q with mismatches := 0 }) s))) hl hv (k.val + 1)
    · refine ⟨_, headerReadComplete_probe_failed ht hp ha hk hcls hpass hv hr hlast, ?_⟩
      rw [probeFound_none (s := endAccess { s with seq := defectRecorded a .header s.clock (headerSeen a h s.seq) }) hv
        (driveFree_endAccess _) hm]
      exact settle_searchOn
        (s := updFill k _ (endAccess { s with seq := defectRecorded a .header s.clock (headerSeen a h s.seq) })) hl hv (k.val + 1)

end Sys2Proof.Proofs
end

section
/-! PROOFS. What the endings of one step keep: finished entries, replies that are due, and what placing them comes to. -/

namespace Sys2Proof.Machine

open Sys2Proof.Safety

/-! ## Entries by their order -/

theorem entry_order {s : State} {n : Nat} {x : Entry} (h : s.entry n = some x) : x.order = n :=
  of_decide_eq_true (List.find?_some (p := fun e : Entry => decide (e.order = n)) h)

theorem mem_of_entry {s : State} {n : Nat} {x : Entry} (h : s.entry n = some x) : x ∈ s.work := List.mem_of_find?_eq_some h

theorem entry_of_nodup {s : State} (hn : (s.work.map (fun e => e.order)).Nodup) {e : Entry} (he : e ∈ s.work) :
    s.entry e.order = some e := find?_order hn he

theorem entry_map {s : State} {f : Entry → Entry} (hf : ∀ x, (f x).order = x.order) (n : Nat) :
    ({ s with work := s.work.map f } : State).entry n = (s.entry n).map f := by
  unfold State.entry
  simp only [List.find?_map, Function.comp_def, hf]

theorem entry_updEntry {s : State} {m : Nat} {f : Entry → Entry} (hf : ∀ x, (f x).order = x.order) (n : Nat) :
    (updEntry m f s).entry n = if n = m then (s.entry n).map f else s.entry n := by
  have hif : ∀ x : Entry, (if x.order = m then f x else x).order = x.order := by
    intro x
    split
    · exact hf x
    · rfl
  refine (entry_map hif n).trans ?_
  cases hx : s.entry n with
  | none => simp
  | some x =>
    rw [Option.map_some, entry_order hx]
    split <;> rfl

theorem entry_dropEntry (s : State) (m n : Nat) : (dropEntry m s).entry n = if n = m then none else s.entry n := by
  show (s.work.filter (fun e => decide (e.order ≠ m))).find? (fun e => decide (e.order = n)) = _
  rw [List.find?_filter]
  by_cases h : n = m
  · subst h
    rw [if_pos rfl, List.find?_eq_none]
    intro x _ hx
    simp at hx
  · rw [if_neg h]
    unfold State.entry
    congr 1
    funext x
    by_cases hx : x.order = n
    · simp [hx, h]
    · simp [hx]

/-- An entry of a state stands in one alike but for reservations, and none else. -/
theorem entry_of_sameBut {s t : State} (h : SameButReservations s t) {n : Nat} {x : Entry} (hx : t.entry n = some x) :
    ∃ y, s.entry n = some y ∧ bareEntry x = bareEntry y := by
  obtain ⟨r, hr⟩ := sameBut_entry (sameBut_symm h) hx
  exact ⟨_, hr, rfl⟩

/-! ## What an ending touches -/

/-- The end of an entry touches ports, extents and the work list alone. -/
theorem endEntry_frame (n : Nat) (code : Code) (s : State) :
    endEntry n code s =
      { s with ports := (endEntry n code s).ports, extents := (endEntry n code s).extents, work := (endEntry n code s).work } := by
  unfold endEntry
  dsimp only
  repeat' split
  all_goals rfl

/-- The entry that an ending leaves FINISHED. -/
def Entry.finishedWith (code : Code) (e : Entry) : Entry :=
  { e with state := .finished, outcome := some code, writeBuffers := [], allocated := 0, reserved := 0, run := none, deadline := none }

/-- Whether an ended entry leaves with no completion (R91, R92). -/
def Entry.leavesSilently (code : Code) (e : Entry) : Bool :=
  e.discard || (e.flags.quiet && code == .done && !e.late && e.conditions.isEmpty)

/-- The end of an entry that stands in the list: its appends pending are released, and it leaves or is FINISHED and due. -/
theorem endEntry_some {s : State} {e : Entry} (he : s.entry e.order = some e) (code : Code) :
    endEntry e.order code s =
      if e.leavesSilently code = true then dropEntry e.order (pendingReleased e s)
      else addDue e.channel (.entry e.order) (updEntry e.order (Entry.finishedWith code) (pendingReleased e s)) := by
  unfold endEntry pendingReleased
  rw [he]
  dsimp only
  cases e.kind
  case append => cases e.slot <;> rfl
  all_goals rfl

theorem endEntry_none {s : State} {n : Nat} (h : s.entry n = none) (code : Code) : endEntry n code s = s := by
  rw [endEntry, h]

theorem pendingReleased_entry (e : Entry) (s : State) (n : Nat) : (pendingReleased e s).entry n = s.entry n := by
  obtain ⟨g, hg⟩ := pendingReleased_extents e
  rw [hg]
  rfl

/-- The end of an entry leaves every other entry as it was. -/
theorem endEntry_entry_ne {m n : Nat} (h : n ≠ m) (code : Code) (s : State) : (endEntry m code s).entry n = s.entry n := by
  cases he : s.entry m with
  | none => rw [endEntry_none he]
  | some e =>
    obtain rfl : e.order = m := entry_order he
    rw [endEntry_some he]
    split
    · rw [entry_dropEntry, if_neg h, pendingReleased_entry]
    · refine (entry_updEntry (f := Entry.finishedWith code) (fun _ => rfl) n).trans ?_
      rw [if_neg h, pendingReleased_entry]

/-! ## A reply that is due to its own channel -/

/-- Where a queue has room, the entries its due list names are FINISHED ones of its own channel. -/
def DueOwn (s : State) : Prop :=
  ∀ ch, (s.port ch).queue.length < 4 → ∀ m, Due.entry m ∈ (s.port ch).due → ∀ x, s.entry m = some x →
    x.channel = ch ∧ x.state = .finished

/-- The law of R177 leaves no due list under a queue with room. -/
theorem dueOwn_of_lawful {s : State} (hl : RepliesLawful s) : DueOwn s := by
  intro ch hroom m hm
  have hfull := (hl ch).2 (List.ne_nil_of_mem hm)
  omega

/-- Endings on the way from one state to another: no reply has left or joined a queue, no event is gone, a FINISHED entry stands as it did,
what is due is due to its own channel, and no entry has come or come alive. -/
structure EndingSteps (s t : State) : Prop where
  queue : ∀ ch, (t.port ch).queue = (s.port ch).queue
  events : ∀ ch k, hasEvent (s.port ch).events k = true → hasEvent (t.port ch).events k = true
  kept : ∀ n x, s.entry n = some x → x.state = .finished → t.entry n = some x
  dues : DueOwn s → DueOwn t
  orders : (t.work.map (fun e => e.order)).Sublist (s.work.map (fun e => e.order))
  live : ∀ x ∈ t.work, x.live = true → ∃ y ∈ s.work, y.live = true ∧ y.order = x.order

theorem EndingSteps.refl (s : State) : EndingSteps s s :=
  ⟨fun _ => rfl, fun _ _ h => h, fun _ _ h _ => h, id, List.Sublist.refl _, fun x hx h => ⟨x, hx, h, rfl⟩⟩

theorem EndingSteps.trans {s t u : State} (h : EndingSteps s t) (h' : EndingSteps t u) : EndingSteps s u where
  queue ch := (h'.queue ch).trans (h.queue ch)
  events ch k he := h'.events ch k (h.events ch k he)
  kept n x hx hf := h'.kept n x (h.kept n x hx hf) hf
  dues hd := h'.dues (h.dues hd)
  orders := h'.orders.trans h.orders
  live x hx hlive := by
    obtain ⟨y, hy, hyl, hyo⟩ := h'.live x hx hlive
    obtain ⟨z, hz, hzl, hzo⟩ := h.live y hy hyl
    exact ⟨z, hz, hzl, hzo.trans hyo⟩

theorem EndingSteps.nodup {s t : State} (h : EndingSteps s t) (hn : (s.work.map (fun e => e.order)).Nodup) :
    (t.work.map (fun e => e.order)).Nodup := hn.sublist h.orders

/-- A change that leaves the work list, the queues and the due lists and takes no event away. -/
theorem endingSteps_of_work {s t : State} (hw : t.work = s.work) (hq : ∀ ch, (t.port ch).queue = (s.port ch).queue)
    (hd : ∀ ch m, Due.entry m ∈ (t.port ch).due → Due.entry m ∈ (s.port ch).due)
    (he : ∀ ch k, hasEvent (s.port ch).events k = true → hasEvent (t.port ch).events k = true) : EndingSteps s t where
  queue := hq
  events := he
  kept n x hx _ := by rw [State.entry, hw]; exact hx
  dues hown ch hroom m hm x hx := by
    rw [State.entry, hw] at hx
    rw [hq] at hroom
    exact hown ch hroom m (hd ch m hm) x hx
  orders := by rw [hw]
  live x hx hlive := ⟨x, hw ▸ hx, hlive, rfl⟩

theorem endingSteps_pendingReleased (e : Entry) (s : State) : EndingSteps s (pendingReleased e s) := by
  obtain ⟨g, hg⟩ := pendingReleased_extents e
  rw [hg]
  exact endingSteps_of_work rfl (fun _ => rfl) (fun _ _ h => h) (fun _ _ h => h)

theorem dropEntry_port (n : Nat) (s : State) (ch : Channel) :
    ((dropEntry n s).port ch).queue = (s.port ch).queue ∧ ((dropEntry n s).port ch).due = (s.port ch).due
      ∧ ((dropEntry n s).port ch).events = (s.port ch).events := by
  cases ch <;> exact ⟨rfl, rfl, rfl⟩

theorem addDue_port (c : Channel) (d : Due) (s : State) (ch : Channel) :
    (addDue c d s).port ch = if ch = c then { s.port ch with due := (s.port ch).due ++ [d] } else s.port ch := by
  unfold addDue
  rw [updPort_port]
  split
  · subst_vars
    rfl
  · rfl

theorem endEntry_orders (m : Nat) (code : Code) (s : State) :
    ((endEntry m code s).work.map (fun e => e.order)).Sublist (s.work.map (fun e => e.order)) := by
  cases he : s.entry m with
  | none => rw [endEntry_none he]
  | some e =>
    obtain rfl : e.order = m := entry_order he
    rw [endEntry_some he]
    have hrel := (endingSteps_pendingReleased e s).orders
    split
    · exact (List.filter_sublist.map _).trans hrel
    · have horders : (updEntry e.order (Entry.finishedWith code) (pendingReleased e s)).work.map (fun e => e.order) =
          (pendingReleased e s).work.map (fun e => e.order) := updEntry_orders (f := Entry.finishedWith code) (fun _ => rfl) _
      show ((updEntry e.order (Entry.finishedWith code) (pendingReleased e s)).work.map (fun e => e.order)).Sublist _
      rw [horders]
      exact hrel

/-- Where R177's law held, what is due after an entry's end is due to its own channel. -/
theorem dueOwn_endEntry {s : State} (hl : RepliesLawful s) (m : Nat) (code : Code) : DueOwn (endEntry m code s) := by
  cases he : s.entry m with
  | none =>
    rw [endEntry_none he]
    exact dueOwn_of_lawful hl
  | some e =>
    obtain rfl : e.order = m := entry_order he
    rw [endEntry_some he]
    obtain ⟨g, hg⟩ := pendingReleased_extents e
    have hport : ∀ ch, (pendingReleased e s).port ch = s.port ch := fun ch => by rw [hg]; rfl
    split
    · have hdrop := dropEntry_port e.order (pendingReleased e s)
      intro ch hroom m hm
      rw [(hdrop ch).1, hport] at hroom
      rw [(hdrop ch).2.1, hport] at hm
      have hfull := (hl ch).2 (List.ne_nil_of_mem hm)
      omega
    · have hdue := addDue_port e.channel (.entry e.order) (updEntry e.order (Entry.finishedWith code) (pendingReleased e s))
      intro ch hroom n hn x hx
      rw [hdue, show (updEntry e.order (Entry.finishedWith code) (pendingReleased e s)).port ch = s.port ch from hport ch] at hroom hn
      have hempty : (s.port ch).queue.length < 4 → (s.port ch).due = [] := fun h => by
        by_contra hne
        have hfull := (hl ch).2 hne
        omega
      by_cases hch : ch = e.channel
      · rw [if_pos hch] at hroom hn
        rw [show (s.port ch).due = [] from hempty hroom] at hn
        obtain rfl : n = e.order := Due.entry.inj (List.mem_singleton.1 hn)
        have hx' : (updEntry e.order (Entry.finishedWith code) (pendingReleased e s)).entry e.order = some x := hx
        rw [entry_updEntry (f := Entry.finishedWith code) (fun _ => rfl), if_pos rfl, pendingReleased_entry, he] at hx'
        obtain rfl := Option.some.inj hx'
        exact ⟨hch.symm, rfl⟩
      · rw [if_neg hch] at hroom hn
        rw [hempty hroom] at hn
        exact absurd hn List.not_mem_nil

/-- An entry that is not FINISHED ends. -/
theorem endingSteps_endEntry {s : State} {m : Nat} (hm : ∀ x, s.entry m = some x → x.state ≠ .finished) (code : Code) :
    EndingSteps s (endEntry m code s) := by
  have kept : ∀ n x, s.entry n = some x → x.state = .finished → (endEntry m code s).entry n = some x := by
    intro n x hx hf
    have hne : n ≠ m := fun h => hm x (h ▸ hx) hf
    rw [endEntry_entry_ne hne, hx]
  have live : ∀ x ∈ (endEntry m code s).work, x.live = true → ∃ y ∈ s.work, y.live = true ∧ y.order = x.order := by
    intro x hx hlive
    rcases mem_endEntry hx with ⟨hmem, -⟩ | ⟨-, hfin⟩
    · exact ⟨x, hmem, hlive, rfl⟩
    · simp [Entry.live, hfin] at hlive
  have orders := endEntry_orders m code s
  cases he : s.entry m with
  | none =>
    rw [endEntry_none he]
    exact EndingSteps.refl s
  | some e =>
    obtain rfl : e.order = m := entry_order he
    rw [endEntry_some he] at kept live orders ⊢
    have hrel := endingSteps_pendingReleased e s
    have hent := pendingReleased_entry e s
    by_cases hsil : e.leavesSilently code = true
    · rw [if_pos hsil] at kept live orders ⊢
      have hport := dropEntry_port e.order (pendingReleased e s)
      refine ⟨fun ch => (hport ch).1.trans (hrel.queue ch), fun ch k h => ?_, kept, fun hown ch hroom n hn x hx => ?_, orders, live⟩
      · rw [(hport ch).2.2]
        exact hrel.events ch k h
      · rw [(hport ch).1] at hroom
        rw [(hport ch).2.1] at hn
        rw [entry_dropEntry] at hx
        split at hx
        · cases hx
        · exact hrel.dues hown ch hroom n hn x hx
    · rw [if_neg hsil] at kept live orders ⊢
      have hupd : ∀ n, (updEntry e.order (Entry.finishedWith code) (pendingReleased e s)).entry n =
          if n = e.order then (s.entry n).map (Entry.finishedWith code) else s.entry n := by
        intro n
        rw [entry_updEntry (f := Entry.finishedWith code) (fun _ => rfl), hent]
      have hdue := addDue_port e.channel (.entry e.order) (updEntry e.order (Entry.finishedWith code) (pendingReleased e s))
      refine ⟨fun ch => ?_, fun ch k h => ?_, kept, fun hown ch hroom n hn x hx => ?_, orders, live⟩
      · rw [hdue]
        split <;> exact hrel.queue ch
      · rw [hdue]
        split <;> exact hrel.events ch k h
      · have hx' : (if n = e.order then (s.entry n).map (Entry.finishedWith code) else s.entry n) = some x := (hupd n).symm.trans hx
        rw [hdue] at hroom hn
        have hroom' : ((pendingReleased e s).port ch).queue.length < 4 := by
          by_cases hch : ch = e.channel
          · rwa [if_pos hch] at hroom
          · rwa [if_neg hch] at hroom
        by_cases hne : n = e.order
        · rw [if_pos hne, hne, he] at hx'
          obtain rfl := Option.some.inj hx'
          refine ⟨?_, rfl⟩
          by_cases hch : ch = e.channel
          · exact hch.symm
          · rw [if_neg hch] at hn
            have hold := hrel.dues hown ch hroom' n hn e (by rw [hent, hne, he])
            exact absurd hold.2 (hm e he)
        · rw [if_neg hne] at hx'
          refine hrel.dues hown ch hroom' n ?_ x (by rw [hent]; exact hx')
          by_cases hch : ch = e.channel
          · rw [if_pos hch] at hn
            rcases List.mem_append.1 hn with h | h
            · exact h
            · exact absurd (Due.entry.inj (List.mem_singleton.1 h)) hne
          · rwa [if_neg hch] at hn

end Sys2Proof.Machine
end

section
/-! PROOFS. The endings of posted writes, of the FLUSHes that watch them and of the sweep, as steps of ending; and the placing of what is due. -/

namespace Sys2Proof.Machine

open Sys2Proof.Safety

/-! ## Endings one after another -/

theorem endingSteps_endEntries {ns : List Nat} (hn : ns.Nodup) {s : State}
    (h : ∀ m ∈ ns, ∀ x, s.entry m = some x → x.state ≠ .finished) (code : Code) : EndingSteps s (endEntries ns code s) := by
  induction ns generalizing s with
  | nil => exact EndingSteps.refl s
  | cons m ns ih =>
    rw [List.nodup_cons] at hn
    have hhead := endingSteps_endEntry (h m (List.mem_cons_self ..)) code
    refine hhead.trans (ih hn.2 (fun k hk x hx => ?_))
    have hne : k ≠ m := fun e => hn.1 (e ▸ hk)
    rw [endEntry_entry_ne hne] at hx
    exact h k (List.mem_cons_of_mem _ hk) x hx

/-- When every live entry is among those ended, none is live after. -/
theorem endEntries_live {ns : List Nat} {code : Code} {s : State} (h : ∀ x ∈ s.work, x.live = true → x.order ∈ ns) :
    ∀ x ∈ (endEntries ns code s).work, x.live = false := by
  induction ns generalizing s with
  | nil =>
    intro x hx
    cases hl : x.live with
    | false => rfl
    | true => exact absurd (h x hx hl) (List.not_mem_nil)
  | cons m ns ih =>
    refine ih (s := endEntry m code s) (fun x hx hl => ?_)
    rcases mem_endEntry hx with ⟨hmem, hne⟩ | ⟨-, hfin⟩
    · exact (List.mem_cons.1 (h x hmem hl)).resolve_left hne
    · simp [Entry.live, hfin] at hl

theorem endEntries_frame (ns : List Nat) (code : Code) (s : State) :
    endEntries ns code s =
      { s with ports := (endEntries ns code s).ports, extents := (endEntries ns code s).extents, work := (endEntries ns code s).work } := by
  induction ns generalizing s with
  | nil => rfl
  | cons m ns ih =>
    have hstep : endEntries (m :: ns) code s = endEntries ns code (endEntry m code s) := rfl
    have hhead := endEntry_frame m code s
    rw [hstep, ih]
    rw [hhead]

/-- An entry that none of the orders ended names stands as it did. -/
theorem endEntries_entry_ne {ns : List Nat} {n : Nat} (h : n ∉ ns) (code : Code) (s : State) :
    (endEntries ns code s).entry n = s.entry n := by
  induction ns generalizing s with
  | nil => rfl
  | cons m ns ih =>
    have hm : n ≠ m ∧ n ∉ ns := not_or.1 (fun h' => h (List.mem_cons.2 h'))
    show (endEntries ns code (endEntry m code s)).entry n = _
    rw [ih hm.2, endEntry_entry_ne hm.1]

/-! ## The FLUSHes that learn a posted write's end (R108) -/

theorem sawEnd_order (n : Nat) (fault : Bool) (e : Entry) : (e.sawEnd n fault).order = e.order := by
  unfold Entry.sawEnd
  split <;> rfl

theorem sawEnd_channel (n : Nat) (fault : Bool) (e : Entry) : (e.sawEnd n fault).channel = e.channel := by
  unfold Entry.sawEnd
  split <;> rfl

theorem sawEnd_state (n : Nat) (fault : Bool) (e : Entry) : (e.sawEnd n fault).state = e.state := by
  unfold Entry.sawEnd
  split <;> rfl

theorem sawEnd_other {n : Nat} {fault : Bool} {e : Entry} (h : e.state ≠ .watching) : e.sawEnd n fault = e := by
  simp [Entry.sawEnd, h]

/-- A posted write has left the list, and those that watched it have it no more: the first half of its leaving. -/
def postedGone (n : Nat) (fault : Bool) (s : State) : State :=
  placeFreed { s with posted := s.posted.filter (fun p => p.order ≠ n), work := s.work.map (Entry.sawEnd n fault) }

theorem postedLeaves_eq (n : Nat) (fault : Bool) (s : State) :
    postedLeaves n fault s = (postedGone n fault s).work.foldl endFlush (postedGone n fault s) := rfl

theorem postedGone_entry (m : Nat) (fault : Bool) (s : State) (n : Nat) :
    (postedGone m fault s).entry n = (s.entry n).map (Entry.sawEnd m fault) :=
  entry_map (f := Entry.sawEnd m fault) (sawEnd_order m fault) n

theorem placeFreed_port (s : State) (ch : Channel) :
    ((placeFreed s).port ch).queue = (s.port ch).queue ∧ ((placeFreed s).port ch).due = (s.port ch).due
      ∧ ((placeFreed s).port ch).events = (s.port ch).events := by
  cases ch <;> exact ⟨rfl, rfl, rfl⟩

theorem endingSteps_postedGone (n : Nat) (fault : Bool) (s : State) : EndingSteps s (postedGone n fault s) := by
  have hport : ∀ ch, ((postedGone n fault s).port ch).queue = (s.port ch).queue ∧ ((postedGone n fault s).port ch).due = (s.port ch).due
      ∧ ((postedGone n fault s).port ch).events = (s.port ch).events := fun ch => placeFreed_port _ ch
  have horders : (postedGone n fault s).work.map (fun e => e.order) = s.work.map (fun e => e.order) := by
    show (s.work.map (Entry.sawEnd n fault)).map (fun e => e.order) = _
    rw [List.map_map]
    exact List.map_congr_left (fun e _ => sawEnd_order n fault e)
  refine ⟨fun ch => (hport ch).1, fun ch k h => ?_, fun m x hx hf => ?_, fun hown ch hroom m hm x hx => ?_, ?_, fun x hx hl => ?_⟩
  · rw [(hport ch).2.2]
    exact h
  · rw [postedGone_entry, hx, Option.map_some, sawEnd_other (by simp [hf])]
  · rw [(hport ch).1] at hroom
    rw [(hport ch).2.1] at hm
    rw [postedGone_entry] at hx
    obtain ⟨y, hy, rfl⟩ := Option.map_eq_some_iff.1 hx
    rw [sawEnd_channel, sawEnd_state]
    exact hown ch hroom m hm y hy
  · rw [horders]
  · obtain ⟨y, hy, rfl⟩ := List.mem_map.1 (show x ∈ s.work.map (Entry.sawEnd n fault) from hx)
    refine ⟨y, hy, ?_, (sawEnd_order n fault y).symm⟩
    simpa only [Entry.live, sawEnd_state] using hl

theorem endFlush_eq (s : State) (e : Entry) :
    endFlush s e = s ∨ (e.state = .watching ∧ e.watched = [] ∧ endFlush s e = endEntry e.order (if e.faultSeen then .faulted else .done) s) := by
  unfold endFlush
  split
  · rename_i h
    exact .inr ⟨h.1, h.2, rfl⟩
  · exact .inl rfl

theorem endFlush_entry_ne {e : Entry} {n : Nat} (h : n ≠ e.order) (s : State) : (endFlush s e).entry n = s.entry n := by
  rcases endFlush_eq s e with heq | ⟨-, -, heq⟩
  · rw [heq]
  · rw [heq, endEntry_entry_ne h]

theorem foldl_endFlush_entry_ne {l : List Entry} {n : Nat} (h : ∀ e ∈ l, e.order ≠ n) (s : State) :
    (l.foldl endFlush s).entry n = s.entry n := by
  induction l generalizing s with
  | nil => rfl
  | cons e l ih =>
    rw [List.foldl_cons, ih (fun x hx => h x (List.mem_cons_of_mem _ hx)), endFlush_entry_ne (h e (List.mem_cons_self ..)).symm]

/-- The FLUSHes of a list whose entries stand in the state end or go on. -/
theorem endingSteps_foldl_endFlush {l : List Entry} (hn : (l.map (fun e => e.order)).Nodup) {s : State}
    (h : ∀ e ∈ l, s.entry e.order = some e) : EndingSteps s (l.foldl endFlush s) := by
  induction l generalizing s with
  | nil => exact EndingSteps.refl s
  | cons e l ih =>
    rw [List.map_cons, List.nodup_cons] at hn
    have hhead : EndingSteps s (endFlush s e) := by
      rcases endFlush_eq s e with heq | ⟨hw, -, heq⟩
      · rw [heq]
        exact EndingSteps.refl s
      · rw [heq]
        refine endingSteps_endEntry (fun x hx => ?_) _
        rw [h e (List.mem_cons_self ..)] at hx
        obtain rfl := Option.some.inj hx
        simp [hw]
    refine hhead.trans (ih hn.2 (fun x hx => ?_))
    have hne : x.order ≠ e.order := fun q => hn.1 (q ▸ List.mem_map_of_mem (f := fun e : Entry => e.order) hx)
    rw [endFlush_entry_ne hne]
    exact h x (List.mem_cons_of_mem _ hx)

theorem postedGone_nodup {s : State} (hn : (s.work.map (fun e => e.order)).Nodup) (n : Nat) (fault : Bool) :
    ((postedGone n fault s).work.map (fun e => e.order)).Nodup := (endingSteps_postedGone n fault s).nodup hn

theorem endingSteps_postedLeaves {s : State} (hn : (s.work.map (fun e => e.order)).Nodup) (n : Nat) (fault : Bool) :
    EndingSteps s (postedLeaves n fault s) := by
  have hnd := postedGone_nodup hn n fault
  rw [postedLeaves_eq]
  exact (endingSteps_postedGone n fault s).trans (endingSteps_foldl_endFlush hnd (fun e he => entry_of_nodup hnd he))

theorem foldl_endFlush_frame (l : List Entry) (s : State) :
    l.foldl endFlush s =
      { s with ports := (l.foldl endFlush s).ports, extents := (l.foldl endFlush s).extents, work := (l.foldl endFlush s).work } := by
  induction l generalizing s with
  | nil => rfl
  | cons e l ih =>
    have hhead : endFlush s e =
        { s with ports := (endFlush s e).ports, extents := (endFlush s e).extents, work := (endFlush s e).work } := by
      rcases endFlush_eq s e with heq | ⟨-, -, heq⟩
      · rw [heq]
      · rw [heq]
        exact endEntry_frame _ _ _
    rw [List.foldl_cons, ih]
    rw [hhead]

/-- A posted write's leaving touches ports, extents and the two lists alone. -/
theorem postedLeaves_frame (n : Nat) (fault : Bool) (s : State) :
    postedLeaves n fault s =
      { s with
        ports := (postedLeaves n fault s).ports, extents := (postedLeaves n fault s).extents, work := (postedLeaves n fault s).work
        posted := s.posted.filter (fun p => p.order ≠ n) } := by
  rw [postedLeaves_eq]
  exact foldl_endFlush_frame _ _

/-! ## Faults (R104, R106) -/

theorem hasEvent_or (es : EventSet) (j k : EventKind) (h : hasEvent es k = true) : hasEvent (es ||| j.bit) k = true := by
  simp only [hasEvent, BitVec.getLsbD_or, Bool.or_eq_true] at h ⊢
  exact .inl h

theorem hasEvent_self (es : EventSet) (k : EventKind) : hasEvent (es ||| k.bit) k = true := by
  simp only [hasEvent, BitVec.getLsbD_or, Bool.or_eq_true]
  right
  cases k <;> rfl

theorem endingSteps_raise (ch : Channel) (k : EventKind) (s : State) : EndingSteps s (raise ch k s) := by
  have hport : ∀ c, (raise ch k s).port c = if c = ch then (s.port c).raise k else s.port c := by
    intro c
    rw [raise, updPort_port]
    split
    · subst_vars
      rfl
    · rfl
  refine endingSteps_of_work rfl (fun c => ?_) (fun c m h => ?_) (fun c j h => ?_)
  · rw [hport]
    split <;> rfl
  · rw [hport] at h
    split at h <;> exact h
  · rw [hport]
    split
    · exact hasEvent_or _ _ _ h
    · exact h

/-- What a fault logs and raises before its posted write leaves. -/
def faultTold (p : Posted) (cause : Code) (s : State) : State :=
  let u : State := if p.kind = .append then lowerPending p.slot p.buffers.length (logFault cause s p) else logFault cause s p
  raise p.channel .postedFault u

theorem faultOne_some {s : State} {p : Posted} (hp : s.postedWrite p.order = some p) (cause : Code) :
    faultOne p.order cause s = postedLeaves p.order true (faultTold p cause s) := by
  rw [faultOne, hp]
  rfl

theorem faultOne_none {s : State} {n : Nat} (h : s.postedWrite n = none) (cause : Code) : faultOne n cause s = s := by
  rw [faultOne, h]

theorem endingSteps_faultTold (p : Posted) (cause : Code) (s : State) : EndingSteps s (faultTold p cause s) := by
  unfold faultTold
  refine EndingSteps.trans ?_ (endingSteps_raise p.channel .postedFault _)
  split <;> exact endingSteps_of_work rfl (fun _ => rfl) (fun _ _ h => h) (fun _ _ h => h)

theorem posted_order_of_find {s : State} {n : Nat} {p : Posted} (h : s.postedWrite n = some p) : p.order = n :=
  of_decide_eq_true (List.find?_some (p := fun p : Posted => decide (p.order = n)) h)

theorem faultTold_work (p : Posted) (cause : Code) (s : State) : (faultTold p cause s).work = s.work := by
  unfold faultTold
  dsimp only
  split <;> rfl

theorem endingSteps_faultOne {s : State} (hn : (s.work.map (fun e => e.order)).Nodup) (n : Nat) (cause : Code) :
    EndingSteps s (faultOne n cause s) := by
  cases hp : s.postedWrite n with
  | none =>
    rw [faultOne_none hp]
    exact EndingSteps.refl s
  | some p =>
    obtain rfl := posted_order_of_find hp
    rw [faultOne_some hp]
    exact (endingSteps_faultTold p cause s).trans (endingSteps_postedLeaves (by rw [faultTold_work]; exact hn) p.order true)

theorem endingSteps_faultAll (ns : List Nat) {s : State} (hn : (s.work.map (fun e => e.order)).Nodup) (cause : Code) :
    EndingSteps s (faultAll ns cause s) := by
  induction ns generalizing s with
  | nil => exact EndingSteps.refl s
  | cons n ns ih =>
    have hhead := endingSteps_faultOne hn n cause
    exact hhead.trans (ih (hhead.nodup hn))

/-- A fault touches ports, logs, extents and the two lists alone. -/
theorem faultOne_frame {s : State} {p : Posted} (hp : s.postedWrite p.order = some p) (cause : Code) :
    faultOne p.order cause s =
      { s with
        ports := (faultOne p.order cause s).ports, extents := (faultOne p.order cause s).extents, work := (faultOne p.order cause s).work
        posted := s.posted.filter (fun x => x.order ≠ p.order)
        logs := s.logs.set p.channel (recorded (faultEntryOf cause s.clock p) (s.logs.get p.channel)) } := by
  rw [faultOne_some hp, postedLeaves_frame]
  unfold faultTold
  dsimp only
  split <;> rfl

/-- A faulted posted write's channel has POSTED-FAULT (R104). -/
theorem faultOne_event {s : State} (hn : (s.work.map (fun e => e.order)).Nodup) {p : Posted} (hp : s.postedWrite p.order = some p)
    (cause : Code) : hasEvent ((faultOne p.order cause s).port p.channel).events .postedFault = true := by
  rw [faultOne_some hp]
  refine (endingSteps_postedLeaves (by rw [faultTold_work]; exact hn) p.order true).events _ _ ?_
  unfold faultTold
  rw [raise, updPort_port_same]
  exact hasEvent_self _ _

/-- Every posted write faulted, in the order of the list: none is left, each is logged in turn and told to its channel (R106, R158). -/
theorem faultAll_all {s : State} (hn : (s.work.map (fun e => e.order)).Nodup) (hp : (s.posted.map (fun p => p.order)).Nodup) (cause : Code) :
    (faultAll (s.posted.map (fun p => p.order)) cause s).posted = []
      ∧ (faultAll (s.posted.map (fun p => p.order)) cause s).logs = s.posted.foldl
          (fun ls p => ls.set p.channel (recorded (faultEntryOf cause s.clock p) (ls.get p.channel))) s.logs
      ∧ ∀ p ∈ s.posted, hasEvent ((faultAll (s.posted.map (fun p => p.order)) cause s).port p.channel).events .postedFault = true := by
  suffices h : ∀ (l : List Posted) (u : State), u.posted = l → (u.work.map (fun e => e.order)).Nodup → (l.map (fun p => p.order)).Nodup →
      (faultAll (l.map (fun p => p.order)) cause u).posted = []
        ∧ (faultAll (l.map (fun p => p.order)) cause u).logs = l.foldl
            (fun ls p => ls.set p.channel (recorded (faultEntryOf cause u.clock p) (ls.get p.channel))) u.logs
        ∧ ∀ p ∈ l, hasEvent ((faultAll (l.map (fun p => p.order)) cause u).port p.channel).events .postedFault = true from
    h s.posted s rfl hn hp
  intro l
  induction l with
  | nil =>
    intro u hu _ _
    exact ⟨hu, rfl, fun p hp => absurd hp List.not_mem_nil⟩
  | cons p l ih =>
    intro u hu hnd hpd
    have hfind : u.postedWrite p.order = some p := by
      rw [State.postedWrite, hu]
      exact find?_posted_order hpd (List.mem_cons_self ..)
    rw [List.map_cons, List.nodup_cons] at hpd
    have hframe := faultOne_frame hfind cause
    have hsteps := endingSteps_faultOne hnd p.order cause
    have hevent := faultOne_event hnd hfind cause
    have hleft : (faultOne p.order cause u).posted = l := by
      rw [hframe]
      show u.posted.filter (fun x => decide (x.order ≠ p.order)) = l
      rw [hu, List.filter_cons_of_neg (by simp)]
      refine List.filter_eq_self.2 (fun x hx => decide_eq_true (fun h => hpd.1 ?_))
      exact h ▸ List.mem_map_of_mem (f := fun p : Posted => p.order) hx
    have hnd' := hsteps.nodup hnd
    obtain ⟨hnone, hlogs, hevents⟩ := ih (faultOne p.order cause u) hleft hnd' hpd.2
    have hunfold : faultAll ((p :: l).map (fun p => p.order)) cause u =
        faultAll (l.map (fun p => p.order)) cause (faultOne p.order cause u) := rfl
    rw [hunfold]
    refine ⟨hnone, ?_, fun q hq => ?_⟩
    · rw [hlogs]
      have hclock : (faultOne p.order cause u).clock = u.clock := by rw [hframe]
      have hlog : (faultOne p.order cause u).logs =
          u.logs.set p.channel (recorded (faultEntryOf cause u.clock p) (u.logs.get p.channel)) := by rw [hframe]
      rw [hclock, hlog]
      rfl
    · rcases List.mem_cons.1 hq with rfl | hql
      · exact (endingSteps_faultAll _ hnd' cause).events _ _ hevent
      · exact hevents q hql

/-- Faults touch ports, logs, extents and the two lists alone. -/
theorem faultAll_frame (ns : List Nat) (cause : Code) (s : State) :
    faultAll ns cause s =
      { s with
        ports := (faultAll ns cause s).ports, extents := (faultAll ns cause s).extents, work := (faultAll ns cause s).work
        posted := (faultAll ns cause s).posted, logs := (faultAll ns cause s).logs } := by
  induction ns generalizing s with
  | nil => rfl
  | cons n ns ih =>
    have hhead : faultOne n cause s =
        { s with
          ports := (faultOne n cause s).ports, extents := (faultOne n cause s).extents, work := (faultOne n cause s).work
          posted := (faultOne n cause s).posted, logs := (faultOne n cause s).logs } := by
      cases hp : s.postedWrite n with
      | none => rw [faultOne_none hp]
      | some p =>
        obtain rfl := posted_order_of_find hp
        rw [faultOne_frame hp]
    have hstep : faultAll (n :: ns) cause s = faultAll ns cause (faultOne n cause s) := rfl
    rw [hstep, ih]
    rw [hhead]

/-! ## The end of the sweep (R173) -/

theorem markSlots_frame (on : Bool) (ks : List Slot) (s : State) :
    markSlots on ks s = { s with extents := (markSlots on ks s).extents } := by
  induction ks generalizing s with
  | nil => rfl
  | cons k ks ih =>
    have hstep : markSlots on (k :: ks) s = markSlots on ks (updExtent k (fun e => { e with clearing := on }) s) := rfl
    rw [hstep, ih]
    rfl

theorem endingSteps_endSweep (cause : Option StopCause) (s : State) : EndingSteps s (endSweep cause s) := by
  cases hsw : s.sweep with
  | none =>
    have heq : endSweep cause s = s := by rw [endSweep, hsw]
    rw [heq]
    exact EndingSteps.refl s
  | some sw =>
    have heq : endSweep cause s =
        let u : State := raiseBoth .sweepEnd
          { s with extents := (markSlots false (sw.items.map (fun it => it.slot)) s).extents, sweep := none, sweepSeen := true }
        if sw.discard then u else addDue sw.channel (.sweep (sw.completion cause)) u := by
      unfold endSweep
      rw [hsw]
      dsimp only
      rw [markSlots_frame]
    rw [heq]
    dsimp only
    split
    · refine endingSteps_of_work rfl (fun ch => by cases ch <;> rfl) (fun ch m h => by cases ch <;> exact h) (fun ch k h => ?_)
      cases ch <;> exact hasEvent_or _ _ _ h
    · refine endingSteps_of_work rfl (fun ch => ?_) (fun ch m h => ?_) (fun ch k h => ?_)
      · rw [addDue, updPort_port]
        split
        · subst_vars
          cases sw.channel <;> rfl
        · cases ch <;> rfl
      · rw [addDue, updPort_port] at h
        split at h
        · subst_vars
          rcases List.mem_append.1 h with h' | h'
          · revert h'
            cases sw.channel <;> exact id
          · simp at h'
        · revert h
          cases ch <;> exact id
      · rw [addDue, updPort_port]
        split
        · subst_vars
          revert h
          cases sw.channel <;> exact fun h => hasEvent_or _ _ _ h
        · cases ch <;> exact hasEvent_or _ _ _ h

theorem endSweep_frame (cause : Option StopCause) (s : State) :
    endSweep cause s =
      { s with
        ports := (endSweep cause s).ports, extents := (endSweep cause s).extents, sweep := none
        sweepSeen := (endSweep cause s).sweepSeen } := by
  unfold endSweep
  cases hsw : s.sweep with
  | none =>
    dsimp only
    rw [← hsw]
  | some sw =>
    dsimp only
    rw [markSlots_frame]
    split <;> rfl

end Sys2Proof.Machine
end

section
/-! PROOFS. Placing what is due, settling after endings, and the end of a drain whose timer has expired. -/

namespace Sys2Proof.Machine

open Sys2Proof.Safety

/-! ## Placing what is due (R177) -/

/-- One reply placed: queues grow, entries leave and none comes. -/
theorem placeReply_grows (ch : Channel) (d : Due) (s : State) :
    (∀ c, ∃ more, ((placeReply ch d s).port c).queue = (s.port c).queue ++ more)
      ∧ (placeReply ch d s).work.Sublist s.work ∧ ∀ m x, (placeReply ch d s).entry m = some x → s.entry m = some x := by
  have hput : ∀ (f : Port → Port) (more : List Reply), (∀ p, (f p).queue = p.queue ++ more) →
      ∀ c, ∃ more, ((s.updPort ch f).port c).queue = (s.port c).queue ++ more := by
    intro f more hf c
    rw [updPort_port]
    split
    · subst_vars
      exact ⟨more, hf _⟩
    · exact ⟨[], (List.append_nil _).symm⟩
  have hsame : (∀ c, ∃ more, (s.port c).queue = (s.port c).queue ++ more) := fun c => ⟨[], (List.append_nil _).symm⟩
  cases d with
  | stage =>
    unfold placeReply
    dsimp only
    split
    · rename_i r _
      exact ⟨hput _ [r] (fun _ => rfl), List.Sublist.refl _, fun _ _ h => h⟩
    · exact ⟨hsame, List.Sublist.refl _, fun _ _ h => h⟩
  | sweep c => exact ⟨hput _ [.completion c] (fun _ => rfl), List.Sublist.refl _, fun _ _ h => h⟩
  | entry k =>
    unfold placeReply
    dsimp only
    cases s.entry k with
    | none => exact ⟨hsame, List.Sublist.refl _, fun _ _ h => h⟩
    | some e =>
      dsimp only
      refine ⟨fun c => ?_, List.filter_sublist, fun m x hx => ?_⟩
      · rw [(dropEntry_port _ _ c).1]
        exact hput _ [.completion e.completion] (fun _ => rfl) c
      · rw [entry_dropEntry] at hx
        split at hx
        · cases hx
        · exact hx

/-- A due list given out: queues grow, entries leave and none comes. -/
theorem placeList_grows (ch : Channel) (ds : List Due) (s : State) :
    (∀ c r, r ∈ (s.port c).queue → r ∈ ((placeList ch ds s).port c).queue)
      ∧ (placeList ch ds s).work.Sublist s.work ∧ ∀ m x, (placeList ch ds s).entry m = some x → s.entry m = some x := by
  have hset : ∀ (u : State) (due : List Due), ∀ c r, r ∈ (u.port c).queue →
      r ∈ ((u.updPort ch (fun p => { p with due := due })).port c).queue := by
    intro u due c r hr
    rw [updPort_port]
    split
    · subst_vars
      exact hr
    · exact hr
  induction ds generalizing s with
  | nil => exact ⟨hset s [], List.Sublist.refl _, fun _ _ h => h⟩
  | cons d ds ih =>
    unfold placeList
    split
    · obtain ⟨hq, hw, he⟩ := placeReply_grows ch d s
      obtain ⟨hq', hw', he'⟩ := ih (placeReply ch d s)
      refine ⟨fun c r hr => hq' c r ?_, hw'.trans hw, fun m x hx => he m x (he' m x hx)⟩
      obtain ⟨more, hmore⟩ := hq c
      rw [hmore]
      exact List.mem_append_left _ hr
    · exact ⟨hset s (d :: ds), List.Sublist.refl _, fun _ _ h => h⟩

/-- What becomes of an entry as a due list is given out that names FINISHED entries of its own channel alone. -/
theorem placeList_entry {ch : Channel} {ds : List Due} {s : State}
    (hown : (s.port ch).queue.length < 4 → ∀ m, Due.entry m ∈ ds → ∀ x, s.entry m = some x → x.channel = ch ∧ x.state = .finished)
    {n : Nat} {x : Entry} (hx : s.entry n = some x) :
    (placeList ch ds s).entry n = some x
      ∨ (x.channel = ch ∧ x.state = .finished ∧ Reply.completion x.completion ∈ ((placeList ch ds s).port ch).queue) := by
  induction ds generalizing s with
  | nil => exact .inl hx
  | cons d ds ih =>
    unfold placeList
    split
    · rename_i hroom
      obtain ⟨hq, -, he⟩ := placeReply_grows ch d s
      have hown' : ((placeReply ch d s).port ch).queue.length < 4 → ∀ m, Due.entry m ∈ ds → ∀ y,
          (placeReply ch d s).entry m = some y → y.channel = ch ∧ y.state = .finished :=
        fun _ m hm y hy => hown hroom m (List.mem_cons_of_mem _ hm) y (he m y hy)
      cases d with
      | stage =>
        refine ih hown' ?_
        unfold placeReply
        dsimp only
        split <;> exact hx
      | sweep c => exact ih hown' hx
      | entry k =>
        by_cases hk : s.entry k = none
        · refine ih hown' ?_
          unfold placeReply
          dsimp only
          rw [hk]
          exact hx
        · obtain ⟨e, he'⟩ := Option.ne_none_iff_exists'.1 hk
          have hplace : placeReply ch (.entry k) s =
              dropEntry k (s.updPort ch (fun p => { p with queue := p.queue ++ [.completion e.completion] })) := by
            unfold placeReply
            dsimp only
            rw [he']
          by_cases hn : n = k
          · subst hn
            obtain rfl : e = x := Option.some.inj (he'.symm.trans hx)
            obtain ⟨hch, hfin⟩ := hown hroom n (List.mem_cons_self ..) e he'
            refine .inr ⟨hch, hfin, (placeList_grows ch ds _).1 ch _ ?_⟩
            rw [hplace, (dropEntry_port _ _ ch).1, updPort_port_same]
            exact List.mem_append_right _ (List.mem_singleton.2 rfl)
          · refine ih hown' ?_
            rw [hplace, entry_dropEntry, if_neg hn]
            exact hx
    · exact .inl hx

/-- What becomes of an entry as both due lists are given out. -/
theorem placeBoth_entry {s : State} (hd : DueOwn s) {n : Nat} {x : Entry} (hx : s.entry n = some x) :
    (placeBoth s).entry n = some x
      ∨ (x.state = .finished ∧ Reply.completion x.completion ∈ ((placeBoth s).port x.channel).queue) := by
  have hA := placeList_grows .A (s.port .A).due s
  have hB := placeList_grows .B ((placeDue .A s).port .B).due (placeDue .A s)
  have hother := placeDue_other .A s
  rcases placeList_entry (hd .A) hx with h1 | ⟨hch, hfin, hmem⟩
  · have hownB : ((placeDue .A s).port .B).queue.length < 4 → ∀ m, Due.entry m ∈ ((placeDue .A s).port .B).due → ∀ y,
        (placeDue .A s).entry m = some y → y.channel = .B ∧ y.state = .finished := by
      intro hroom m hm y hy
      rw [show ((placeDue .A s).port .B).queue = (s.port .B).queue from hother.1] at hroom
      rw [show ((placeDue .A s).port .B).due = (s.port .B).due from hother.2] at hm
      exact hd .B hroom m hm y (hA.2.2 m y hy)
    rcases placeList_entry hownB h1 with h2 | ⟨hch, hfin, hmem⟩
    · exact .inl h2
    · exact .inr ⟨hfin, hch ▸ hmem⟩
  · exact .inr ⟨hfin, hch ▸ hB.1 .A _ hmem⟩

theorem placeBoth_work (s : State) : (placeBoth s).work.Sublist s.work :=
  (placeList_grows .B ((placeDue .A s).port .B).due (placeDue .A s)).2.1.trans (placeList_grows .A (s.port .A).due s).2.1

theorem placeReply_frame (ch : Channel) (d : Due) (s : State) :
    placeReply ch d s = { s with ports := (placeReply ch d s).ports, work := (placeReply ch d s).work } := by
  cases d <;> unfold placeReply <;> dsimp only
  · split <;> rfl
  · split <;> rfl
  · rfl

theorem placeList_frame (ch : Channel) (ds : List Due) (s : State) :
    placeList ch ds s = { s with ports := (placeList ch ds s).ports, work := (placeList ch ds s).work } := by
  induction ds generalizing s with
  | nil => rfl
  | cons d ds ih =>
    unfold placeList
    split
    · have hhead := placeReply_frame ch d s
      rw [ih]
      rw [hhead]
    · rfl

/-- Giving out what is due touches the ports and the work list alone. -/
theorem placeBoth_frame (s : State) : placeBoth s = { s with ports := (placeBoth s).ports, work := (placeBoth s).work } := by
  have hA := placeList_frame .A (s.port .A).due s
  have hB := placeList_frame .B ((placeDue .A s).port .B).due (placeDue .A s)
  calc placeBoth s
      = { placeDue .A s with ports := (placeBoth s).ports, work := (placeBoth s).work } := hB
    _ = { s with ports := (placeBoth s).ports, work := (placeBoth s).work } := by
      rw [show placeDue .A s = { s with ports := (placeDue .A s).ports, work := (placeDue .A s).work } from hA]

theorem placeReply_events (ch : Channel) (d : Due) (s : State) (c : Channel) :
    ((placeReply ch d s).port c).events = (s.port c).events := by
  have hput : ∀ (f : Port → Port), (∀ p, (f p).events = p.events) → ((s.updPort ch f).port c).events = (s.port c).events := by
    intro f hf
    rw [updPort_port]
    split
    · subst_vars
      exact hf _
    · rfl
  cases d <;> unfold placeReply <;> dsimp only
  · split
    · exact hput _ (fun _ => rfl)
    · rfl
  · split
    · rw [(dropEntry_port _ _ c).2.2]
      exact hput _ (fun _ => rfl)
    · rfl
  · exact hput _ (fun _ => rfl)

theorem placeList_events (ch : Channel) (ds : List Due) (s : State) (c : Channel) :
    ((placeList ch ds s).port c).events = (s.port c).events := by
  have hset : ∀ (u : State) (due : List Due), ((u.updPort ch (fun p => { p with due := due })).port c).events = (u.port c).events := by
    intro u due
    rw [updPort_port]
    split
    · subst_vars
      rfl
    · rfl
  induction ds generalizing s with
  | nil => exact hset s []
  | cons d ds ih =>
    unfold placeList
    split
    · rw [ih, placeReply_events]
    · exact hset s (d :: ds)

theorem placeBoth_events (s : State) (c : Channel) : ((placeBoth s).port c).events = (s.port c).events :=
  (placeList_events .B _ _ c).trans (placeList_events .A _ s c)

/-! ## Settling after the drain's expiry -/

/-- What settling does once the volume work of an expired drain has ended. -/
def settleTail (s : State) : State := releaseStop (drainCheck (placeBoth (topUpBoth s)))

theorem settle_eq (s : State) : settle s = settleTail (drainExpiry s) := rfl

theorem drainCheck_lists (s : State) : (drainCheck s).work = s.work ∧ (drainCheck s).ports = s.ports ∧ (drainCheck s).logs = s.logs
    ∧ (drainCheck s).posted = s.posted ∧ (drainCheck s).sweep = s.sweep ∧ (drainCheck s).seq = s.seq := by
  unfold drainCheck
  split
  · unfold drainEnds enterReleasing
    dsimp only
    split <;> exact ⟨rfl, rfl, rfl, rfl, rfl, rfl⟩
  · exact ⟨rfl, rfl, rfl, rfl, rfl, rfl⟩

theorem releaseStop_lists (s : State) : (releaseStop s).work = s.work ∧ (releaseStop s).ports = s.ports ∧ (releaseStop s).logs = s.logs
    ∧ (releaseStop s).posted = s.posted ∧ (releaseStop s).sweep = s.sweep ∧ (releaseStop s).volume = s.volume
    ∧ (releaseStop s).seq.access = s.seq.access := by
  unfold releaseStop
  split <;> exact ⟨rfl, rfl, rfl, rfl, rfl, rfl, rfl⟩

theorem settleTail_lists (s : State) : (settleTail s).work = (placeBoth (topUpBoth s)).work
    ∧ (settleTail s).ports = (placeBoth (topUpBoth s)).ports := by
  obtain ⟨hw, hp, -⟩ := releaseStop_lists (drainCheck (placeBoth (topUpBoth s)))
  obtain ⟨hw', hp', -⟩ := drainCheck_lists (placeBoth (topUpBoth s))
  exact ⟨hw.trans hw', hp.trans hp'⟩

theorem dueOwn_of_sameBut {s t : State} (h : SameButReservations s t) (hd : DueOwn s) : DueOwn t := by
  intro ch hroom m hm x hx
  rw [sameBut_port h] at hroom hm
  obtain ⟨y, hy, hb⟩ := entry_of_sameBut h hx
  obtain ⟨r, rfl⟩ := bareEntry_eq_iff.1 hb
  exact hd ch hroom m hm y hy

/-- What becomes of an entry as the step settles: it stands, its reservation apart, or its completion is in the queue. -/
theorem settleTail_entry {s : State} (hd : DueOwn s) {n : Nat} {x : Entry} (hx : s.entry n = some x) :
    (∃ r, (settleTail s).entry n = some { x with reserved := r })
      ∨ (x.state = .finished ∧ Reply.completion x.completion ∈ ((settleTail s).port x.channel).queue) := by
  have hsame := sameButReservations_topUpBoth s
  obtain ⟨r, hr⟩ := sameBut_entry hsame hx
  obtain ⟨hw, hp⟩ := settleTail_lists s
  rw [State.entry, hw, State.port, hp]
  rcases placeBoth_entry (dueOwn_of_sameBut hsame hd) hr with h | ⟨hfin, hmem⟩
  · exact .inl ⟨r, h⟩
  · exact .inr ⟨hfin, hmem⟩

/-- A FINISHED entry, as the step that has settled leaves it, has ended (R70, R177). -/
theorem settleTail_ended {s : State} (hd : DueOwn s) {e x : Entry} {code : Code} (hx : s.entry e.order = some x) (hst : x.state = .finished)
    (hcode : x.outcome = some code) (hch : x.channel = e.channel) (htag : x.tag = e.tag) : Ended e code (settleTail s) := by
  rcases settleTail_entry hd hx with ⟨r, hr⟩ | ⟨-, hmem⟩
  · exact .inl ⟨_, mem_of_entry hr, entry_order hr, hst, hcode⟩
  · refine .inr ⟨x.completion, hch ▸ hmem, htag, ?_⟩
    show x.outcome.getD .done = code
    rw [hcode]
    rfl

/-! ## The volume work of an expired drain ends (R158) -/

theorem endEntry_entry_self {s : State} {e : Entry} (he : s.entry e.order = some e) {code : Code} (hs : e.leavesSilently code = false) :
    (endEntry e.order code s).entry e.order = some (e.finishedWith code) := by
  rw [endEntry_some he, if_neg (by simp [hs])]
  refine (entry_updEntry (f := Entry.finishedWith code) (fun _ => rfl) e.order).trans ?_
  rw [if_pos rfl, pendingReleased_entry, he]
  rfl

theorem endEntries_entry_mem {ns : List Nat} (hn : ns.Nodup) {s : State} {e : Entry} (hmem : e.order ∈ ns) (he : s.entry e.order = some e)
    {code : Code} (hs : e.leavesSilently code = false) : (endEntries ns code s).entry e.order = some (e.finishedWith code) := by
  induction ns generalizing s with
  | nil => exact absurd hmem List.not_mem_nil
  | cons m ns ih =>
    rw [List.nodup_cons] at hn
    show (endEntries ns code (endEntry m code s)).entry e.order = _
    by_cases hm : e.order = m
    · subst hm
      rw [endEntries_entry_ne hn.1, endEntry_entry_self he hs]
    · refine ih hn.2 ((List.mem_cons.1 hmem).resolve_left hm) ?_
      rw [endEntry_entry_ne hm, he]

/-- What the end of the volume work leaves. -/
structure VolumeWorkEnded (s t : State) : Prop where
  steps : EndingSteps s t
  frame : t = { s with
    ports := t.ports, logs := t.logs, extents := t.extents, work := t.work, posted := [], sweep := none, sweepSeen := t.sweepSeen }
  noneLive : ∀ x ∈ t.work, x.live = false
  logs : t.logs = s.posted.foldl
    (fun ls p => ls.set p.channel (recorded (faultEntryOf .volumeGone s.clock p) (ls.get p.channel))) s.logs
  told : ∀ p ∈ s.posted, hasEvent (t.port p.channel).events .postedFault = true
  finished : ∀ e ∈ s.work, e.live = true → e.discard = false → t.entry e.order = some (e.finishedWith .volumeGone)

theorem endVolumeWork_eq (s : State) :
    endVolumeWork s =
      endSweep (s.sweep.map (fun sw => sw.cause.getD .halt))
        (faultAll (s.posted.map (fun p => p.order)) .volumeGone
          (endEntries ((s.work.filter Entry.live).map (fun e => e.order)) .volumeGone s)) := by
  have h1 := endEntries_frame ((s.work.filter Entry.live).map (fun e => e.order)) .volumeGone s
  have h2 := faultAll_frame (s.posted.map (fun p => p.order)) .volumeGone
    (endEntries ((s.work.filter Entry.live).map (fun e => e.order)) .volumeGone s)
  have hsweep : (faultAll (s.posted.map (fun p => p.order)) .volumeGone
      (endEntries ((s.work.filter Entry.live).map (fun e => e.order)) .volumeGone s)).sweep = s.sweep := by
    rw [h2, h1]
  unfold endVolumeWork
  dsimp only
  rw [hsweep]
  cases hs : s.sweep with
  | none =>
    dsimp only
    rw [endSweep, hsweep, hs]
  | some sw => rfl

theorem endVolumeWork_ended {s : State} (hn : (s.work.map (fun e => e.order)).Nodup) (hp : (s.posted.map (fun p => p.order)).Nodup) :
    VolumeWorkEnded s (endVolumeWork s) := by
  rw [endVolumeWork_eq]
  have hns : ((s.work.filter Entry.live).map (fun e => e.order)).Nodup := hn.sublist (List.filter_sublist.map _)
  generalize hes : (s.work.filter Entry.live).map (fun e => e.order) = es at hns
  have hmem : ∀ x ∈ s.work, x.live = true → x.order ∈ es := fun x hx hl =>
    hes ▸ List.mem_map_of_mem (f := fun e : Entry => e.order) (List.mem_filter.2 ⟨hx, hl⟩)
  have hunfinished : ∀ m ∈ es, ∀ x, s.entry m = some x → x.state ≠ .finished := by
    intro m hm x hx hf
    obtain ⟨y, hy, hym⟩ := List.mem_map.1 (hes ▸ hm)
    obtain ⟨hyw, hyl⟩ := List.mem_filter.1 hy
    obtain rfl : y = x := eq_of_order hn hyw (mem_of_entry hx) (hym.trans (entry_order hx).symm)
    simp [Entry.live, hf] at hyl
  have s1 := endingSteps_endEntries hns hunfinished .volumeGone
  have f1 := endEntries_frame es .volumeGone s
  have l1 := endEntries_live (code := .volumeGone) hmem
  have e1 : ∀ e ∈ s.work, e.live = true → e.discard = false →
      (endEntries es .volumeGone s).entry e.order = some (e.finishedWith .volumeGone) := fun e he hl hd =>
    endEntries_entry_mem hns (hmem e he hl) (entry_of_nodup hn he) (by simp [Entry.leavesSilently, hd])
  have hn1 := s1.nodup hn
  have hposted : (endEntries es .volumeGone s).posted = s.posted := by rw [f1]
  generalize endEntries es .volumeGone s = u at s1 f1 l1 e1 hn1 hposted
  have s2 := endingSteps_faultAll (s.posted.map (fun p => p.order)) hn1 .volumeGone
  have f2 := faultAll_frame (s.posted.map (fun p => p.order)) .volumeGone u
  obtain ⟨a1, a2, a3⟩ := faultAll_all hn1 (by rw [hposted]; exact hp) .volumeGone
  rw [hposted] at a1 a2 a3
  generalize faultAll (s.posted.map (fun p => p.order)) .volumeGone u = v at s2 f2 a1 a2 a3
  have s3 := endingSteps_endSweep (s.sweep.map (fun sw => sw.cause.getD .halt)) v
  have f3 := endSweep_frame (s.sweep.map (fun sw => sw.cause.getD .halt)) v
  generalize endSweep (s.sweep.map (fun sw => sw.cause.getD .halt)) v = w at s3 f3
  refine ⟨s1.trans (s2.trans s3), ?_, fun x hx => ?_, ?_, fun p hp' => s3.events _ _ (a3 p hp'), fun e he hl hd => ?_⟩
  · rw [f3, f2, a1, f1]
  · cases hl : x.live with
    | false => rfl
    | true =>
      obtain ⟨y, hy, hyl, -⟩ := (s2.trans s3).live x hx hl
      rw [l1 y hy] at hyl
      cases hyl
  · have hlogs : w.logs = v.logs := by rw [f3]
    have hclock : u.clock = s.clock := by rw [f1]
    have hlogs' : u.logs = s.logs := by rw [f1]
    rw [hlogs, a2, hclock, hlogs']
  · exact (s2.trans s3).kept _ _ (e1 e he hl hd) rfl

end Sys2Proof.Machine
end

section
/-! PROOFS. The end of a drain whose timer expired, at the step that leaves no access in progress (R158). -/

namespace Sys2Proof.Machine

open Sys2Proof.Safety

/-- What the end of the volume work reads of `u` stands in `x`, where no access is in progress: each live entry with the completion its end
gives it, each posted write with its fault entry. -/
structure PutDown (u x : State) : Prop where
  volume : x.volume = u.volume
  settings : x.settings = u.settings
  logs : x.logs = u.logs
  clock : x.clock = u.clock
  access : u.seq.access = none ∧ x.seq.access = none
  entries : ∀ e ∈ u.work, e.live = true → ∃ y ∈ x.work, y.live = true ∧ y.order = e.order ∧ y.channel = e.channel ∧ y.discard = e.discard
    ∧ y.done = e.done ∧ y.conditions = e.conditions ∧ endingOf y .volumeGone = endingOf e .volumeGone
  posted : ∃ g : Posted → Posted, x.posted = u.posted.map g
    ∧ ∀ p, (g p).channel = p.channel ∧ ∀ c, faultEntryOf .volumeGone c (g p) = faultEntryOf .volumeGone c p

theorem PutDown.trans {u v x : State} (h : PutDown u v) (h' : PutDown v x) : PutDown u x := by
  refine ⟨h'.volume.trans h.volume, h'.settings.trans h.settings, h'.logs.trans h.logs, h'.clock.trans h.clock,
    ⟨h.access.1, h'.access.2⟩, fun e he hlive => ?_, ?_⟩
  · obtain ⟨y, hy, ylive, y1, y2, y3, y4, y5, y6⟩ := h.entries e he hlive
    obtain ⟨z, hz, zlive, z1, z2, z3, z4, z5, z6⟩ := h'.entries y hy ylive
    exact ⟨z, hz, zlive, z1.trans y1, z2.trans y2, z3.trans y3, z4.trans y4, z5.trans y5, z6.trans y6⟩
  · obtain ⟨g, hg, hgp⟩ := h.posted
    obtain ⟨g', hg', hgp'⟩ := h'.posted
    refine ⟨g' ∘ g, by rw [hg', hg, List.map_map], fun p => ⟨(hgp' (g p)).1.trans (hgp p).1, fun c => ?_⟩⟩
    exact ((hgp' (g p)).2 c).trans ((hgp p).2 c)

theorem putDown_sameBut {u v : State} (h : SameButReservations u v) (ha : u.seq.access = none) : PutDown u v := by
  obtain ⟨w, rfl, hw⟩ := sameBut_exists h
  refine ⟨rfl, rfl, rfl, rfl, ⟨ha, ha⟩, fun e he hlive => ?_, id, (List.map_id _).symm, fun _ => ⟨rfl, fun _ => rfl⟩⟩
  obtain ⟨y, hy, hb⟩ := List.mem_map.1 (hw ▸ List.mem_map_of_mem (f := bareEntry) he)
  obtain ⟨r, rfl⟩ := bareEntry_eq_iff.1 hb
  exact ⟨_, hy, hlive, rfl, rfl, rfl, rfl, rfl, rfl⟩

theorem putDown_park {u : State} (ha : u.seq.access = none) (o : Owner) (torn : Bool) : PutDown u (park o torn u) := by
  have kept : ∀ x : State, x.volume = u.volume → x.settings = u.settings → x.logs = u.logs → x.clock = u.clock → x.seq.access = none →
      x.work = u.work → x.posted = u.posted → PutDown u x := fun x hv hs hl hc ha' hw hp =>
    ⟨hv, hs, hl, hc, ⟨ha, ha'⟩, fun e he hlive => ⟨e, hw ▸ he, hlive, rfl, rfl, rfl, rfl, rfl, rfl⟩,
      id, hp.trans (List.map_id _).symm, fun _ => ⟨rfl, fun _ => rfl⟩⟩
  cases o with
  | entry n =>
    refine ⟨rfl, rfl, rfl, rfl, ⟨ha, ha⟩, fun e he hlive => ⟨_, List.mem_map_of_mem he, ?_⟩,
      id, (List.map_id _).symm, fun _ => ⟨rfl, fun _ => rfl⟩⟩
    dsimp only
    split
    · exact ⟨rfl, rfl, rfl, rfl, rfl, rfl, rfl⟩
    · exact ⟨hlive, rfl, rfl, rfl, rfl, rfl, rfl⟩
  | posted n =>
    refine ⟨rfl, rfl, rfl, rfl, ⟨ha, ha⟩, fun e he hlive => ⟨e, he, hlive, rfl, rfl, rfl, rfl, rfl, rfl⟩, _, rfl, fun p => ?_⟩
    dsimp only
    split <;> exact ⟨rfl, fun _ => rfl⟩
  | _ => exact kept _ rfl rfl rfl rfl ha rfl rfl

theorem updPosted_ordersLawful {s : State} (ho : OrdersLawful s) {n : Nat} {f : Posted → Posted} (hf : ∀ x, (f x).order = x.order) :
    OrdersLawful (updPosted n f s) := by
  refine ordersLawful_congr ho rfl ?_ rfl
  simp only [updPosted, List.map_map]
  refine List.map_congr_left (fun x _ => ?_)
  by_cases h : x.order = n <;> simp [h, hf]

theorem park_ordersLawful {u : State} (ho : OrdersLawful u) (o : Owner) (torn : Bool) : OrdersLawful (park o torn u) := by
  cases o with
  | entry n => exact updEntry_ordersLawful ho (fun _ => rfl)
  | posted n => exact updPosted_ordersLawful ho (fun _ => rfl)
  | _ => exact ho

theorem park_repliesLawful {u : State} (hl : RepliesLawful u) (o : Owner) (torn : Bool) : RepliesLawful (park o torn u) := by
  cases o <;> exact hl

theorem drainEnds_volume (s : State) :
    (drainEnds s).volume = { s.volume with
      drainTimer := none, drainExpired := false
      state := if s.volume.mapModified = true ∧ s.settings.storeOnUnload = true ∧ s.volume.label = some .valid then .storing
        else .releasing } := by
  unfold drainEnds enterReleasing
  dsimp only
  by_cases h : s.volume.mapModified = true ∧ s.settings.storeOnUnload = true ∧ s.volume.label = some .valid
  · rw [if_pos h, if_pos (by simpa [and_assoc] using h)]
  · rw [if_neg h, if_neg (by simpa [and_assoc] using h)]

theorem settled_frame (s : State) : placeBoth (topUpBoth s) =
    { s with ports := (placeBoth (topUpBoth s)).ports, work := (placeBoth (topUpBoth s)).work } := by
  rw [placeBoth_frame]
  rw [(sameButReservations_topUpBoth s).1]

theorem settled_events (s : State) (c : Channel) : ((placeBoth (topUpBoth s)).port c).events = (s.port c).events := by
  rw [placeBoth_events, sameBut_port (sameButReservations_topUpBoth s)]

theorem settled_live {s : State} (h : ∀ x ∈ s.work, x.live = false) : ∀ x ∈ (placeBoth (topUpBoth s)).work, x.live = false := by
  intro x hx
  have hx' := (placeBoth_work _).subset hx
  obtain ⟨y, hy, hb⟩ := List.mem_map.1 ((sameButReservations_topUpBoth s).2 ▸ List.mem_map_of_mem (f := bareEntry) hx')
  obtain ⟨r, rfl⟩ := bareEntry_eq_iff.1 hb
  exact h { x with reserved := r } hy

/-- Settling a drain with no work left ends it. -/
theorem settleTail_drained {s : State} (hv : s.volume.state = .draining) (hlive : ∀ x ∈ s.work, x.live = false) (hp : s.posted = [])
    (hs : s.sweep = none) (ha : s.seq.access = none) :
    (settleTail s).posted = [] ∧ (settleTail s).logs = s.logs ∧ (∀ x ∈ (settleTail s).work, x.live = false) ∧ (settleTail s).sweep = none
      ∧ (settleTail s).seq.access = none ∧ (∀ c, ((settleTail s).port c).events = (s.port c).events)
      ∧ (settleTail s).volume = { s.volume with
          drainTimer := none, drainExpired := false
          state := if s.volume.mapModified = true ∧ s.settings.storeOnUnload = true ∧ s.volume.label = some .valid then .storing
            else .releasing } := by
  have hframe := settled_frame s
  have hevents := settled_events s
  have hnone := settled_live hlive
  have htail : settleTail s = releaseStop (drainCheck (placeBoth (topUpBoth s))) := rfl
  generalize placeBoth (topUpBoth s) = v at hframe hevents hnone htail
  have hidle : v.hasVolumeWork = false := by
    have hvp : v.posted = [] := by rw [hframe, ← hp]
    have hvs : v.sweep = none := by rw [hframe, ← hs]
    have hvl : v.work.any Entry.live = false := by
      rw [List.any_eq_false]
      exact fun x hx => by simp [hnone x hx]
    simp [State.hasVolumeWork, hvp, hvs, hvl]
  have hdrain : drainCheck v = drainEnds v := by
    have hvv : v.volume.state = .draining := by rw [hframe, ← hv]
    rw [drainCheck, if_pos ⟨hvv, hidle⟩]
  obtain ⟨hw, hports, hlogs, hposted, hsweep, hseq⟩ := drainCheck_lists v
  obtain ⟨hw', hports', hlogs', hposted', hsweep', hvol', hseq'⟩ := releaseStop_lists (drainCheck v)
  rw [htail]
  refine ⟨?_, ?_, ?_, ?_, ?_, fun c => ?_, ?_⟩
  · rw [hposted', hposted, hframe, hp]
  · rw [hlogs', hlogs, hframe]
  · rw [hw', hw]
    exact hnone
  · rw [hsweep', hsweep, hframe, hs]
  · rw [hseq', hseq, hframe, ha]
  · rw [State.port, hports', hports]
    exact hevents c
  · rw [hvol', hdrain, drainEnds_volume, hframe]

/-- With no access in progress the expired drain ends all volume work as the step settles, and the drain with it (R158). -/
theorem drainEnded_settle {u x : State} (h : PutDown u x) (hv : u.volume.state = .draining) (hx : u.volume.drainExpired = true)
    (ho : OrdersLawful x) (hl : RepliesLawful x) : DrainEnded u (settle x) := by
  have hends : drainExpiry x = endVolumeWork x := by
    rw [drainExpiry, if_pos]
    exact ⟨by rw [h.volume, hv], by rw [h.volume, hx], h.access.2⟩
  have hn := List.nodup_append.1 ho.1
  have ended := endVolumeWork_ended hn.1 hn.2.1
  have hdues := ended.steps.dues (dueOwn_of_lawful hl)
  rw [settle_eq, hends]
  generalize endVolumeWork x = v at ended hdues
  have hvolume : v.volume = u.volume := by rw [ended.frame, ← h.volume]
  have hsettings : v.settings = u.settings := by rw [ended.frame, ← h.settings]
  obtain ⟨hposted, hlogs, hlive, hsweep, haccess, hevents, hvol⟩ := settleTail_drained (s := v) (by rw [hvolume, hv]) ended.noneLive
    (by rw [ended.frame]) (by rw [ended.frame]) (by rw [ended.frame]; exact h.access.2)
  refine ⟨fun e he hlive' hdiscard _ => ?_, ⟨hposted, ?_, fun p hp => ?_⟩, hlive, hsweep, haccess, ?_⟩
  · obtain ⟨y, hy, hylive, hyo, hych, hyd, hydone, hycond, hyend⟩ := h.entries e he hlive'
    have hlast : lastOf u e = e := by rw [lastOf, h.access.1]
    dsimp only
    rw [hlast]
    rcases settleTail_entry hdues (ended.finished y hy hylive (hyd.trans hdiscard)) with ⟨r, hr⟩ | ⟨-, hq⟩
    · exact .inl ⟨_, mem_of_entry hr, (entry_order hr).trans hyo, rfl, rfl, hydone, hycond⟩
    · refine .inr ?_
      rw [← hyend, ← completion_ended, ← hych]
      exact hq
  · obtain ⟨g, hg, hgp⟩ := h.posted
    rw [hlogs, ended.logs, hg, List.foldl_map, h.logs, h.clock]
    congr 1
    funext ls p
    rw [(hgp p).1, (hgp p).2]
  · obtain ⟨g, hg, hgp⟩ := h.posted
    rw [hevents, ← (hgp p).1]
    exact ended.told (g p) (hg ▸ List.mem_map_of_mem hp)
  · rw [hvol, hvolume, hsettings]

/-- A run put back under an expired drain timer: the drain ends. -/
theorem drainEnded_park {u v : State} (h : SameButReservations u v) (ha : u.seq.access = none) (hv : u.volume.state = .draining)
    (hx : u.volume.drainExpired = true) (ho : OrdersLawful u) (hl : RepliesLawful u) (o : Owner) (torn : Bool) :
    DrainEnded u (settle (park o torn v)) :=
  drainEnded_settle ((putDown_sameBut h ha).trans (putDown_park (by rw [h.1]; exact ha) o torn)) hv hx
    (park_ordersLawful (sameBut_ordersLawful h ho) o torn) (park_repliesLawful (sameBut_repliesLawful h hl) o torn)

/-- A FINISHED entry has ended in the state that the step settles, whether or not a drain ends with it. -/
theorem settle_ended {x : State} (hw : (x.work.map (fun e => e.order)).Nodup) (hp : (x.posted.map (fun p => p.order)).Nodup)
    (hd : DueOwn x) {e y : Entry} {code : Code} (hy : x.entry e.order = some y) (hst : y.state = .finished)
    (hcode : y.outcome = some code) (hch : y.channel = e.channel) (htag : y.tag = e.tag) : Ended e code (settle x) := by
  have steps : EndingSteps x (drainExpiry x) := by
    unfold drainExpiry
    split
    · exact (endVolumeWork_ended hw hp).steps
    · exact .refl x
  rw [settle_eq]
  exact settleTail_ended (steps.dues hd) (steps.kept _ _ hy hst) hst hcode hch htag

end Sys2Proof.Machine
end

section
/-! PROOFS. The DATA phase of a writing run: the sector's write, and what its end leads to (R99, R124, R144, R146). -/

namespace Sys2Proof.Machine

open Sys2Proof.Safety

/-! ## The stop that is taken next (R144 to R146) -/

theorem nextStop_none {a : Access} (h : a.stops = []) : a.nextStop = none := by
  simp [Access.nextStop, Access.protectFirst, h]

theorem takeWhile_uncut {l : List Stop} (h : .cut ∉ l) : l.takeWhile (fun c => c != .cut) = l :=
  List.takeWhile_eq_self_iff.2 (fun c hc => by
    simp only [bne_iff_ne]
    rintro rfl
    exact h hc)

theorem nextStop_protect {a : Access} (h : ProtectWaits a) : a.nextStop = some .protect := by
  obtain ⟨hp, hc⟩ := h
  rw [Access.nextStop, Access.protectFirst, takeWhile_uncut hc, if_pos (by simpa using hp)]

theorem nextStop_power {a : Access} (h : PowerWaits a) : a.nextStop = some .power := by
  obtain ⟨hpow, hprot, hcut⟩ := h
  rw [Access.nextStop, Access.protectFirst, takeWhile_uncut hcut, if_neg (by simpa using hprot), if_neg (by simpa using hcut)]
  cases hs : a.stops with
  | nil => simp [hs] at hpow
  | cons c rest =>
    rw [hs] at hprot hcut
    cases c with
    | power => rfl
    | protect => simp at hprot
    | cut => simp at hcut

/-! ## The end of a sector of a writing run -/

theorem retried_access (a : Access) (x : Option Access) (q : Sequencer) : retried a { q with access := x } = retried a q := by
  unfold retried
  split <;> rfl

/-- What follows a sector's end within a run: the stop that waits, the drain's, or the next sector (R124, R144, R158). -/
def midRun (m : Nat) (a : Access) (s : State) : State :=
  match a.nextStop with
  | some c => takeStop a false c s
  | none => if s.volume.drainExpired then stopRun a false s else turnTo m s

theorem sectorEnds_eq (a : Access) (s : State) :
    sectorEnds a s = if a.sector + 1 ≥ a.runEnd then runEnds a s else midRun (a.sector + 1) a s := rfl

theorem sectorEnds_mid {a : Access} (hend : a.sector + 1 < a.runEnd) (s : State) : sectorEnds a s = midRun (a.sector + 1) a s :=
  if_neg (by omega)

theorem midRun_turn {a : Access} {s : State} (hstop : a.nextStop = none) (hx : s.volume.drainExpired = false)
    (ha : s.seq.access = some a) (m : Nat) : midRun m a s = { s with seq := retried (turned a m) s.seq } := by
  have hac : (updAccess (fun x => turned x m) s).seq.access = some (turned a m) := by
    show s.seq.access.map _ = _
    rw [ha]
    rfl
  rw [midRun, hstop, hx]
  refine (nextPassage_eq_retried hac).trans ?_
  rw [show (updAccess (fun x => turned x m) s).seq
    = { s.seq with access := s.seq.access.map (fun x => turned x m) } from rfl, retried_access]
  rfl

theorem sectorEnds_runEnd {a : Access} (hend : a.sector + 1 = a.runEnd) (s : State) : sectorEnds a s = runEnds a s :=
  if_pos (by omega)

theorem midRun_protect {a : Access} (hk : a.kind = .writeRun ∨ a.kind = .appendRun) (hw : ProtectWaits a) (m : Nat) (s : State) :
    midRun m a s = endRun a .writeProtected s := by
  rw [midRun, nextStop_protect hw]
  dsimp only
  rw [takeStop]
  rcases hk with hk | hk <;> rw [hk]

theorem midRun_power {a : Access} (hw : PowerWaits a) (m : Nat) (s : State) : midRun m a s = stopRun a false s := by
  rw [midRun, nextStop_power hw]
  rfl

theorem midRun_drain {a : Access} (hstop : a.stops = []) {s : State} (hx : s.volume.drainExpired = true) (m : Nat) :
    midRun m a s = stopRun a false s := by
  rw [midRun, nextStop_none hstop, hx]
  rfl

/-! ## DATA_PHASE_COMPLETE of a writing run -/

/-- The state with the data phase of an access's sector done: the sector on the medium, the write gate closed (R124). -/
def dataPut (ws : List Word) (a : Access) (s : State) : State :=
  { s with
    medium := mediumSet (placeOf a) { header := .whole (headerOn (placeOf a) .written), data := .whole ws (crc ws) } s.medium
    seq := { s.seq with gate := false, phase := .none, access := some { a with checkPassed := true, tornResume := false } } }

theorem dataWritten_eq {s : State} {a : Access} {ws : List Word} {rest : List (List Word)} (ha : s.seq.access = some a)
    (hp : a.pass = .work) (hk : a.kind = .writeRun ∨ a.kind = .appendRun) (hplace : placeOf a < 7680)
    (hb : s.ownerBuffers a = ws :: rest) : dataWritten a s = dataPut ws a s := by
  have hwords : s.writeData a = ws := by
    rw [State.writeData, hb, if_neg (by rcases hk with h | h <;> simp [hp, h]), if_neg (by rcases hk with h | h <;> simp [h])]
    rfl
  have hhead : a.headerWritten = .written := by
    rw [Access.headerWritten, if_neg (by simp [hp]), if_neg (by rcases hk with h | h <;> simp [h])]
  have hput : putData a.address .written (dataFor ws) s =
      { s with medium := mediumSet (placeOf a) { header := .whole (headerOn (placeOf a) .written), data := .whole ws (crc ws) } s.medium } :=
    if_pos hplace
  unfold dataWritten
  rw [hwords, hhead, hput]
  simp only [updAccess, updSeq, ha, Option.map_some]
  rfl

/-- With verify the sector's read-back is next (R124). -/
theorem dataPhase_verified {s : State} {a : Access} {ws : List Word} {rest : List (List Word)} (ht : s.seq.state = .transferring)
    (hph : s.seq.phase = .data) (ha : s.seq.access = some a) (hp : a.pass = .work) (hk : a.kind = .writeRun ∨ a.kind = .appendRun)
    (hplace : placeOf a < 7680) (hb : s.ownerBuffers a = ws :: rest) (hv : a.verify = true) :
    exec .dataPhaseComplete s = .next
      { s with
        medium := mediumSet (placeOf a) { header := .whole (headerOn (placeOf a) .written), data := .whole ws (crc ws) } s.medium
        seq := retried { a with checkPassed := true, tornResume := false, pass := .readBack } { s.seq with gate := false, phase := .none } } := by
  show execDataPhaseComplete s = _
  rw [execDataPhaseComplete, inPhase_eq ht hph ha]
  dsimp only
  rw [dataWritten_eq ha hp hk hplace hb, afterData, if_neg (by simp [hp]), if_pos hv,
    nextPassage_eq_retried (a := { a with checkPassed := true, tornResume := false, pass := .readBack }) rfl]
  rfl

/-- Without verify the sector counts (R99, R124). -/
theorem dataPhase_counts {s : State} {a : Access} {ws : List Word} {rest : List (List Word)} (ht : s.seq.state = .transferring)
    (hph : s.seq.phase = .data) (ha : s.seq.access = some a) (hp : a.pass = .work) (hk : a.kind = .writeRun ∨ a.kind = .appendRun)
    (hplace : placeOf a < 7680) (hb : s.ownerBuffers a = ws :: rest) (hv : a.verify = false) :
    exec .dataPhaseComplete s = .next (settle (writeCounts { a with checkPassed := true, tornResume := false } (dataPut ws a s))) := by
  show execDataPhaseComplete s = _
  rw [execDataPhaseComplete, inPhase_eq ht hph ha]
  dsimp only
  rw [dataWritten_eq ha hp hk hplace hb, afterData, if_neg (by simp [hp]), if_neg (by simp [hv])]

/-! ## A WRITE's run -/

/-- The sequencer with a sector of a writing run counted; under FORCE the sector has left the defect list (R136). -/
def sectorCounted (force : Bool) (a : Access) (q : Sequencer) : Sequencer :=
  { (if force = true then defectRemoved a q else q) with access := some { a with done := a.done + 1 } }

theorem removeDefect_eq (a : Access) (s : State) :
    removeDefect a.cylinder (headOf a.sector) (sectorOf a.sector) s = { s with seq := defectRemoved a s.seq } := rfl

/-- A sector of a writing run counts: the buffer dropped, the sector off the defect list under FORCE (R99, R136). -/
theorem writeCounts_forced {s : State} {a : Access} (hk : a.kind = .writeRun) {force : Bool} (hforce : s.ownerForce a = force) :
    writeCounts a s = sectorEnds { a with done := a.done + 1 } (updAccess (fun x => { x with done := x.done + 1 })
      (countCommitted a (dropBuffer a { s with seq := if force = true then defectRemoved a s.seq else s.seq }))) := by
  have hlist : (if s.ownerForce a = true then removeDefect a.cylinder (headOf a.sector) (sectorOf a.sector) s else s) =
      { s with seq := if force = true then defectRemoved a s.seq else s.seq } := by
    rw [hforce, removeDefect_eq]
    split <;> rfl
  rw [← hlist]
  unfold writeCounts
  rw [hk]

theorem sectorDropped {s : State} (ho : OrdersLawful s) {e : Entry} (he : e ∈ s.work) {a : Access} (hown : a.owner = .entry e.order)
    {ws : List Word} {rest : List (List Word)} (hb : e.writeBuffers = ws :: rest) :
    countCommitted a (dropBuffer a s) = withEntry { e with writeBuffers := rest } s := by
  have hone : (fun x : Entry => { x with writeBuffers := x.writeBuffers.tail }) e = { e with writeBuffers := rest } := by
    dsimp only
    rw [hb]
    rfl
  rw [countCommitted, dropBuffer, hown]
  dsimp only
  rw [← hone]
  exact updEntry_of_mem ho he rfl

theorem writeCounts_entry {s : State} (ho : OrdersLawful s) {e : Entry} (he : e ∈ s.work) {a : Access} (ha : s.seq.access = some a)
    (hk : a.kind = .writeRun) (hown : a.owner = .entry e.order) {ws : List Word} {rest : List (List Word)}
    (hb : e.writeBuffers = ws :: rest) :
    writeCounts a s = sectorEnds { a with done := a.done + 1 }
      (withEntry { e with writeBuffers := rest } { s with seq := sectorCounted e.flags.force a s.seq }) := by
  have hforce : s.ownerForce a = e.flags.force := by
    rw [State.ownerForce, hown]
    dsimp only
    rw [entry_of_mem ho he]
    rfl
  have hac : (if e.flags.force = true then defectRemoved a s.seq else s.seq).access = some a := by
    split <;> exact ha
  rw [writeCounts_forced hk hforce,
    sectorDropped (s := { s with seq := if e.flags.force = true then defectRemoved a s.seq else s.seq }) ho he hown hb]
  simp only [updAccess, updSeq, withEntry, hac, Option.map_some, sectorCounted]

/-- The run's end with sectors remaining: the entry is at a run boundary (R84). -/
theorem runEnds_entry_more {s : State} (ho : OrdersLawful s) {e y : Entry} (he : e ∈ s.work) (hy : y.order = e.order) {a : Access}
    (hown : a.owner = .entry e.order) (hmore : y.done + a.done < y.count) :
    runEnds a (withEntry y s) =
      boundaryEntry a.nextStop e.order (topUpBoth (withEntry { y with done := y.done + a.done } (endAccess s))) := by
  rw [runEnds_entry ho he hy hown, if_neg (by omega)]

/-! ## The tests of a WRITE's run boundary (R84) -/

theorem sameBut_withSeq {s t : State} (h : SameButReservations s t) (q : Sequencer) :
    SameButReservations { s with seq := q } { t with seq := q } := by
  obtain ⟨w, rfl, hw⟩ := sameBut_exists h
  exact ⟨rfl, hw⟩

section Boundary

variable {u : State} (ho : OrdersLawful u) (hl : RepliesLawful u) {y : Entry} (hy : y ∈ u.work) (hk : y.kind = .write)

include ho hy hk in
theorem boundary_protected {stop : Option Stop} (hp : stop = some .protect ∨ u.ownerActive .protect = true) :
    boundaryEntry stop y.order (topUpBoth u) = endEntry y.order .writeProtected (topUpBoth u) := by
  obtain ⟨r, hr⟩ := sameBut_entry (sameButReservations_topUpBoth u) (entry_of_mem ho hy)
  have hact : (topUpBoth u).ownerActive .protect = u.ownerActive .protect := by rw [(sameButReservations_topUpBoth u).1]; rfl
  unfold boundaryEntry
  rw [hr]
  dsimp only
  rw [hact, hk, if_pos ⟨by simp, hp⟩]

include ho hy hk in
theorem boundary_stopped {stop : Option Stop} (hn : ¬ (stop = some .protect ∨ u.ownerActive .protect = true))
    (hs : stop.isSome = true ∨ u.volume.drainExpired = true) :
    boundaryEntry stop y.order (topUpBoth u) = park (.entry y.order) false (topUpBoth u) := by
  obtain ⟨r, hr⟩ := sameBut_entry (sameButReservations_topUpBoth u) (entry_of_mem ho hy)
  have hact : (topUpBoth u).ownerActive .protect = u.ownerActive .protect := by rw [(sameButReservations_topUpBoth u).1]; rfl
  have hvol : (topUpBoth u).volume = u.volume := by rw [(sameButReservations_topUpBoth u).1]
  unfold boundaryEntry
  rw [hr]
  dsimp only
  rw [hact, hvol, hk, if_neg (fun h => hn h.2), if_pos (hs.imp_left (fun h => ⟨by simp, h⟩))]

/-- An entry parked in a MOUNTED state that settles. -/
theorem settle_parked_self (hl : RepliesLawful u) (hv : u.volume.state = .mounted) (n : Nat) :
    SameButReservations
      { u with work := u.work.map (fun x => if x.order = n then
          { x with state := .parked, run := none, allocated := 0, tornNext := false } else x) }
      (settle (park (.entry n) false u)) :=
  settle_of_sameBut (sameBut_refl _) hl hv

/-- An entry parked once freed room has gone to short reservations. -/
theorem settle_parked (hl : RepliesLawful u) (hv : u.volume.state = .mounted) (n : Nat) :
    SameButReservations
      { u with work := u.work.map (fun x => if x.order = n then
          { x with state := .parked, run := none, allocated := 0, tornNext := false } else x) }
      (settle (park (.entry n) false (topUpBoth u))) :=
  settle_of_sameBut (s := updEntry n (fun x => { x with state := .parked, run := none, allocated := 0, tornNext := false }) u)
    (sameBut_updEntry (sameButReservations_topUpBoth u) n
      (f := fun x => { x with state := .parked, run := none, allocated := 0, tornNext := false }) (fun _ _ => rfl)) hl hv

include ho hy hk in
/-- A WRITE's boundary with no stop waiting and PROTECT inactive: its second and third test (R84). -/
theorem boundary_open (hv : u.volume.state = .mounted) (hx : u.volume.drainExpired = false) (hp : ¬ u.ownerActive .protect = true) :
    boundaryEntry none y.order (topUpBoth u) =
      if ((u.settings.row (y.cls.getD .bulk)).yields && (topUpBoth u).higherWaits (y.cls.getD .bulk)) = true then
        park (.entry y.order) false (topUpBoth u)
      else if u.powerPeriod = none then grantEntry y.order (topUpBoth u) else park (.entry y.order) false (topUpBoth u) := by
  have hsame := sameButReservations_topUpBoth u
  obtain ⟨r, hr⟩ := sameBut_entry hsame (entry_of_mem ho hy)
  have hact : (topUpBoth u).ownerActive .protect = u.ownerActive .protect := by rw [hsame.1]; rfl
  have hvol : (topUpBoth u).volume = u.volume := by rw [hsame.1]
  have hset : (topUpBoth u).settings = u.settings := by rw [hsame.1]
  have hruns : ((topUpBoth u).volumeUsable && (topUpBoth u).mayRunNow { y with reserved := r }) = true ↔ u.powerPeriod = none := by
    have hperiod : (topUpBoth u).powerPeriod = u.powerPeriod := by rw [hsame.1]
    simp [State.volumeUsable, hvol, hv, State.mayRunNow, hk, State.writeHold, hperiod]
  unfold boundaryEntry
  rw [hr]
  dsimp only
  rw [hact, hvol, hx, hset, if_neg (fun h => hp (h.2.resolve_left (by simp))), if_neg (by simp)]
  simp only [hruns]

include ho hl hy hk in
/-- A WRITE's boundary with no stop waiting (R84): the three tests, and the grant of its next run. -/
theorem atBoundary_write (hv : u.volume.state = .mounted) (hx : u.volume.drainExpired = false) :
    AtBoundary y u (settle (boundaryEntry none y.order (topUpBoth u))) := by
  have hsame := sameButReservations_topUpBoth u
  obtain ⟨r, hr⟩ := sameBut_entry hsame (entry_of_mem ho hy)
  have hyields : ((u.settings.row (y.cls.getD .bulk)).yields && (topUpBoth u).higherWaits (y.cls.getD .bulk)) = true ↔
      (u.settings.row (y.cls.getD .bulk)).yields = true ∧ ∃ c ∈ (topUpBoth u).candidates, c.cls.code < (y.cls.getD .bulk).code := by
    simp [State.higherWaits]
  have granted : ¬ u.ownerActive .protect = true →
      ¬ ((u.settings.row (y.cls.getD .bulk)).yields = true ∧ ∃ c ∈ (topUpBoth u).candidates, c.cls.code < (y.cls.getD .bulk).code) →
      u.powerPeriod = none → boundaryEntry none y.order (topUpBoth u) = grantEntry y.order (topUpBoth u) := by
    intro hp hn hw
    rw [boundary_open ho hy hk hv hx hp, if_neg (fun h => hn (hyields.1 h)), if_pos hw]
  refine ⟨fun ⟨_, hp⟩ => ?_, fun hp hor => ?_, fun _ hread => ?_, fun k hgo _ hslot => ?_, fun k f _ happ => ?_⟩
  · rw [boundary_protected ho hy hk (.inr hp)]
    exact settle_endEntry_of_sameBut hsame ho hl hv hy .writeProtected
  · have hp' : ¬ u.ownerActive .protect = true := fun h => hp ⟨by simp [hk], h⟩
    have hparks : boundaryEntry none y.order (topUpBoth u) = park (.entry y.order) false (topUpBoth u) := by
      rw [boundary_open ho hy hk hv hx hp']
      split
      · rfl
      · next hny =>
        refine if_neg (fun hw => ?_)
        rcases hor with h | h
        · exact hny (hyields.2 h)
        · exact h ⟨fun hread => by simp [hk] at hread, fun _ => hw⟩
    rw [hparks]
    exact settle_parked hl hv y.order
  · simp [hk] at hread
  · obtain ⟨hp, hny, -, hhold⟩ := hgo
    have hp' : ¬ u.ownerActive .protect = true := fun h => hp ⟨by simp [hk], h⟩
    rw [granted hp' hny (hhold (by simp [hk]))]
    have hclaim : ClaimStands (topUpBoth u) k y.channel y.token ↔ ClaimStands u k y.channel y.token := by
      rw [← mayWriteNow_iff, ← mayWriteNow_iff, hsame.1]
      rfl
    have hseq : (topUpBoth u).seq = u.seq := by rw [hsame.1]
    refine ⟨fun hc => ?_, fun hc => ?_⟩
    · have hgrant := grantEntry_write (s := topUpBoth u) (e := { y with reserved := r }) hr hk hslot (hclaim.2 hc)
      rw [show ({ y with reserved := r } : Entry).order = y.order from rfl] at hgrant
      rw [hgrant, hseq, hslot]
      have hupd := sameBut_updEntry hsame y.order
        (f := fun x => { x with state := .active, deadline := none
                                run := some (y.first + y.done, runLength (y.first + y.done) y.remaining), tornNext := false })
        (g := fun x => { x with state := .active, deadline := none
                                run := some (y.first + y.done, runLength (y.first + y.done) y.remaining), tornNext := false })
        (fun _ _ => rfl)
      exact settle_of_sameBut (sameBut_withSeq hupd _) hl hv
    · have hgrant := grantEntry_write_lost (s := topUpBoth u) (e := { y with reserved := r }) hr hk hslot (fun h => hc (hclaim.1 h))
      rw [show ({ y with reserved := r } : Entry).order = y.order from rfl] at hgrant
      rw [hgrant]
      exact settle_endEntry_of_sameBut (s := updEntry y.order (fun x => { x with state := .active, deadline := none }) u)
        (e := { y with state := .active, deadline := none })
        (sameBut_updEntry hsame y.order (f := fun x => { x with state := .active, deadline := none }) (fun _ _ => rfl))
        (updEntry_ordersLawful ho (fun _ => rfl)) hl hv (List.mem_map.2 ⟨y, hy, if_pos rfl⟩) .claimLost
  · simp [hk] at happ

end Boundary

end Sys2Proof.Machine
end

section
/-! PROOFS. O46: the DATA phase of a WRITE's run completed. -/

namespace Sys2Proof.Machine

open Sys2Proof.Safety

/-- The access with the sector it has written counted (R99). -/
abbrev Access.counted (a : Access) : Access := { a with checkPassed := true, tornResume := false, done := a.done + 1 }

/-- The sequencer's part of a sector counted: under FORCE the sector has left the defect list (R136). -/
abbrev afterForce (force : Bool) (a : Access) (q : Sequencer) : Sequencer := if force = true then defectRemoved a q else q

theorem retried_sectorCounted (force : Bool) (b a : Access) (x : Option Access) (q : Sequencer) :
    retried b (sectorCounted force a { q with access := x }) = retried b (afterForce force a q) := by
  refine (retried_access _ _ _).trans ?_
  cases force
  · exact retried_access _ _ _
  · exact retried_access b x (defectRemoved a q)

/-- A sector of a WRITE's run put on the medium, counted in the sequencer (R99, R136). -/
def writtenBy (ws : List Word) (force : Bool) (a : Access) (s : State) : State :=
  { dataPut ws a s with seq := sectorCounted force { a with checkPassed := true, tornResume := false } (dataPut ws a s).seq }

theorem endAccess_writtenBy (ws : List Word) (force : Bool) (a : Access) (s : State) :
    endAccess (writtenBy ws force a s) =
      { s with
        medium := mediumSet (placeOf a) { header := .whole (headerOn (placeOf a) .written), data := .whole ws (crc ws) } s.medium
        ctlBuffer := .free, seq := ended (afterForce force a { s.seq with gate := false, phase := .none }) } := by
  cases force <;> rfl

/-- DATA_PHASE_COMPLETE of a WRITE's run without verify, up to what the sector's end leads to. -/
theorem dataPhase_entry {s : State} {a : Access} {e : Entry} {ws : List Word} {rest : List (List Word)} (ht : s.seq.state = .transferring)
    (hph : s.seq.phase = .data) (ha : s.seq.access = some a) (hp : a.pass = .work) (hk : a.kind = .writeRun)
    (hplace : placeOf a < 7680) (ho : OrdersLawful s) (he : e ∈ s.work) (hown : a.owner = .entry e.order)
    (hb : e.writeBuffers = ws :: rest) (hv : a.verify = false) :
    exec .dataPhaseComplete s = .next (settle (sectorEnds a.counted
      (withEntry { e with writeBuffers := rest } (writtenBy ws e.flags.force a s)))) := by
  have hbuf : s.ownerBuffers a = ws :: rest := by
    rw [State.ownerBuffers, hown]
    dsimp only
    rw [entry_of_mem ho he]
    exact hb
  rw [dataPhase_counts ht hph ha hp (.inl hk) hplace hbuf hv]
  rw [writeCounts_entry (s := dataPut ws a s) ho he (a := { a with checkPassed := true, tornResume := false }) rfl hk hown hb]
  rfl

/-! ## What a sector's end leads to, by what waits -/

/-- An entry with sectors of its run credited (R89). -/
def Entry.credited (n : Nat) (e : Entry) : Entry := { e with done := e.done + n }

theorem credited_order (n : Nat) (e : Entry) : (e.credited n).order = e.order := rfl

/-- What stands when a WRITE's run is over: the laws, and the entry in the list. -/
structure RunOver (y : Entry) (u : State) : Prop where
  orders : OrdersLawful u
  replies : RepliesLawful u
  mem : y ∈ u.work
  kind : y.kind = .write

theorem runOver_withEntry {s : State} (ho : OrdersLawful s) (hl : RepliesLawful s) {e y : Entry} (he : e ∈ s.work) (hy : y.order = e.order)
    (hk : y.kind = .write) (n : Nat) : RunOver (y.credited n) (withEntry (y.credited n) (endAccess s)) :=
  ⟨withEntry_ordersLawful (s := endAccess s) ho _, repliesLawful_congr hl (fun _ => ⟨rfl, rfl⟩),
    mem_withEntry (s := endAccess s) he hy, hk⟩

theorem stopRun_withEntry {a : Access} {e y : Entry} (hy : y.order = e.order) (hown : a.owner = .entry e.order) (s : State) :
    stopRun a false (withEntry y s) = park (.entry (y.credited a.done).order) false (withEntry (y.credited a.done) (endAccess s)) := by
  have hcred : creditRun a (endAccess (withEntry y s)) = withEntry (y.credited a.done) (endAccess s) := by
    rw [creditRun_entry hown]
    exact updEntry_withEntry hy (f := fun x => { x with done := x.done + a.done }) rfl (endAccess s)
  rw [stopRun, hcred, hown, credited_order, hy]

theorem endRun_credited {a : Access} {e y : Entry} (hy : y.order = e.order) (hown : a.owner = .entry e.order) (code : Code) (s : State) :
    endRun a code (withEntry y s) = endEntry (y.credited a.done).order code (withEntry (y.credited a.done) (endAccess s)) := by
  rw [credited_order, hy]
  exact endRun_withEntry hown hy code s

section RunOver

variable {u : State} {y : Entry} (h : RunOver y u)

include h in
theorem settle_ends_mounted (hv : u.volume.state = .mounted) (code : Code) :
    SameButReservations (entryEnded y code u) (settle (endEntry y.order code u)) :=
  settle_endEntry_of_sameBut (sameBut_refl u) h.orders h.replies hv h.mem code

include h in
theorem settle_ends_topped (hv : u.volume.state = .mounted) (code : Code) :
    SameButReservations (entryEnded y code u) (settle (endEntry y.order code (topUpBoth u))) :=
  settle_endEntry_of_sameBut (sameButReservations_topUpBoth u) h.orders h.replies hv h.mem code

include h in
/-- An entry that ends with a reply has ended, whether or not a drain ends with it. -/
theorem settle_ends_draining {code : Code} (hs : y.leavesSilently code = false) : Ended y code (settle (endEntry y.order code u)) := by
  have hself := endEntry_entry_self (entry_of_mem h.orders h.mem) hs
  have hn := List.nodup_append.1 h.orders.1
  refine settle_ended (hn.1.sublist (endEntry_orders y.order code u)) ?_ (dueOwn_endEntry h.replies y.order code) hself rfl rfl rfl rfl
  rw [endEntry_posted]
  exact hn.2.1

end RunOver

section SectorEnd

variable {s : State} (ho : OrdersLawful s) (hl : RepliesLawful s) {e y : Entry} (he : e ∈ s.work) (hy : y.order = e.order)
  (hk : y.kind = .write) {a : Access} (hown : a.owner = .entry e.order) (hak : a.kind = .writeRun)

include ho he hy hown in
theorem runEnds_more (hmore : y.done + a.done < y.count) :
    runEnds a (withEntry y s) =
      boundaryEntry a.nextStop (y.credited a.done).order (topUpBoth (withEntry (y.credited a.done) (endAccess s))) := by
  rw [credited_order, hy]
  exact runEnds_entry_more ho he hy hown hmore

include ho he hy hk hown in
theorem runEnds_last (hlast : y.done + a.done = y.count) :
    runEnds a (withEntry y s) = endEntry (y.credited a.done).order .done (withEntry (y.credited a.done) (endAccess s)) := by
  have hcode : y.normalOutcome = .done := by rw [Entry.normalOutcome, hk]
  rw [credited_order, hy, ← hcode]
  exact runEnds_entry_last ho he hy hown hlast

include ho hl he hy hk hown in
/-- The run's end with no stop waiting: a run boundary. -/
theorem sectorEnds_atBoundary (hend : a.sector + 1 = a.runEnd) (hmore : y.done + a.done < y.count) (hv : s.volume.state = .mounted)
    (hstop : a.stops = []) (hx : s.volume.drainExpired = false) :
    AtBoundary (y.credited a.done) (withEntry (y.credited a.done) (endAccess s)) (settle (sectorEnds a (withEntry y s))) := by
  have h := runOver_withEntry ho hl he hy hk a.done
  rw [sectorEnds_runEnd hend, runEnds_more ho he hy hown hmore, nextStop_none hstop]
  exact atBoundary_write h.orders h.replies h.mem h.kind hv hx

include ho hl he hy hk hown in
/-- The request's last sector: the entry ends DONE. -/
theorem sectorEnds_done (hend : a.sector + 1 = a.runEnd) (hlast : y.done + a.done = y.count) (hv : s.volume.state = .mounted) :
    SameButReservations (entryEnded (y.credited a.done) .done (withEntry (y.credited a.done) (endAccess s)))
      (settle (sectorEnds a (withEntry y s))) := by
  rw [sectorEnds_runEnd hend, runEnds_last ho he hy hk hown hlast]
  exact settle_ends_mounted (runOver_withEntry ho hl he hy hk a.done) hv .done

include ho hl he hy hk hown in
/-- The request's last sector under an expired drain timer: the entry ends DONE before the drain ends. -/
theorem sectorEnds_done_draining (hend : a.sector + 1 = a.runEnd) (hlast : y.done + a.done = y.count) (hd : y.discard = false)
    (hq : y.flags.quiet = false) : Ended (y.credited a.done) .done (settle (sectorEnds a (withEntry y s))) := by
  rw [sectorEnds_runEnd hend, runEnds_last ho he hy hk hown hlast]
  exact settle_ends_draining (runOver_withEntry ho hl he hy hk a.done) (by simp [Entry.leavesSilently, Entry.credited, hd, hq])

include ho hl he hy hk hown hak in
/-- A stop that waits is taken at the sector's end with sectors remaining (R144, R146). -/
theorem sectorEnds_stopped (hmore : a.sector + 1 < a.runEnd ∨ (a.sector + 1 = a.runEnd ∧ y.done + a.done < y.count))
    (hv : s.volume.state = .mounted) :
    EntryStopped a (y.credited a.done) (withEntry (y.credited a.done) (endAccess s)) (settle (sectorEnds a (withEntry y s))) := by
  have h := runOver_withEntry ho hl he hy hk a.done
  refine ⟨fun hw => ?_, fun hw hp => ?_⟩
  · rcases hmore with hmid | ⟨hend, hleft⟩
    · rw [sectorEnds_mid hmid, midRun_protect (.inl hak) hw, endRun_credited hy hown]
      exact settle_ends_mounted h hv .writeProtected
    · rw [sectorEnds_runEnd hend, runEnds_more ho he hy hown hleft, nextStop_protect hw,
        boundary_protected h.orders h.mem h.kind (.inl rfl)]
      exact settle_ends_topped h hv .writeProtected
  · rcases hmore with hmid | ⟨hend, hleft⟩
    · rw [sectorEnds_mid hmid, midRun_power hw, stopRun_withEntry hy hown]
      exact settle_parked_self h.replies hv _
    · rw [sectorEnds_runEnd hend, runEnds_more ho he hy hown hleft, nextStop_power hw,
        boundary_stopped h.orders h.mem h.kind (stop := some .power) (fun h => h.elim (by simp) (by simp [hp])) (.inl rfl)]
      exact settle_parked h.replies hv _

include ho hl he hy hk hown in
/-- Under an expired drain timer the run stops at the sector's end with sectors remaining, and the drain ends (R158). -/
theorem sectorEnds_drained (hmore : a.sector + 1 < a.runEnd ∨ (a.sector + 1 = a.runEnd ∧ y.done + a.done < y.count))
    (hstop : a.stops = []) (hv : s.volume.state = .draining) (hx : s.volume.drainExpired = true) (hp : ¬ s.ownerActive .protect = true) :
    DrainEnded (withEntry (y.credited a.done) (endAccess s)) (settle (sectorEnds a (withEntry y s))) := by
  have h := runOver_withEntry ho hl he hy hk a.done
  rcases hmore with hmid | ⟨hend, hleft⟩
  · rw [sectorEnds_mid hmid, midRun_drain hstop (s := withEntry y s) hx, stopRun_withEntry hy hown]
    exact drainEnded_park (u := withEntry (y.credited a.done) (endAccess s)) (sameBut_refl _) rfl hv hx h.orders h.replies _ _
  · rw [sectorEnds_runEnd hend, runEnds_more ho he hy hown hleft, nextStop_none hstop,
      boundary_stopped h.orders h.mem h.kind (fun h => h.elim (by simp) hp) (.inr hx)]
    exact drainEnded_park (u := withEntry (y.credited a.done) (endAccess s)) (sameButReservations_topUpBoth _) rfl hv hx h.orders h.replies _ _

end SectorEnd

/-! ## The sector's end of a WRITE's run, from the DATA phase -/

/-- The run goes on with its next sector. -/
theorem written_nextSector {s : State} (ho : OrdersLawful s) (hl : RepliesLawful s) {e : Entry} (he : e ∈ s.work) {a : Access}
    (ws : List Word) (rest : List (List Word)) (hend : a.sector + 1 < a.runEnd)
    (hv : s.volume.state = .mounted) (hstop : a.stops = []) (hx : s.volume.drainExpired = false) :
    SameButReservations
      { s with
        medium := mediumSet (placeOf a) { header := .whole (headerOn (placeOf a) .written), data := .whole ws (crc ws) } s.medium
        work := s.work.map (fun x => if x.order = e.order then { x with writeBuffers := rest } else x)
        seq := retried (turned a.counted (a.sector + 1))
          (afterForce e.flags.force a { s.seq with gate := false, phase := .none }) }
      (settle (sectorEnds a.counted
        (withEntry { e with writeBuffers := rest } (writtenBy ws e.flags.force a s)))) := by
  rw [sectorEnds_mid (a := a.counted) hend, midRun_turn (a := a.counted)
    (s := withEntry { e with writeBuffers := rest } (writtenBy ws e.flags.force a s)) (nextStop_none hstop) hx rfl]
  have hwork : (withEntry { e with writeBuffers := rest } (writtenBy ws e.flags.force a s)).work =
      s.work.map (fun x => if x.order = e.order then { x with writeBuffers := rest } else x) :=
    congrArg State.work (updEntry_of_mem ho he (f := fun x => { x with writeBuffers := rest }) rfl).symm
  have hseq : ∀ c : Access, retried c (withEntry { e with writeBuffers := rest } (writtenBy ws e.flags.force a s)).seq =
      retried c (afterForce e.flags.force a { s.seq with gate := false, phase := .none }) := fun c =>
    retried_sectorCounted e.flags.force c { a with checkPassed := true, tornResume := false }
      (some { a with checkPassed := true, tornResume := false }) { s.seq with gate := false, phase := .none }
  rw [hseq]
  refine settle_of_sameBut ?_ (repliesLawful_congr hl (fun _ => ⟨rfl, rfl⟩)) hv
  refine ⟨rfl, ?_⟩
  rw [← hwork]

end Sys2Proof.Machine

namespace Sys2Proof.Proofs

open Sys2Proof.Machine Sys2Proof.Safety

/-- Settles O46, by what waits at the sector's end and by where in the run the sector stands. -/
theorem dataPhaseComplete : Obligations.DataPhaseComplete := by
  unfold Obligations.DataPhaseComplete
  intro a e ws rest s ht hph ha hplace hp hk hown he hkind hb ho hl
  dsimp only
  have hexec := dataPhase_entry ht hph ha hp hk hplace ho he hown hb
  have hover := endAccess_writtenBy ws e.flags.force a s
  have hlaws : OrdersLawful (writtenBy ws e.flags.force a s) := ho
  have hreplies : RepliesLawful (writtenBy ws e.flags.force a s) := hl
  have hmem : e ∈ (writtenBy ws e.flags.force a s).work := he
  have hbuf : s.ownerBuffers a = ws :: rest := by
    rw [State.ownerBuffers, hown]
    dsimp only
    rw [entry_of_mem ho he]
    exact hb
  have hsum : e.done + (a.done + 1) = e.done + a.done + 1 := rfl
  have hleft : a.sector + 1 < a.runEnd ∨ (a.sector + 1 = a.runEnd ∧ e.done + a.done + 1 < e.count) →
      a.sector + 1 < a.runEnd ∨ (a.sector + 1 = a.runEnd ∧ e.done + (a.done + 1) < e.count) := fun h => hsum ▸ h
  refine ⟨fun hv => dataPhase_verified ht hph ha hp (.inl hk) hplace hbuf hv, fun hv hend hm hun => ?_, fun hv hend hmore hm hun => ?_,
    fun hv hend hlast => ⟨fun hm => ?_, fun hd hdis hq => ?_⟩, fun hv hmore => ⟨fun hm hx hw => ?_, fun hd => ?_⟩⟩
  · exact ⟨_, hexec hv, written_nextSector ho hl he ws rest hend hm hun.1 hun.2⟩
  · have h := sectorEnds_atBoundary hlaws hreplies hmem (y := { e with writeBuffers := rest }) rfl hkind
      (a := a.counted) hown hend hmore hm hun.1 hun.2
    rw [hover] at h
    exact ⟨_, hexec hv, h⟩
  · have h := sectorEnds_done hlaws hreplies hmem (y := { e with writeBuffers := rest }) rfl hkind
      (a := a.counted) hown hend hlast hm
    rw [hover] at h
    exact ⟨_, hexec hv, h⟩
  · exact ⟨_, hexec hv, sectorEnds_done_draining hlaws hreplies hmem (y := { e with writeBuffers := rest }) rfl hkind
      (a := a.counted) hown hend hlast hdis hq⟩
  · have h := sectorEnds_stopped hlaws hreplies hmem (y := { e with writeBuffers := rest }) rfl hkind
      (a := a.counted) hown hk (hleft hmore) hm
    rw [hover] at h
    exact ⟨_, hexec hv, h⟩
  · obtain ⟨⟨hstop, hv', hx⟩, hp'⟩ := hd
    have h := sectorEnds_drained hlaws hreplies hmem (y := { e with writeBuffers := rest }) rfl hkind
      (a := a.counted) hown (hleft hmore) hstop hv' hx
      (fun h => Bool.false_ne_true (hp'.symm.trans h))
    rw [hover] at h
    exact ⟨_, hexec hv, h⟩

end Sys2Proof.Proofs
end

section
/-! PROOFS. What a FLUSH learns as a posted write it watches leaves (R108). -/

namespace Sys2Proof.Machine

open Sys2Proof.Safety

/-- What a FLUSH's own turn makes of it. -/
def Entry.flushed (e : Entry) : Entry :=
  if e.state = .watching ∧ e.watched = [] then e.finishedWith (if e.faultSeen then .faulted else .done) else e

theorem endFlush_entry_self {s : State} {e : Entry} (he : s.entry e.order = some e) (hd : e.discard = false) (hq : e.flags.quiet = false) :
    (endFlush s e).entry e.order = some e.flushed := by
  unfold endFlush Entry.flushed
  split
  · exact endEntry_entry_self he (by simp [Entry.leavesSilently, hd, hq])
  · exact he

/-- Each FLUSH of a list has its own turn. -/
theorem foldl_endFlush_entry {l : List Entry} (hn : (l.map (fun e => e.order)).Nodup) {e : Entry} (hmem : e ∈ l) {s : State}
    (he : s.entry e.order = some e) (hd : e.discard = false) (hq : e.flags.quiet = false) :
    (l.foldl endFlush s).entry e.order = some e.flushed := by
  induction l generalizing s with
  | nil => exact absurd hmem List.not_mem_nil
  | cons x l ih =>
    rw [List.map_cons, List.nodup_cons] at hn
    rw [List.foldl_cons]
    rcases List.mem_cons.1 hmem with rfl | hin
    · have hrest : ∀ y ∈ l, y.order ≠ e.order := fun y hy hyo =>
        hn.1 (hyo ▸ List.mem_map_of_mem (f := fun e : Entry => e.order) hy)
      rw [foldl_endFlush_entry_ne hrest, endFlush_entry_self he hd hq]
    · have hne : e.order ≠ x.order := fun h => hn.1 (h ▸ List.mem_map_of_mem (f := fun e : Entry => e.order) hin)
      exact ih hn.2 hin (by rw [endFlush_entry_ne hne, he])

/-- A posted write has left: an entry that stood has learned it and had its own turn. -/
theorem postedLeaves_entry {s : State} (hn : (s.work.map (fun e => e.order)).Nodup) {e : Entry} (he : e ∈ s.work) (n : Nat) (fault : Bool)
    (hd : e.discard = false) (hq : e.flags.quiet = false) :
    (postedLeaves n fault s).entry e.order = some (e.sawEnd n fault).flushed := by
  have hgone : (postedGone n fault s).entry e.order = some (e.sawEnd n fault) := by
    rw [postedGone_entry, entry_of_nodup hn he, Option.map_some]
  have hsame : (e.sawEnd n fault).discard = e.discard ∧ (e.sawEnd n fault).flags = e.flags := by
    unfold Entry.sawEnd
    split <;> exact ⟨rfl, rfl⟩
  rw [postedLeaves_eq, ← sawEnd_order n fault e]
  rw [← sawEnd_order n fault e] at hgone
  exact foldl_endFlush_entry (postedGone_nodup hn n fault) (mem_of_entry hgone) hgone (hsame.1.trans hd) (by rw [hsame.2, hq])

/-- What the FLUSHes of `s` watching `p` have learned in `t` (R108). -/
def Learned (p : Posted) (s : State) (fault : Bool) (t : State) : Prop :=
  ∀ e ∈ s.work, e.state = .watching → p.order ∈ e.watched → e.discard = false → e.flags.quiet = false →
    ((∀ n ∈ e.watched, n = p.order) → Ended e (if fault || e.faultSeen then .faulted else .done) t)
      ∧ ((∃ n ∈ e.watched, n ≠ p.order) → ∃ y ∈ t.work, bareEntry y = bareEntry
          { e with watched := e.watched.filter (fun n => n ≠ p.order), faultSeen := e.faultSeen || fault })

/-- A posted write leaves in a step that settles: the FLUSHes watching it learn its end. -/
theorem learned_settle {p : Posted} {s x : State} (hx : x.work = s.work) (hn : (s.work.map (fun e => e.order)).Nodup)
    (hdue : DueOwn x) (hv : x.volume.state = .mounted) (fault : Bool) (f : Sequencer → Sequencer) :
    Learned p s fault (settle (updSeq f (postedLeaves p.order fault x))) := by
  intro e he hw hmem hd hq
  have hnx : (x.work.map (fun e => e.order)).Nodup := by rw [hx]; exact hn
  have hent := postedLeaves_entry hnx (hx ▸ he) p.order fault hd hq
  have hdues := (endingSteps_postedLeaves hnx p.order fault).dues hdue
  have hvol : (updSeq f (postedLeaves p.order fault x)).volume.state = .mounted := by
    rw [← hv]
    show (postedLeaves p.order fault x).volume.state = _
    rw [postedLeaves_frame]
  have htail : settle (updSeq f (postedLeaves p.order fault x)) = settleTail (updSeq f (postedLeaves p.order fault x)) := by
    have hnot : (updSeq f (postedLeaves p.order fault x)).volume.state ≠ .draining := fun h =>
      absurd (hvol.symm.trans h) (by decide)
    rw [settle_eq, drainExpiry, if_neg (fun h => hnot h.1)]
  generalize hz : updSeq f (postedLeaves p.order fault x) = z at htail
  have hzent : z.entry e.order = some (e.sawEnd p.order fault).flushed := by rw [← hz]; exact hent
  have hzdue : DueOwn z := by rw [← hz]; exact hdues
  have hsaw : e.sawEnd p.order fault =
      { e with watched := e.watched.filter (fun n => n ≠ p.order), faultSeen := e.faultSeen || fault } := by
    rw [Entry.sawEnd, if_pos ⟨hw, hmem⟩]
  rw [hsaw] at hzent
  rw [htail]
  refine ⟨fun hall => ?_, fun ⟨n, hn', hne⟩ => ?_⟩
  · have hnone : e.watched.filter (fun n => n ≠ p.order) = [] := by
      rw [List.filter_eq_nil_iff]
      exact fun n hn' => by simp [hall n hn']
    rw [Entry.flushed, if_pos ⟨hw, hnone⟩] at hzent
    refine settleTail_ended hzdue hzent rfl ?_ rfl rfl
    show some (if (e.faultSeen || fault) = true then Code.faulted else Code.done) = _
    rw [Bool.or_comm]
  · have hsome : e.watched.filter (fun n => n ≠ p.order) ≠ [] :=
      List.ne_nil_of_mem (List.mem_filter.2 ⟨hn', by simpa using hne⟩)
    rw [Entry.flushed, if_neg (fun h => hsome h.2)] at hzent
    rcases settleTail_entry hzdue hzent with ⟨r, hr⟩ | ⟨hfin, -⟩
    · exact ⟨_, mem_of_entry hr, rfl⟩
    · have hfin' : e.state = .finished := hfin
      simp [hw] at hfin'

/-- A posted write faults in a step that settles. -/
theorem learned_faulted {p y : Posted} {s x : State} (hx : x.work = s.work) (ho : OrdersLawful s) (hy : x.postedWrite p.order = some y)
    (hl : RepliesLawful x) (hv : x.volume.state = .mounted) (cause : Code) (f : Sequencer → Sequencer) :
    Learned p s true (settle (updSeq f (faultPosted p.order cause x))) := by
  have hyo := posted_order_of_find hy
  rw [faultPosted, drainEnding_mounted hv, if_neg (by simp), ← hyo, faultOne_some (hyo ▸ hy), hyo]
  refine learned_settle ((faultTold_work y cause x).trans hx) (List.nodup_append.1 ho.1).1
    ((endingSteps_faultTold y cause x).dues (dueOwn_of_lawful hl)) ?_ true f
  rw [← hv]
  unfold faultTold
  dsimp only
  split <;> rfl

end Sys2Proof.Machine
end

section
/-! PROOFS. A commit run: a sector counted, its run's end, and the tests of its boundary (R84, R103, R104). -/

namespace Sys2Proof.Machine

open Sys2Proof.Safety

/-! ## A posted write that leaves, in states alike but for reservations -/

theorem sameBut_postedFaulted {s t : State} (h : SameButReservations s t) (p : Posted) (cause : Code) :
    SameButReservations (postedFaulted p cause s) (postedFaulted p cause t) := by
  obtain ⟨w, rfl, hw⟩ := sameBut_exists h
  unfold postedFaulted
  dsimp only
  split <;> exact ⟨rfl, hw⟩

theorem sameBut_quiet {s t : State} (h : SameButReservations s t) (hq : ∀ e ∈ s.work, e.state ≠ .watching) :
    ∀ e ∈ t.work, e.state ≠ .watching := by
  intro e he
  obtain ⟨x, hx, hb⟩ := List.mem_map.1 (h.2 ▸ List.mem_map_of_mem (f := bareEntry) he)
  obtain ⟨r, rfl⟩ := bareEntry_eq_iff.1 hb
  exact hq { e with reserved := r } hx

theorem filter_withPosted (y : Posted) (s : State) :
    (withPosted y s).posted.filter (fun x => x.order ≠ y.order) = s.posted.filter (fun x => x.order ≠ y.order) := by
  show (s.posted.map (fun x => if x.order = y.order then y else x)).filter _ = _
  induction s.posted with
  | nil => rfl
  | cons x l ih => by_cases h : x.order = y.order <;> simp [h] at ih ⊢ <;> exact ih

theorem postedLeft_withPosted {p y : Posted} (hy : y.order = p.order) (s : State) :
    postedLeft y (withPosted y s) = postedLeft p s := by
  unfold postedLeft
  rw [filter_withPosted, hy]
  rfl

theorem postedFaulted_withPosted (y : Posted) (cause : Code) (s : State) :
    postedFaulted y cause (withPosted y s) = postedFaulted y cause s := by
  have hleft := fun x : State => postedLeft_withPosted (p := y) (y := y) rfl x
  unfold postedFaulted
  dsimp only
  split
  · exact hleft { (updFill y.slot (fun f => { f with pending := f.pending - y.buffers.length }) s).updPort y.channel
        (fun q => { q with events := q.events ||| EventKind.postedFault.bit }) with
      logs := s.logs.set y.channel (recorded (faultEntryOf cause s.clock y) (s.logs.get y.channel)) }
  · exact hleft { s.updPort y.channel (fun q => { q with events := q.events ||| EventKind.postedFault.bit }) with
      logs := s.logs.set y.channel (recorded (faultEntryOf cause s.clock y) (s.logs.get y.channel)) }

/-! ## The commit run at its sector's end -/

/-- What stands as a sector of a commit run ends: the laws, the posted write in the list, and no FLUSH watching. -/
structure PostedOver (y : Posted) (u : State) : Prop where
  orders : OrdersLawful u
  replies : RepliesLawful u
  mem : y ∈ u.posted
  quiet : ∀ e ∈ u.work, e.state ≠ .watching

section PostedOver

variable {u v : State} {y : Posted} (h : PostedOver y u) (hs : SameButReservations u v)

include h in
theorem PostedOver.ended : PostedOver y (endAccess u) := ⟨h.orders, h.replies, h.mem, h.quiet⟩

include h hs in
theorem PostedOver.found : v.postedWrite y.order = some y := by
  have hp : v.posted = u.posted := by rw [hs.1]
  rw [State.postedWrite, hp]
  exact postedWrite_of_mem h.orders h.mem

include h hs in
theorem settle_faulted (hv : u.volume.state = .mounted) (cause : Code) :
    SameButReservations (postedFaulted y cause u) (settle (faultPosted y.order cause v)) := by
  have hvv : v.volume.state = .mounted := by rw [hs.1]; exact hv
  rw [faultPosted_quiet (drainEnding_mounted hvv) (sameBut_quiet hs h.quiet) (h.found hs)]
  refine settle_of_sameBut (sameBut_postedFaulted hs y cause) (postedFaulted_repliesLawful h.replies y cause) ?_
  rw [postedFaulted_volume]
  exact hv

include h hs in
theorem settle_parked_posted (hv : u.volume.state = .mounted) (n : Nat) :
    SameButReservations
      { u with posted := u.posted.map (fun x => if x.order = n then { x with committing := false, tornNext := false } else x) }
      (settle (park (.posted n) false v)) := by
  obtain ⟨w, rfl, hw⟩ := sameBut_exists hs
  exact settle_of_sameBut (s := updPosted n (fun x => { x with committing := false, tornNext := false }) u) ⟨rfl, hw⟩ h.replies hv

include h hs in
theorem boundaryPosted_protected {stop : Option Stop} (hp : stop = some .protect ∨ u.ownerActive .protect = true) :
    boundaryPosted stop y.order v = faultPosted y.order .writeProtected v := by
  have hact : v.ownerActive .protect = u.ownerActive .protect := by rw [hs.1]; rfl
  unfold boundaryPosted
  rw [h.found hs]
  dsimp only
  rw [hact, if_pos hp]

include h hs in
theorem boundaryPosted_stopped {stop : Option Stop} (hn : ¬ (stop = some .protect ∨ u.ownerActive .protect = true))
    (hst : stop.isSome = true ∨ u.volume.drainExpired = true) :
    boundaryPosted stop y.order v = park (.posted y.order) false v := by
  have hact : v.ownerActive .protect = u.ownerActive .protect := by rw [hs.1]; rfl
  have hvol : v.volume = u.volume := by rw [hs.1]
  unfold boundaryPosted
  rw [h.found hs]
  dsimp only
  rw [hact, hvol, if_neg hn, if_pos hst]

/-- A boundary with no stop waiting and PROTECT inactive: its second and third test (R84). -/
theorem boundaryPosted_open (h : PostedOver y u) (hv : u.volume.state = .mounted) (hx : u.volume.drainExpired = false)
    (hp : ¬ u.ownerActive .protect = true) :
    boundaryPosted none y.order (topUpBoth u) =
      if ((u.settings.row y.cls).yields && (topUpBoth u).higherWaits y.cls) = true then park (.posted y.order) false (topUpBoth u)
      else if u.powerPeriod = none then grantPosted y.order (topUpBoth u) else park (.posted y.order) false (topUpBoth u) := by
  have hsame := sameButReservations_topUpBoth u
  have hact : (topUpBoth u).ownerActive .protect = u.ownerActive .protect := by rw [hsame.1]; rfl
  have hvol : (topUpBoth u).volume = u.volume := by rw [hsame.1]
  have hset : (topUpBoth u).settings = u.settings := by rw [hsame.1]
  have hruns : ((topUpBoth u).volumeUsable && !(topUpBoth u).writeHold) = true ↔ u.powerPeriod = none := by
    have hperiod : (topUpBoth u).powerPeriod = u.powerPeriod := by rw [hsame.1]
    simp [State.volumeUsable, hvol, hv, State.writeHold, hperiod]
  unfold boundaryPosted
  rw [h.found hsame]
  dsimp only
  rw [hact, hvol, hx, hset, if_neg (fun h => hp (h.resolve_left (by simp))), if_neg (by simp)]
  simp only [hruns]

/-- The grant of a posted WRITE's next run (R42, R83). -/
theorem grantPosted_write {v : State} {y : Posted} (hf : v.postedWrite y.order = some y) (hk : y.kind = .write)
    (hc : ClaimStands v y.slot y.channel y.token) :
    grantPosted y.order v =
      { updPosted y.order (fun x => { x with committing := true, tornNext := false }) v with
        seq := begun { Access.begin (.posted y.order) .writeRun (some y.cls) y.verify (some y.slot) y.base (y.first.getD 0 + y.committed)
          (y.first.getD 0 + y.committed + runLength (y.first.getD 0 + y.committed) (y.count - y.committed)) y.size with
            tornResume := y.tornNext } v.seq } := by
  have hm : (updPosted y.order (fun x => { x with committing := true, tornNext := false }) v).mayWriteNow y.slot y.channel y.token = true :=
    (mayWriteNow_iff v y.slot y.channel y.token).2 hc
  unfold grantPosted
  rw [hf]
  dsimp only
  rw [hk]
  dsimp only
  rw [if_pos hm, beginAccess_eq_begun]
  rfl

/-- The grant of a posted WRITE whose claim is lost (R42). -/
theorem grantPosted_write_lost {v : State} {y : Posted} (hf : v.postedWrite y.order = some y) (hk : y.kind = .write)
    (hc : ¬ ClaimStands v y.slot y.channel y.token) :
    grantPosted y.order v =
      faultPosted y.order .claimLost (updPosted y.order (fun x => { x with committing := true, tornNext := false }) v) := by
  have hm : ¬ (updPosted y.order (fun x => { x with committing := true, tornNext := false }) v).mayWriteNow y.slot y.channel y.token = true :=
    fun h => hc ((mayWriteNow_iff v y.slot y.channel y.token).1 h)
  unfold grantPosted
  rw [hf]
  dsimp only
  rw [hk]
  dsimp only
  rw [if_neg hm]

/-- The grant of a posted APPEND's next run, at the fill mark (R22, R83). -/
theorem grantPosted_append {v : State} {y : Posted} (hf : v.postedWrite y.order = some y) (hk : y.kind = .append) {f : Fill}
    (hfill : v.fill y.slot = some f) (hroom : f.mark < y.size) :
    grantPosted y.order v =
      { updPosted y.order (fun x => { x with committing := true, tornNext := false, first := some (x.first.getD f.mark) }) v with
        seq := begun (Access.begin (.posted y.order) .appendRun (some y.cls) y.verify (some y.slot) y.base f.mark
          ((f.mark / 24 + 1) * 24) y.size) v.seq } := by
  have hmark : (updPosted y.order (fun x => { x with committing := true, tornNext := false }) v).fillMark y.slot = f.mark := by
    show v.fillMark y.slot = f.mark
    rw [State.fillMark, hfill]
    rfl
  unfold grantPosted
  rw [hf]
  dsimp only
  rw [hk]
  dsimp only
  rw [hmark, if_neg (by omega), beginAccess_eq_begun,
    updPosted_updPosted (f := fun x => { x with committing := true, tornNext := false }) (fun _ => rfl)]
  rfl

/-- A commit run's boundary with no stop waiting (R84, R103): the three tests, and the grant of the next run. -/
theorem atPostedBoundary_of (h : PostedOver y u) (hv : u.volume.state = .mounted) (hx : u.volume.drainExpired = false) :
    AtPostedBoundary y u (settle (boundaryPosted none y.order (topUpBoth u))) := by
  have hsame := sameButReservations_topUpBoth u
  have hfound := h.found hsame
  have hseq : (topUpBoth u).seq = u.seq := by rw [hsame.1]
  have hyields : ((u.settings.row y.cls).yields && (topUpBoth u).higherWaits y.cls) = true ↔
      (u.settings.row y.cls).yields = true ∧ ∃ c ∈ (topUpBoth u).candidates, c.cls.code < y.cls.code := by
    simp [State.higherWaits]
  have granted : ¬ u.ownerActive .protect = true →
      ¬ ((u.settings.row y.cls).yields = true ∧ ∃ c ∈ (topUpBoth u).candidates, c.cls.code < y.cls.code) →
      u.powerPeriod = none → boundaryPosted none y.order (topUpBoth u) = grantPosted y.order (topUpBoth u) := by
    intro hp hn hw
    rw [boundaryPosted_open h hv hx hp, if_neg (fun h => hn (hyields.1 h)), if_pos hw]
  refine ⟨fun hp => ?_, fun hp hor => ?_, fun ⟨hp, hny, hw⟩ hk => ⟨fun hc => ?_, fun hc => ?_⟩, fun f ⟨hp, hny, hw⟩ hk hfill hroom => ?_⟩
  · rw [boundaryPosted_protected h hsame (.inr hp)]
    exact settle_faulted h hsame hv .writeProtected
  · have hparks : boundaryPosted none y.order (topUpBoth u) = park (.posted y.order) false (topUpBoth u) := by
      rw [boundaryPosted_open h hv hx hp]
      split
      · rfl
      · next hny =>
        rw [if_neg]
        intro hw
        rcases hor with hyes | hhold
        · exact hny (hyields.2 hyes)
        · simp [hw] at hhold
    rw [hparks]
    exact settle_parked_posted h hsame hv y.order
  · have hclaim : ClaimStands (topUpBoth u) y.slot y.channel y.token := by
      rw [← mayWriteNow_iff, hsame.1]
      exact (mayWriteNow_iff u y.slot y.channel y.token).2 hc
    rw [granted hp hny hw, grantPosted_write hfound hk hclaim, hseq]
    obtain ⟨w, hwork, hbare⟩ := sameBut_exists hsame
    rw [hwork]
    refine settle_of_sameBut ⟨rfl, hbare⟩ h.replies hv
  · have hclaim : ¬ ClaimStands (topUpBoth u) y.slot y.channel y.token := by
      rw [← mayWriteNow_iff, hsame.1]
      exact fun hm => hc ((mayWriteNow_iff u y.slot y.channel y.token).1 hm)
    rw [granted hp hny hw, grantPosted_write_lost hfound hk hclaim]
    rw [updPosted_of_mem (f := fun x => { x with committing := true, tornNext := false }) (sameBut_ordersLawful hsame h.orders)
      (by rw [hsame.1]; exact h.mem) rfl]
    have hover : PostedOver { y with committing := true, tornNext := false } (withPosted { y with committing := true, tornNext := false } u) :=
      ⟨withPosted_ordersLawful h.orders _, h.replies, mem_withPosted h.mem rfl, h.quiet⟩
    obtain ⟨w, hwork, hbare⟩ := sameBut_exists hsame
    rw [hwork]
    have hlost := settle_faulted hover
      (v := withPosted { y with committing := true, tornNext := false } { u with work := w }) ⟨rfl, hbare⟩ hv .claimLost
    rw [postedFaulted_withPosted] at hlost
    exact hlost
  · rw [granted hp hny hw, grantPosted_append hfound hk (by rw [hsame.1]; exact hfill) hroom, hseq]
    obtain ⟨w, hwork, hbare⟩ := sameBut_exists hsame
    rw [hwork]
    refine settle_of_sameBut ⟨rfl, hbare⟩ h.replies hv

end PostedOver

end Sys2Proof.Machine
end

section
/-! PROOFS. O48: a posted write's sector counted, its commit, its fault, and what a FLUSH learns of them. -/

namespace Sys2Proof.Machine

open Sys2Proof.Safety

/-! ## Where a sector's end leads -/

theorem leads_of_ite {c : Prop} [Decidable c] {r : State} {m : Nat} {a : Access} {s : State}
    (h : r = if c then runEnds a s else midRun m a s) : r = runEnds a s ∨ ∃ m, r = midRun m a s := by
  split at h
  · exact .inl h
  · exact .inr ⟨m, h⟩

theorem appendSectorEnds_last {a : Access} {s : State} (k : Slot) (hb : s.ownerBuffers a = []) : appendSectorEnds a k s = runEnds a s := by
  rw [appendSectorEnds, hb]
  rfl

theorem appendSectorEnds_more {a : Access} {s : State} {k : Slot} (hb : s.ownerBuffers a ≠ []) (hroom : s.fillMark k < a.size) :
    appendSectorEnds a k s = if s.fillMark k ≥ a.runEnd then runEnds a s else midRun (s.fillMark k) a s := by
  rw [appendSectorEnds, if_neg (by simpa using hb), if_neg (by omega)]
  rfl

/-! ## The end of a commit run -/

section CommitRun

variable {s : State} {y : Posted} (h : PostedOver y s) {a : Access} (hown : a.owner = .posted y.order)

theorem runEnds_posted {s : State} {y : Posted} {a : Access} (hown : a.owner = .posted y.order)
    (hf : s.postedWrite y.order = some y) :
    runEnds a s = if y.buffers.isEmpty then finishPosted y.order (endAccess s)
      else boundaryPosted a.nextStop y.order (topUpBoth (endAccess s)) := by
  unfold runEnds
  dsimp only
  rw [creditRun_posted hown, hown]
  dsimp only
  rw [show (endAccess s).postedWrite y.order = some y from hf]

include h hown in
theorem runEnds_posted_more (hb : y.buffers ≠ []) : runEnds a s = boundaryPosted a.nextStop y.order (topUpBoth (endAccess s)) := by
  rw [runEnds_posted hown (h.found (sameBut_refl s)), if_neg (by simpa using hb)]

theorem stopRun_park {s : State} (hown : a.owner = .posted y.order) :
    stopRun a false s = park (.posted y.order) false (endAccess s) := by
  rw [stopRun, creditRun_posted hown, hown]

include h hown in
/-- A stop that waits is taken at a sector's end of a commit run with sectors remaining (R144, R146). -/
theorem postedStopped_of (hb : y.buffers ≠ []) (hk : a.kind = .writeRun ∨ a.kind = .appendRun) (hv : s.volume.state = .mounted) {r : State}
    (hr : r = runEnds a s ∨ ∃ m, r = midRun m a s) : PostedStopped a y (endAccess s) (settle r) := by
  have hover := h.ended
  have hsame := sameButReservations_topUpBoth (endAccess s)
  refine ⟨fun hw => ?_, fun hw hp => ?_⟩
  · rcases hr with rfl | ⟨m, rfl⟩
    · rw [runEnds_posted_more h hown hb, nextStop_protect hw, boundaryPosted_protected hover hsame (.inl rfl)]
      exact settle_faulted hover hsame hv .writeProtected
    · rw [midRun_protect hk hw, endRun_posted hown]
      exact settle_faulted hover (sameBut_refl _) hv .writeProtected
  · rcases hr with rfl | ⟨m, rfl⟩
    · rw [runEnds_posted_more h hown hb, nextStop_power hw,
        boundaryPosted_stopped hover hsame (stop := some .power) (fun h => h.elim (by simp) (by simp [hp])) (.inl rfl)]
      exact settle_parked_posted hover hsame hv y.order
    · rw [midRun_power hw, stopRun_park hown]
      exact settle_parked_posted hover (sameBut_refl _) hv y.order

include h hown in
/-- Under an expired drain timer the run stops at the sector's end, and the drain ends (R158). -/
theorem postedDrained_of (hb : y.buffers ≠ []) (hd : DrainWaitsInWrite a s) {r : State}
    (hr : r = runEnds a s ∨ ∃ m, r = midRun m a s) : DrainEnded (endAccess s) (settle r) := by
  obtain ⟨⟨hstop, hv, hx⟩, hp⟩ := hd
  have hover := h.ended
  have hsame := sameButReservations_topUpBoth (endAccess s)
  rcases hr with rfl | ⟨m, rfl⟩
  · have hp' : ¬ (endAccess s).ownerActive .protect = true := fun h => Bool.false_ne_true (hp.symm.trans h)
    rw [runEnds_posted_more h hown hb, nextStop_none hstop,
      boundaryPosted_stopped hover hsame (fun h => h.elim (by simp) hp') (.inr hx)]
    exact drainEnded_park (u := endAccess s) hsame rfl hv hx hover.orders hover.replies _ _
  · rw [midRun_drain hstop hx, stopRun_park hown]
    exact drainEnded_park (u := endAccess s) (sameBut_refl _) rfl hv hx hover.orders hover.replies _ _

include h hown in
/-- The run's end with no stop waiting and sectors remaining: a run boundary. -/
theorem postedBoundary_of (hb : y.buffers ≠ []) (hv : s.volume.state = .mounted) (hu : Unstopped a s) :
    AtPostedBoundary y (endAccess s) (settle (runEnds a s)) := by
  rw [runEnds_posted_more h hown hb, nextStop_none hu.1]
  exact atPostedBoundary_of h.ended hv hu.2

end CommitRun

/-! ## The last sector of a posted write (R104) -/

theorem settle_logs {s : State} (hv : s.volume.state = .mounted) : (settle s).logs = s.logs := by
  rw [settle_eq, drainExpiry, if_neg (by simp [hv])]
  obtain ⟨-, -, hlogs, -⟩ := releaseStop_lists (drainCheck (placeBoth (topUpBoth s)))
  obtain ⟨-, -, hlogs', -⟩ := drainCheck_lists (placeBoth (topUpBoth s))
  refine hlogs.trans (hlogs'.trans ?_)
  rw [settled_frame]

/-- The last sector of a posted write commits it. -/
theorem runEnds_commits {s : State} {y : Posted} {a : Access} (hown : a.owner = .posted y.order)
    (hf : s.postedWrite y.order = some y) (hb : y.buffers = []) (ht : y.torn = false) :
    runEnds a s = postedLeaves y.order false (endAccess s) := by
  rw [runEnds_posted hown hf, if_pos (by simp [hb]), finishPosted, show (endAccess s).postedWrite y.order = some y from hf]
  dsimp only
  rw [ht, if_neg (by simp)]
  rfl

/-- The last sector of a posted write with its torn field set faults it. -/
theorem runEnds_faults {s : State} {y : Posted} {a : Access} (hown : a.owner = .posted y.order)
    (hf : s.postedWrite y.order = some y) (hb : y.buffers = []) (ht : y.torn = true) :
    runEnds a s = faultPosted y.order .mediumError (endAccess s) := by
  rw [runEnds_posted hown hf, if_pos (by simp [hb]), finishPosted, show (endAccess s).postedWrite y.order = some y from hf]
  dsimp only
  rw [ht, if_pos rfl]

/-! ## A sector of a commit run counted -/

/-- A posted write with one more sector committed. -/
def Posted.oneMore (rest : List (List Word)) (p : Posted) : Posted := { p with committed := p.committed + 1, buffers := rest }

theorem ownerBuffers_posted {s : State} (ho : OrdersLawful s) {p : Posted} (hp : p ∈ s.posted) {a : Access}
    (hown : a.owner = .posted p.order) : s.ownerBuffers a = p.buffers := by
  rw [State.ownerBuffers, hown]
  dsimp only
  rw [postedWrite_of_mem ho hp]
  rfl

theorem sectorCommitted {s : State} (ho : OrdersLawful s) {p : Posted} (hp : p ∈ s.posted) {a : Access} (hown : a.owner = .posted p.order)
    {ws : List Word} {rest : List (List Word)} (hb : p.buffers = ws :: rest) :
    countCommitted a (dropBuffer a s) = withPosted (p.oneMore rest) s := by
  have hone : (fun x : Posted => { x with committed := x.committed + 1, buffers := x.buffers.tail }) p = p.oneMore rest := by
    dsimp only
    rw [hb]
    rfl
  rw [countCommitted, dropBuffer, hown]
  dsimp only
  rw [updPosted_updPosted (f := fun x => { x with buffers := x.buffers.tail }) (fun _ => rfl), ← hone]
  exact updPosted_of_mem ho hp rfl

theorem writeCounts_commit {s : State} (ho : OrdersLawful s) {p : Posted} (hp : p ∈ s.posted) {a : Access} (ha : s.seq.access = some a)
    (hk : a.kind = .writeRun) (hown : a.owner = .posted p.order) {ws : List Word} {rest : List (List Word)}
    (hb : p.buffers = ws :: rest) :
    writeCounts a s = sectorEnds { a with done := a.done + 1 }
      (withPosted (p.oneMore rest) { s with seq := sectorCounted p.force a s.seq }) := by
  have hforce : s.ownerForce a = p.force := by
    rw [State.ownerForce, hown]
    dsimp only
    rw [postedWrite_of_mem ho hp]
    rfl
  have hac : (if p.force = true then defectRemoved a s.seq else s.seq).access = some a := by
    split <;> exact ha
  rw [writeCounts_forced hk hforce,
    sectorCommitted (s := { s with seq := if p.force = true then defectRemoved a s.seq else s.seq }) ho hp hown hb]
  simp only [updAccess, updSeq, withPosted, hac, Option.map_some, sectorCounted]

theorem writeCounts_append {s : State} (ho : OrdersLawful s) {p : Posted} (hp : p ∈ s.posted) {a : Access} (ha : s.seq.access = some a)
    (hk : a.kind = .appendRun) {k : Slot} (hslot : a.slot = some k) (hown : a.owner = .posted p.order) {ws : List Word}
    {rest : List (List Word)} (hb : p.buffers = ws :: rest) :
    writeCounts a s = appendSectorEnds { a with done := a.done + 1 } k
      (withPosted (p.oneMore rest) { lowerPending k 1 s with seq := { s.seq with access := some { a with done := a.done + 1 } } }) := by
  have happend : writeCounts a s = withSlot a (countAppended a) s := by
    unfold writeCounts
    rw [hk]
  have hslotted : withSlot a (countAppended a) s = countAppended a k s := by rw [withSlot, hslot]
  have hmove : updAccess (fun x => { x with done := x.done + 1 }) (lowerPending k 1 (withPosted (p.oneMore rest) s)) =
      withPosted (p.oneMore rest) { lowerPending k 1 s with seq := { s.seq with access := some { a with done := a.done + 1 } } } := by
    rw [updAccess, updSeq, show (lowerPending k 1 (withPosted (p.oneMore rest) s)).seq = s.seq from rfl, ha]
    rfl
  rw [happend, hslotted, countAppended, sectorCommitted ho hp hown hb, hmove]

end Sys2Proof.Machine
end

section
/-! PROOFS. O48 settled: the DATA phase of a commit run, and FAULT in it. -/

namespace Sys2Proof.Machine

open Sys2Proof.Safety

/-- A sector of an APPEND's run put on the medium and counted in the fill state and the sequencer (R99, R130). -/
def appendedBy (ws : List Word) (k : Slot) (a : Access) (s : State) : State :=
  { lowerPending k 1 (dataPut ws a s) with
    seq := { (dataPut ws a s).seq with access := some a.counted } }

theorem endAccess_appendedBy (ws : List Word) (k : Slot) (a : Access) (s : State) :
    endAccess (appendedBy ws k a s) =
      updFill k (fun g => { g with pending := g.pending - 1 })
        { s with
          medium := mediumSet (placeOf a) { header := .whole (headerOn (placeOf a) .written), data := .whole ws (crc ws) } s.medium
          ctlBuffer := .free, seq := ended { s.seq with gate := false, phase := .none } } := rfl

theorem fillMark_appendedBy (ws : List Word) {k : Slot} (a : Access) {s : State} {x : Extent} {f : Fill} (hx : s.extent k = some x)
    (hf : x.fill = some f) : (appendedBy ws k a s).fillMark k = f.mark := by
  have hext : (appendedBy ws k a s).extent k = (s.extent k).map (fun e => { e with fill := e.fill.map (fun g => { g with
      pending := g.pending - 1 }) }) := by
    show (lowerPending k 1 s).extent k = _
    rw [lowerPending, updFill, updExtent_extent, if_pos rfl]
  rw [hx] at hext
  exact fillMark_eq (f := { f with pending := f.pending - 1 }) hext (congrArg (Option.map _) hf)

section CommitPhase

variable {s : State} (ho : OrdersLawful s) {a : Access} (ha : s.seq.access = some a) (hp : a.pass = .work) {p : Posted}
  (hown : a.owner = .posted p.order) (hmem : p ∈ s.posted) (hplace : placeOf a < 7680) (ht : s.seq.state = .transferring)
  (hph : s.seq.phase = .data) (hv : a.verify = false) {ws : List Word} {rest : List (List Word)} (hb : p.buffers = ws :: rest)

include ho ha hp hown hmem hplace ht hph hv hb in
/-- DATA_PHASE_COMPLETE of a posted WRITE's run without verify, up to what the sector's end leads to. -/
theorem dataPhase_commit (hk : a.kind = .writeRun) :
    exec .dataPhaseComplete s = .next (settle (sectorEnds a.counted
      (withPosted (p.oneMore rest) (writtenBy ws p.force a s)))) := by
  rw [dataPhase_counts ht hph ha hp (.inl hk) hplace ((ownerBuffers_posted ho hmem hown).trans hb) hv]
  rw [writeCounts_commit (s := dataPut ws a s) ho hmem (a := { a with checkPassed := true, tornResume := false }) rfl hk hown hb]
  rfl

include ho ha hp hown hmem hplace ht hph hv hb in
/-- DATA_PHASE_COMPLETE of a posted APPEND's run without verify, up to what the sector's end leads to. -/
theorem dataPhase_commitAppend (hk : a.kind = .appendRun) {k : Slot} (hslot : a.slot = some k) :
    exec .dataPhaseComplete s = .next (settle (appendSectorEnds a.counted k
      (withPosted (p.oneMore rest) (appendedBy ws k a s)))) := by
  rw [dataPhase_counts ht hph ha hp (.inr hk) hplace ((ownerBuffers_posted ho hmem hown).trans hb) hv]
  rw [writeCounts_append (s := dataPut ws a s) ho hmem (a := { a with checkPassed := true, tornResume := false }) rfl hk hslot hown hb]
  rfl

end CommitPhase

/-- What stands of a posted write put in its place with a sector counted. -/
theorem postedOver_withPosted {s x : State} (hwork : x.work = s.work) (hposted : x.posted = s.posted) (hnext : x.nextOrder = s.nextOrder)
    (hports : x.ports = s.ports) (ho : OrdersLawful s) (hl : RepliesLawful s) (hq : ∀ e ∈ s.work, e.state ≠ .watching) {p y : Posted}
    (hp : p ∈ s.posted) (hy : y.order = p.order) : PostedOver y (withPosted y x) := by
  have hox : OrdersLawful x := ordersLawful_congr ho (by rw [hwork]) (by rw [hposted]) hnext
  refine ⟨withPosted_ordersLawful hox y, repliesLawful_congr hl (fun ch => ?_), mem_withPosted (hposted ▸ hp) hy, ?_⟩
  · rw [show (withPosted y x).port ch = s.port ch by rw [State.port, show (withPosted y x).ports = s.ports from hports]; rfl]
    exact ⟨rfl, rfl⟩
  · show ∀ e ∈ x.work, e.state ≠ .watching
    rw [hwork]
    exact hq

/-- The last sector of a posted WRITE, its torn field clear: it commits (R8, R104, R108). -/
theorem postedWrite_commits {s x : State} {p y : Posted} {a : Access} (hwork : x.work = s.work) (hlogs : x.logs = s.logs)
    (ho : OrdersLawful s) (hl : RepliesLawful (endAccess (withPosted y x))) (hv : x.volume.state = .mounted)
    (hf : (withPosted y x).postedWrite y.order = some y) (hy : y.order = p.order) (hown : a.owner = .posted p.order)
    (hb : y.buffers = []) (ht : y.torn = false) :
    (settle (runEnds a (withPosted y x))).logs = s.logs ∧ Learned p s false (settle (runEnds a (withPosted y x)))
      ∧ ((∀ e ∈ s.work, e.state ≠ .watching) →
          SameButReservations (postedLeft p (endAccess x)) (settle (runEnds a (withPosted y x)))) := by
  have hleaves := runEnds_commits (a := a) (hy ▸ hown) hf hb ht
  rw [hleaves, hy]
  have hvol : (postedLeaves p.order false (endAccess (withPosted y x))).volume.state = .mounted := by
    rw [postedLeaves_frame]
    exact hv
  refine ⟨?_, ?_, fun hq => ?_⟩
  · rw [settle_logs hvol, postedLeaves_frame]
    exact hlogs
  · exact learned_settle (x := endAccess (withPosted y x)) hwork (List.nodup_append.1 ho.1).1 (dueOwn_of_lawful hl) hv false id
  · have hquiet : ∀ e ∈ (endAccess (withPosted y x)).work, e.state ≠ .watching := by
      show ∀ e ∈ x.work, e.state ≠ .watching
      rw [hwork]
      exact hq
    have hleft : postedLeft p (endAccess x) = postedLeft y (endAccess (withPosted y x)) :=
      (postedLeft_withPosted hy (endAccess x)).symm
    rw [← hy, postedLeaves_quiet hquiet y false, hleft]
    exact settle_of_sameBut (sameBut_refl _) (postedLeft_repliesLawful hl y) hv

/-- The last sector of a posted write with its torn field set: it faults MEDIUM-ERROR (R104, R108). -/
theorem postedWrite_faults {s x : State} {p y : Posted} {a : Access} (hwork : x.work = s.work)
    (ho : OrdersLawful s) (hl : RepliesLawful (endAccess (withPosted y x))) (hv : x.volume.state = .mounted)
    (hox : OrdersLawful (withPosted y x)) (hmem : y ∈ (withPosted y x).posted) (hy : y.order = p.order) (hown : a.owner = .posted p.order)
    (hb : y.buffers = []) (ht : y.torn = true) :
    Learned p s true (settle (runEnds a (withPosted y x)))
      ∧ ((∀ e ∈ s.work, e.state ≠ .watching) →
          SameButReservations (postedFaulted y .mediumError (endAccess x)) (settle (runEnds a (withPosted y x)))) := by
  have hf := postedWrite_of_mem hox hmem
  rw [runEnds_faults (a := a) (hy ▸ hown) hf hb ht]
  refine ⟨?_, fun hq => ?_⟩
  · rw [hy]
    exact learned_faulted (x := endAccess (withPosted y x)) hwork ho (hy ▸ hf) hl hv .mediumError id
  · have hover : PostedOver y (endAccess (withPosted y x)) := by
      refine ⟨hox, hl, hmem, ?_⟩
      show ∀ e ∈ x.work, e.state ≠ .watching
      rw [hwork]
      exact hq
    have hfaulted := settle_faulted hover (sameBut_refl _) hv .mediumError
    rw [show endAccess (withPosted y x) = withPosted y (endAccess x) from rfl, postedFaulted_withPosted] at hfaulted
    exact hfaulted

/-- FAULT cuts a commit run: the FLUSHes watching its posted write learn the fault (R108, R140). -/
theorem faultActive_learned {s : State} (hf : s.ownerActive .fault = false) (ho : OrdersLawful s) (hl : RepliesLawful s) {a : Access}
    {p : Posted} (ht : s.seq.state.takesFault = true) (ha : s.seq.access = some a) (hstops : a.stops = []) (hk : a.kind = .writeRun)
    (hown : a.owner = .posted p.order) (hp : p ∈ s.posted) (hv : s.volume.state = .mounted) :
    ∃ t, exec .faultActive (takenBy .owner s) = .next t ∧ Learned p s true t := by
  have hcut : faultCut a (actedOn .fault true s) = endRun a .writeFault (tear (actedOn .fault true s)) := by
    simp only [faultCut, hk]
  refine ⟨_, faultActive_cut hf ht ha hstops, ?_⟩
  rw [hcut, endRun_posted hown, tear_eq]
  generalize cutMedium (actedOn .fault true s) = m
  exact learned_faulted (x := endAccess { actedOn .fault true s with medium := m }) rfl ho
    (postedWrite_of_mem (s := endAccess { actedOn .fault true s with medium := m }) ho hp) hl hv _ _

end Sys2Proof.Machine

namespace Sys2Proof.Proofs

open Sys2Proof.Machine Sys2Proof.Safety

/-- Settles O48, by the kind of the commit run and by whether sectors remain (R84, R99, R104, R108). -/
theorem postedCommitAndFlushEnd : Obligations.PostedCommitAndFlushEnd := by
  unfold Obligations.PostedCommitAndFlushEnd
  intro a p s ha hp hown hmem hplace ho hl
  dsimp only
  refine ⟨fun ws hm ht hph hk hv hend _ hb htorn => ?_, fun ws hm ht hph hk hslot hv _ hb htorn => ?_,
    fun ws rest ht hph hk hv hb hrest hq => ?_, fun ws rest x f ht hph hk hslot hv _ hb hrest hx hfill hroom hq => ?_,
    fun hm hstops hfault hstate hk => ?_⟩
  · have hexec := dataPhase_commit ho ha hp hown hmem hplace ht hph hv hb hk
    rw [sectorEnds_runEnd (a := a.counted) hend] at hexec
    have hlast := postedWrite_commits (s := s) (x := writtenBy ws p.force a s) (p := p) (y := p.oneMore [])
      (a := a.counted) rfl rfl ho hl hm
      (postedWrite_of_mem (withPosted_ordersLawful (s := writtenBy ws p.force a s) ho (p.oneMore []))
        (mem_withPosted (s := writtenBy ws p.force a s) (y := p.oneMore []) hmem rfl)) rfl hown rfl htorn
    rw [endAccess_writtenBy] at hlast
    exact ⟨_, hexec, hlast⟩
  · have hexec := dataPhase_commitAppend ho ha hp hown hmem hplace ht hph hv hb hk hslot
    have hlaw := withPosted_ordersLawful (s := appendedBy ws p.slot a s) ho (p.oneMore [])
    have hin := mem_withPosted (s := appendedBy ws p.slot a s) (y := p.oneMore []) hmem rfl
    rw [appendSectorEnds_last (a := a.counted) _ (ownerBuffers_posted (p := p.oneMore []) hlaw hin hown)] at hexec
    have hlast := postedWrite_faults (s := s) (x := appendedBy ws p.slot a s) (p := p) (y := p.oneMore [])
      (a := a.counted) rfl ho hl hm hlaw hin rfl hown rfl htorn
    rw [endAccess_appendedBy] at hlast
    exact ⟨_, hexec, hlast⟩
  · have hexec := dataPhase_commit ho ha hp hown hmem hplace ht hph hv hb hk
    have hover : PostedOver (p.oneMore rest) (withPosted (p.oneMore rest) (writtenBy ws p.force a s)) :=
      postedOver_withPosted (x := writtenBy ws p.force a s) rfl rfl rfl rfl ho hl hq hmem rfl
    have hended : endAccess (withPosted (p.oneMore rest) (writtenBy ws p.force a s)) =
        withPosted (p.oneMore rest) (endAccess (writtenBy ws p.force a s)) := rfl
    rw [endAccess_writtenBy] at hended
    have hleads := leads_of_ite (sectorEnds_eq a.counted (withPosted (p.oneMore rest) (writtenBy ws p.force a s)))
    refine ⟨fun hend hm hu => ⟨_, hexec, ?_⟩, fun _ ⟨hm, _, _⟩ => ⟨_, hexec, ?_⟩, fun _ hd => ⟨_, hexec, ?_⟩⟩
    · have h := postedBoundary_of hover (a := a.counted) hown hrest hm hu
      rw [hended] at h
      rw [sectorEnds_runEnd (a := a.counted) hend]
      exact h
    · have h := postedStopped_of hover (a := a.counted) hown hrest (.inl hk) hm hleads
      rw [hended] at h
      exact h
    · have h := postedDrained_of hover (a := a.counted) hown hrest hd hleads
      rw [hended] at h
      exact h
  · have hexec := dataPhase_commitAppend ho ha hp hown hmem hplace ht hph hv hb hk hslot
    have hover : PostedOver (p.oneMore rest) (withPosted (p.oneMore rest) (appendedBy ws p.slot a s)) :=
      postedOver_withPosted (x := appendedBy ws p.slot a s) rfl rfl rfl rfl ho hl hq hmem rfl
    have hended : endAccess (withPosted (p.oneMore rest) (appendedBy ws p.slot a s)) =
        withPosted (p.oneMore rest) (endAccess (appendedBy ws p.slot a s)) := rfl
    rw [endAccess_appendedBy] at hended
    have hmark : (withPosted (p.oneMore rest) (appendedBy ws p.slot a s)).fillMark p.slot = f.mark :=
      fillMark_appendedBy ws a hx hfill
    have hbuf : (withPosted (p.oneMore rest) (appendedBy ws p.slot a s)).ownerBuffers a.counted ≠ [] := by
      rw [ownerBuffers_posted (a := a.counted) (p := p.oneMore rest) hover.orders hover.mem hown]
      exact hrest
    have hcases := appendSectorEnds_more (a := a.counted) hbuf (hmark.trans_lt hroom)
    have hleads := leads_of_ite hcases
    refine ⟨fun hend hm hu => ⟨_, hexec, ?_⟩, fun ⟨hm, _, _⟩ => ⟨_, hexec, ?_⟩, fun hd => ⟨_, hexec, ?_⟩⟩
    · have h := postedBoundary_of hover (a := a.counted) hown hrest hm hu
      rw [hended] at h
      rw [hcases, if_pos (by rw [hmark]; exact hend)]
      exact h
    · have h := postedStopped_of hover (a := a.counted) hown hrest (.inr hk) hm hleads
      rw [hended] at h
      exact h
    · have h := postedDrained_of hover (a := a.counted) hown hrest hd hleads
      rw [hended] at h
      exact h
  · refine faultActive_learned hfault ho hl ?_ ha hstops hk hown hmem hm
    rcases hstate with h | h | h <;> rw [h] <;> rfl

end Sys2Proof.Proofs
end

section
/-! PROOFS. What reset leaves, and that the laws of the tables hold there. -/

namespace Sys2Proof.Machine

open Sys2Proof.Safety

theorem reset_port (ch : Channel) : State.reset.port ch = Port.reset := by cases ch <;> rfl

theorem reset_log (ch : Channel) : State.reset.logs.get ch = { entries := [], overflow := 0 } := by cases ch <;> rfl

theorem reset_extent (k : Slot) : State.reset.extent k = none := get_replicate 32 none k

theorem reset_claim (t : ClaimTarget) : State.reset.claim t = ClaimRecord.free := by
  cases t with
  | controller => rfl
  | extent k => exact get_replicate 32 ClaimRecord.free k

theorem reset_heldBuffers (ch : Channel) : heldBuffers ch State.reset = 0 := by
  unfold heldBuffers
  rw [reset_port]
  rfl

/-- The tables are empty, the lines inactive and no access is in progress, so that no law has anything to fail of. -/
theorem reset_lawful :
    ClaimsLawful State.reset ∧ RepliesLawful State.reset ∧ GateLawful State.reset ∧ WorkLawful State.reset ∧ OrdersLawful State.reset
      ∧ PostedLawful State.reset ∧ DefectsLawful State.reset ∧ SettingsLawful State.reset ∧ PowerLawful State.reset
      ∧ ExtentsLawful State.reset ∧ MediumLawful State.reset ∧ BuffersLawful State.reset ∧ RunsLawful State.reset := by
  have noExtent : ∀ k e, State.reset.extent k ≠ some e := fun k e h => by simp [reset_extent] at h
  have noAccess : ∀ a, State.reset.seq.access ≠ some a := fun a h => by simp [State.reset, Sequencer.reset] at h
  have claims : ClaimsLawful State.reset := fun t => by
    rw [reset_claim]
    rfl
  have replies : RepliesLawful State.reset := fun ch => by
    rw [reset_port]
    exact ⟨Nat.zero_le _, fun h => absurd rfl h⟩
  have work : WorkLawful State.reset := ⟨by decide, fun _ => Nat.zero_le _⟩
  have posted : PostedLawful State.reset := ⟨by decide, fun ch => by
    rw [reset_log]
    exact ⟨Nat.zero_le _, Nat.zero_le _⟩⟩
  have settings : SettingsLawful State.reset := ⟨fun c => by cases c <;> decide, fun ch => by cases ch <;> decide, by decide⟩
  have extents : ExtentsLawful State.reset :=
    ⟨fun k e h => absurd h (noExtent k e), fun j _ d _ _ h => absurd h (noExtent j d)⟩
  have buffers : BuffersLawful State.reset := fun ch => by
    rw [reset_heldBuffers]
    exact Nat.zero_le _
  have runs : RunsLawful State.reset := by
    refine ⟨fun ch d h => ?_, fun e h => absurd h List.not_mem_nil, fun a h => absurd h (noAccess a),
      fun a _ h => absurd h (noAccess a)⟩
    rw [reset_port] at h
    exact absurd h List.not_mem_nil
  exact ⟨claims, replies, by decide, work, by decide, posted, by decide, settings, by decide, extents, by decide, buffers, runs⟩

end Sys2Proof.Machine

namespace Sys2Proof.Proofs

open Sys2Proof.Machine Sys2Proof.Safety

/-- Settles O3: the tables slot by slot and channel by channel, every other field by its value in `State.reset`. -/
theorem resetLeavesEverythingEmptyAndLawful : Obligations.ResetLeavesEverythingEmptyAndLawful := by
  refine ⟨⟨reset_port, reset_log, rfl, rfl, rfl, rfl, rfl, rfl, rfl, rfl, rfl, reset_extent, reset_claim, ?_⟩, reset_lawful⟩
  and_intros <;> rfl

end Sys2Proof.Proofs
end

section
/-! PROOFS. The requests that read: MAP-READ, DEFECT-READ, STATUS and FAULT-READ. -/

namespace Sys2Proof.Machine

open Sys2Proof.Safety

/-! ## The checks that such a request passes (R52, R53) -/

theorem emptyOperands_some {r : Request} (h : r.length = 0) : emptyOperands r = some () := if_pos h

theorem stale_of_fresh {s : State} {ch : Channel} (h : Fresh ch s) : s.stale ch = false := by
  unfold State.stale
  rcases h with h | h <;> simp [h]

theorem tableReadVolume_none {s : State} {ch : Channel} (hv : s.volume.state = .mounted ∨ s.volume.state = .draining) (hf : Fresh ch s) :
    s.tableReadVolume ch = none := by
  have hs := stale_of_fresh hf
  rcases hv with hv | hv <;> simp [State.tableReadVolume, State.noVolume, State.volumeClosing, firstFail, hv, hs]

/-! ## The status record in the words of the claims (R182) -/

theorem sweepPhase_eq (s : State) :
    s.sweepPhase =
      match s.sweep with
      | none => if s.sweepSeen = true then .ended else .none
      | some sw =>
        if sw.window.isSome then .collecting
        else match s.seq.access with
          | some a => (match a.owner with | .entry _ => .suspended | .posted _ => .suspended | _ => .running)
          | none => .running := by
  unfold State.sweepPhase State.runOwnsDrive
  cases s.sweep with
  | none => rfl
  | some sw =>
    cases s.seq.access with
    | none => rfl
    | some a =>
      cases ho : a.owner <;> simp [ho]

theorem currentItem_eq (s : State) :
    s.sweep.bind Sweep.currentItem =
      match s.sweep with
      | some sw => (match sw.current with | some i => sw.items[i]? | none => none)
      | none => none := by
  cases s.sweep with
  | none => rfl
  | some sw =>
    rw [Option.bind_some, Sweep.currentItem]
    dsimp only
    cases sw.current <;> rfl

theorem sweepSector_eq (s : State) :
    s.sweep.bind (fun sw => sw.sector) = match s.sweep with | some sw => sw.sector | none => none := by
  cases s.sweep <;> rfl

end Sys2Proof.Machine

namespace Sys2Proof.Proofs

open Sys2Proof.Machine Sys2Proof.Safety

/-- Settles O25: each request passes its checks, and its completion carries what stands. -/
theorem readingRequests : Obligations.ReadingRequests := by
  intro ch r s hlen hl
  have hform := emptyOperands_some hlen
  refine ⟨fun ⟨hst, hk, htag, h255⟩ hv hf => ?_, fun ⟨hst, hk, htag, h255⟩ hv hf => ?_, fun ⟨hst, hk, htag, h255⟩ => ?_,
    fun ⟨hst, hk, htag, h255⟩ => ?_⟩
  · refine (exec_commandOf hst hk).trans (congrArg _ ?_)
    simp only [admitAs, admitMapRead, tagCheck_none htag h255, hform, tableReadVolume_none hv hf]
    exact complete_of_lawful hl ..
  · refine (exec_commandOf hst hk).trans (congrArg _ ?_)
    simp only [admitAs, admitDefectRead, tagCheck_none htag h255, hform, tableReadVolume_none hv hf]
    exact complete_of_lawful hl ..
  · refine (exec_commandOf hst hk).trans (congrArg _ ?_)
    simp only [admitAs, admitStatus, tagCheck_none htag h255, hform]
    rw [complete_of_lawful hl, State.statusRecord, sweepPhase_eq, currentItem_eq, sweepSector_eq, holding_eq_heldBuffers,
      holding_eq_heldBuffers]
    rfl
  · refine (exec_commandOf hst hk).trans (congrArg _ ?_)
    simp only [admitAs, admitFaultRead, tagCheck_none htag h255, hform]
    exact complete_of_lawful (s := { s with logs := s.logs.set ch { entries := (s.logs.get ch).entries.tail, overflow := 0 } }) hl ..

end Sys2Proof.Proofs
end

section
/-! PROOFS. MAP-LOAD: its checks, and what its changes make of the table one after another. -/

namespace Sys2Proof.Machine

open Sys2Proof.Safety

/-! ## One change (R31, R38, R43) -/

theorem applyChange_frame (ch : Channel) (s : State) (g : Slot × Option Definition) :
    applyChange ch s g =
      { s with
        ports := (applyChange ch s g).ports, extents := (applyChange ch s g).extents, extClaims := (applyChange ch s g).extClaims } := by
  unfold applyChange
  dsimp only
  split <;> rfl

theorem applyChange_extent (ch : Channel) (s : State) (g : Slot × Option Definition) (k : Slot) :
    (applyChange ch s g).extent k = if k = g.1 then changedExtent (s.extent g.1) g.2 else s.extent k := by
  have hset : (applyChange ch s g).extents = s.extents.set g.1.val (changedExtent (s.extent g.1) g.2) g.1.isLt := by
    unfold applyChange
    dsimp only
    split <;> rfl
  rw [State.extent, hset, get_set]
  rfl

theorem applyChange_claim (ch : Channel) (s : State) (g : Slot × Option Definition) (k : Slot) :
    (applyChange ch s g).claim (.extent k) = if k = g.1 then ClaimRecord.free else s.claim (.extent k) := by
  have hset : (applyChange ch s g).extClaims = s.extClaims.set g.1.val ClaimRecord.free g.1.isLt := by
    unfold applyChange
    dsimp only
    split <;> rfl
  show (applyChange ch s g).extClaims.get k = _
  rw [hset, get_set]
  rfl

theorem applyChange_port_self (ch : Channel) (s : State) (g : Slot × Option Definition) : (applyChange ch s g).port ch = s.port ch := by
  unfold applyChange
  dsimp only
  split
  · cases ch <;> rfl
  · rfl

theorem applyChange_port_other (ch : Channel) (s : State) (g : Slot × Option Definition) :
    (applyChange ch s g).port ch.other =
      if (s.claim (.extent g.1)).holder = some ch then (s.port ch.other).raise .claimChange else s.port ch.other := by
  unfold applyChange
  dsimp only
  simp only [beq_iff_eq]
  split
  · rw [raise, updPort_port_same]
    rfl
  · rfl

theorem eq_other_of_ne {c ch : Channel} (h : c ≠ ch) : c = ch.other := by
  cases c <;> cases ch <;> simp at h <;> rfl

theorem raise_raise (p : Port) (k : EventKind) : (p.raise k).raise k = p.raise k := by
  simp [Port.raise, BitVec.or_assoc]

/-! ## The changes of a MAP-LOAD, one after another (R31) -/

theorem applyChanges_frame (ch : Channel) (gs : List (Slot × Option Definition)) (s : State) :
    gs.foldl (applyChange ch) s =
      { s with
        ports := (gs.foldl (applyChange ch) s).ports, extents := (gs.foldl (applyChange ch) s).extents
        extClaims := (gs.foldl (applyChange ch) s).extClaims } := by
  induction gs generalizing s with
  | nil => rfl
  | cons g gs ih =>
    rw [List.foldl_cons, ih]
    rw [applyChange_frame]

theorem applyChanges_port_self (ch : Channel) (gs : List (Slot × Option Definition)) (s : State) :
    (gs.foldl (applyChange ch) s).port ch = s.port ch := by
  induction gs generalizing s with
  | nil => rfl
  | cons g gs ih => rw [List.foldl_cons, ih, applyChange_port_self]

/-- A slot that no change names stands as it did. -/
theorem applyChanges_unnamed {gs : List (Slot × Option Definition)} {k : Slot} (h : ∀ g ∈ gs, g.1 ≠ k) (ch : Channel) (s : State) :
    (gs.foldl (applyChange ch) s).extent k = s.extent k
      ∧ (gs.foldl (applyChange ch) s).claim (.extent k) = s.claim (.extent k) := by
  induction gs generalizing s with
  | nil => exact ⟨rfl, rfl⟩
  | cons g gs ih =>
    have hk : k ≠ g.1 := (h g (List.mem_cons_self ..)).symm
    obtain ⟨hext, hclaim⟩ := ih (fun x hx => h x (List.mem_cons_of_mem _ hx)) (applyChange ch s g)
    rw [List.foldl_cons, hext, hclaim, applyChange_extent, applyChange_claim, if_neg hk, if_neg hk]
    exact ⟨rfl, rfl⟩

/-- The slot that a change names, once among them all, holds what that change makes of it. -/
theorem applyChanges_named {gs : List (Slot × Option Definition)} (hn : (gs.map (fun g => g.1)).Nodup) {g : Slot × Option Definition}
    (hg : g ∈ gs) (ch : Channel) (s : State) :
    (gs.foldl (applyChange ch) s).extent g.1 = changedExtent (s.extent g.1) g.2
      ∧ (gs.foldl (applyChange ch) s).claim (.extent g.1) = ClaimRecord.free := by
  induction gs generalizing s with
  | nil => exact absurd hg List.not_mem_nil
  | cons x gs ih =>
    rw [List.map_cons, List.nodup_cons] at hn
    have hx : ∀ y ∈ gs, y.1 ≠ x.1 := fun y hy h => hn.1 (h ▸ List.mem_map_of_mem (f := fun g : Slot × Option Definition => g.1) hy)
    rw [List.foldl_cons]
    rcases List.mem_cons.1 hg with rfl | hin
    · obtain ⟨hext, hclaim⟩ := applyChanges_unnamed hx ch (applyChange ch s g)
      rw [hext, hclaim, applyChange_extent, applyChange_claim, if_pos rfl, if_pos rfl]
      exact ⟨rfl, rfl⟩
    · obtain ⟨hext, hclaim⟩ := ih hn.2 hin (applyChange ch s x)
      rw [hext, hclaim, applyChange_extent, if_neg (hx g hin)]
      exact ⟨rfl, rfl⟩

/-- CLAIM-CHANGE is set at the other channel when the requester held a claim of a slot named (R38, R43). -/
theorem applyChanges_port_other {gs : List (Slot × Option Definition)} (hn : (gs.map (fun g => g.1)).Nodup) (ch : Channel) (s : State) :
    (gs.foldl (applyChange ch) s).port ch.other =
      if gs.any (fun g => decide ((s.claim (.extent g.1)).holder = some ch)) then (s.port ch.other).raise .claimChange
      else s.port ch.other := by
  induction gs generalizing s with
  | nil => rfl
  | cons x gs ih =>
    rw [List.map_cons, List.nodup_cons] at hn
    have hrest : gs.any (fun g => decide (((applyChange ch s x).claim (.extent g.1)).holder = some ch)) =
        gs.any (fun g => decide ((s.claim (.extent g.1)).holder = some ch)) := by
      rw [Bool.eq_iff_iff, List.any_eq_true, List.any_eq_true]
      refine exists_congr (fun g => and_congr_right (fun hg => ?_))
      have hne : g.1 ≠ x.1 := fun h => hn.1 (h ▸ List.mem_map_of_mem (f := fun g : Slot × Option Definition => g.1) hg)
      rw [applyChange_claim, if_neg hne]
    rw [List.foldl_cons, ih hn.2, hrest, applyChange_port_other, List.any_cons]
    by_cases hx : (s.claim (.extent x.1)).holder = some ch
    · rw [if_pos hx, decide_eq_true hx, Bool.true_or, if_pos rfl, raise_raise, ite_self]
    · rw [if_neg hx, decide_eq_false hx, Bool.false_or]

/-! ## The fill fields of a slot changed (R31) -/

theorem changedExtent_none (before : Option Extent) : changedExtent before none = none := rfl

/-- The fill fields that a change leaves in an extent of a definition. -/
def changedFill (before : Option Extent) (d : Definition) : Option Fill := (changedExtent before (some d)).bind (fun e => e.fill)

theorem changedExtent_some (before : Option Extent) (d : Definition) :
    changedExtent before (some d) = some { defn := d, fill := changedFill before d, clearing := false } := rfl

theorem changedFill_other (before : Option Extent) {d : Definition} (h : d.kind ≠ .append) : changedFill before d = none := by
  simp [changedFill, changedExtent, h]

/-- A fill mark is kept by an APPEND extent whose cylinders stay. -/
theorem changedFill_kept {e : Extent} {d : Definition} {g : Fill} (hd : d.kind = .append) (he : e.defn.kind = .append)
    (hfirst : e.defn.first = d.first) (hlast : e.defn.last = d.last) (hg : e.fill = some g) :
    changedFill (some e) d = some { mark := g.mark, state := g.state, pending := 0 } := by
  simp [changedFill, changedExtent, hd, he, hfirst, hlast, hg]

theorem changedFill_new {before : Option Extent} {d : Definition} (hd : d.kind = .append)
    (h : ∀ e, before = some e → ¬ (e.defn.kind = .append ∧ e.defn.first = d.first ∧ e.defn.last = d.last)) :
    changedFill before d = some { mark := 0, state := .unknown, pending := 0 } := by
  cases before with
  | none => simp [changedFill, changedExtent, hd]
  | some e => simp [changedFill, changedExtent, hd, if_neg (h e rfl)]

/-! ## The checks of a MAP-LOAD (R29) -/

theorem transactionVolume_none {s : State} {ch : Channel} (h : Mounted ch s) : s.transactionVolume ch = none := by
  have hs := stale_of_fresh h.2
  simp [State.transactionVolume, State.noVolume, State.volumeClosing, firstFail, h.1, hs]

theorem holdsController_of {s : State} {ch : Channel} (h : s.ctlClaim.holder = some ch) : s.holdsController ch = true := by
  simp [State.holdsController, h]

/-- The checks of R29 from the sixth on: a slot named twice, a shared cylinder, a busy slot. -/
def State.changesCheck (s : State) (ch : Channel) (gs : List (Slot × Option Definition)) : Option Code :=
  firstFail [(repeatsSlot gs, .badMap), (s.wouldOverlap gs, .badMap), (gs.any (fun g => s.slotBusy ch g.1), .extentBusy)]

theorem repeatsSlot_iff (gs : List (Slot × Option Definition)) : repeatsSlot gs = true ↔ ¬ (gs.map (fun g => g.1)).Nodup := by
  simp [repeatsSlot]

section Checks

variable {s : State} {ch : Channel} {gs : List (Slot × Option Definition)}

theorem changesCheck_badMap (h : ¬ (gs.map (fun g => g.1)).Nodup ∨ MapShares s gs) : s.changesCheck ch gs = some .badMap := by
  unfold State.changesCheck
  by_cases hn : (gs.map (fun g => g.1)).Nodup
  · have hshare := (s.wouldOverlap_iff gs hn).2 (h.resolve_left (not_not_intro hn))
    have hrep : repeatsSlot gs = false := by simp [repeatsSlot, hn]
    simp [firstFail, hrep, hshare]
  · simp [firstFail, (repeatsSlot_iff gs).2 hn]

theorem changesCheck_free (hn : (gs.map (fun g => g.1)).Nodup) (hs : ¬ MapShares s gs) :
    s.changesCheck ch gs = if gs.any (fun g => s.slotBusy ch g.1) = true then some .extentBusy else none := by
  have hrep : repeatsSlot gs = false := by simp [repeatsSlot, hn]
  have hshare : s.wouldOverlap gs = false := by simpa using mt (s.wouldOverlap_iff gs hn).1 hs
  simp [State.changesCheck, firstFail, hrep, hshare]

theorem anyBusy_iff : gs.any (fun g => s.slotBusy ch g.1) = true ↔ ∃ g ∈ gs, SlotBusy s ch g.1 := by
  simp only [List.any_eq_true, State.slotBusy_iff]

end Checks

/-- What a MAP-LOAD that passes leaves, before its completion is formed. -/
def mapLoaded (ch : Channel) (gs : List (Slot × Option Definition)) (s : State) : State :=
  { noteMapLoad (gs.foldl (applyChange ch) s) with volume := { s.volume with mapModified := true } }

theorem mapLoaded_frame (ch : Channel) (gs : List (Slot × Option Definition)) (s : State) :
    mapLoaded ch gs s =
      { s with
        ports := (mapLoaded ch gs s).ports, extents := (mapLoaded ch gs s).extents, extClaims := (mapLoaded ch gs s).extClaims
        volume := { s.volume with mapModified := true }
        seq := { s.seq with access := (mapLoaded ch gs s).seq.access } } := by
  unfold mapLoaded noteMapLoad
  rw [applyChanges_frame]

/-- A label write under way learns of the MAP-LOAD. -/
theorem mapLoaded_access (ch : Channel) (gs : List (Slot × Option Definition)) (s : State) :
    (mapLoaded ch gs s).seq.access =
      s.seq.access.map (fun a => if a.kind = .labelWrite then { a with mapLoadSeen := true } else a) := by
  unfold mapLoaded noteMapLoad
  rw [applyChanges_frame]

theorem mapLoaded_eq (ch : Channel) (gs : List (Slot × Option Definition)) (s : State) :
    { noteMapLoad (gs.foldl (applyChange ch) s) with
      volume := { (noteMapLoad (gs.foldl (applyChange ch) s)).volume with mapModified := true } } = mapLoaded ch gs s := by
  have hvol : (noteMapLoad (gs.foldl (applyChange ch) s)).volume = s.volume := by
    rw [applyChanges_frame]
    rfl
  rw [hvol]
  rfl

section MapLoad

variable {s : State} {ch : Channel} {r : Request} {cs : List Change} (hst : Stands .mapLoad ch r s) (hop : mapLoadOperands r = some cs)
  (hctl : s.ctlClaim.holder = some ch) (hm : Mounted ch s)

include hst hop hctl hm

theorem mapLoad_malformed (hg : goodChanges cs = none) : exec (.mapLoad ch) s = .next (refuse ch r .badMap s) := by
  obtain ⟨hstage, hk, htag, h255⟩ := hst
  refine (exec_commandOf hstage hk).trans (congrArg _ ?_)
  simp only [admitAs, admitMapLoad, tagCheck_none htag h255, hop, transactionVolume_none hm, firstFail, holdsController_of hctl, hg]
  rfl

theorem mapLoad_refused {gs : List (Slot × Option Definition)} (hg : goodChanges cs = some gs) {c : Code}
    (hc : s.changesCheck ch gs = some c) : exec (.mapLoad ch) s = .next (refuse ch r c s) := by
  obtain ⟨hstage, hk, htag, h255⟩ := hst
  refine (exec_commandOf hstage hk).trans (congrArg _ ?_)
  unfold State.changesCheck at hc
  have hholds : firstFail [(!s.holdsController ch, Code.claimRequired)] = none := by simp [firstFail, holdsController_of hctl]
  simp only [admitAs, admitMapLoad, tagCheck_none htag h255, hop, transactionVolume_none hm, hholds, hg, hc]

theorem mapLoad_passes {gs : List (Slot × Option Definition)} (hg : goodChanges cs = some gs) (hc : s.changesCheck ch gs = none) :
    exec (.mapLoad ch) s = .next (complete ch r .done .none (mapLoaded ch gs s)) := by
  rw [← mapLoaded_eq]
  obtain ⟨hstage, hk, htag, h255⟩ := hst
  refine (exec_commandOf hstage hk).trans (congrArg _ ?_)
  unfold State.changesCheck at hc
  have hholds : firstFail [(!s.holdsController ch, Code.claimRequired)] = none := by simp [firstFail, holdsController_of hctl]
  simp only [admitAs, admitMapLoad, tagCheck_none htag h255, hop, transactionVolume_none hm, hholds, hg, hc]

end MapLoad

end Sys2Proof.Machine

namespace Sys2Proof.Proofs

open Sys2Proof.Machine Sys2Proof.Safety

/-- Settles O26: the checks in their order, then slot by slot what the changes have made. -/
theorem mapLoad : Obligations.MapLoad := by
  refine ⟨fun ch r cs gs s hst hop hg hctl hm hn hshare hfree hl => ?_, fun ch r cs s hst hop hctl hm hl => ⟨fun hg => ?_, fun gs hg =>
    ⟨fun hbad => ?_, fun hn hshare hbusy => ?_⟩⟩⟩
  · have hnone : s.changesCheck ch gs = none := by
      rw [changesCheck_free hn hshare, if_neg (fun h => ?_)]
      obtain ⟨g, hgm, hb⟩ := anyBusy_iff.1 h
      exact hfree g hgm hb
    have hframe := mapLoaded_frame ch gs s
    have hself : (mapLoaded ch gs s).port ch = s.port ch := applyChanges_port_self ch gs s
    have hother : (mapLoaded ch gs s).port ch.other = _ := applyChanges_port_other hn ch s
    have hlaw : RepliesLawful (mapLoaded ch gs s) := by
      refine repliesLawful_congr hl (fun c => ?_)
      by_cases hc : c = ch
      · rw [hc, hself]
        exact ⟨rfl, rfl⟩
      · rw [eq_other_of_ne hc, hother]
        split <;> exact ⟨rfl, rfl⟩
    have hexec := mapLoad_passes hst hop hctl hm hg hnone
    rw [complete_of_lawful hlaw] at hexec
    refine ⟨mapLoaded ch gs s, hexec, fun k hk => applyChanges_unnamed hk ch s, fun k hk => applyChanges_named hn hk ch s, fun k d hk => ?_,
      hself, hother, mapLoaded_access ch gs s, hframe⟩
    obtain ⟨hext, hclaim⟩ := applyChanges_named hn hk ch s
    refine ⟨hclaim, changedFill (s.extent k) d, hext.trans (changedExtent_some _ d), changedFill_other _, fun happ => ⟨fun e g he => ?_,
      changedFill_new happ⟩⟩
    rw [he]
    exact changedFill_kept happ
  · exact ⟨_, mapLoad_malformed hst hop hctl hm hg, refused_of_lawful hl ch r .badMap⟩
  · exact ⟨_, mapLoad_refused hst hop hctl hm hg (changesCheck_badMap hbad), refused_of_lawful hl ch r .badMap⟩
  · have hbusy' : s.changesCheck ch gs = some .extentBusy := by rw [changesCheck_free hn hshare, if_pos (anyBusy_iff.2 hbusy)]
    exact ⟨_, mapLoad_refused hst hop hctl hm hg hbusy', refused_of_lawful hl ch r .extentBusy⟩

end Sys2Proof.Proofs
end

section
/-! PROOFS. The grants that ARBITER_CHOICE makes beside a READ's and a WRITE's: an APPEND's, a MAP-STORE's, a posted write's (R22, R42, R83). -/

namespace Sys2Proof.Machine

open Sys2Proof.Safety

/-! ## The grant of an APPEND's run and of a label write (R22, R72, R83, R115) -/

section Grants

variable {s : State} {e : Entry} (he : s.entry e.order = some e)

include he

/-- An APPEND's grant with room, at the fill mark; the first one records the append start. -/
theorem grantEntry_append (hk : e.kind = .append) {k : Slot} (hslot : e.slot = some k) (hroom : s.fillMark k < e.size) :
    grantEntry e.order s =
      { updEntry e.order (fun x => { x with
          state := .active, deadline := none, run := some (s.fillMark k, runLength (s.fillMark k) e.remaining)
          appendStart := some (x.appendStart.getD (s.fillMark k)) }) s with
        seq := begun (Access.begin (.entry e.order) .appendRun e.cls e.verify (some k) e.base (s.fillMark k)
          ((s.fillMark k / 24 + 1) * 24) e.size) s.seq } := by
  have hmark : (updEntry e.order (fun x => { x with state := .active, deadline := none }) s).fillMark k = s.fillMark k := rfl
  unfold grantEntry
  rw [he]
  dsimp only
  rw [hk, hslot]
  dsimp only
  rw [hmark, if_neg (Nat.not_le_of_lt hroom)]
  unfold grantAppend
  dsimp only
  rw [updEntry_updEntry (f := fun x => { x with state := .active, deadline := none }) (fun _ => rfl), beginAccess_eq_begun, hslot]
  rfl

/-- An APPEND's grant on a full extent. -/
theorem grantEntry_append_full (hk : e.kind = .append) {k : Slot} (hslot : e.slot = some k) (hfull : e.size ≤ s.fillMark k) :
    grantEntry e.order s = endEntry e.order .extentFull (updEntry e.order (fun x => { x with state := .active, deadline := none }) s) := by
  have hmark : (updEntry e.order (fun x => { x with state := .active, deadline := none }) s).fillMark k = s.fillMark k := rfl
  unfold grantEntry
  rw [he]
  dsimp only
  rw [hk, hslot]
  dsimp only
  rw [hmark, if_pos hfull]

/-- The serial that a MAP-STORE's label takes: the volume's, or its own on an UNLABELLED volume (R10). -/
def State.labelSerial (s : State) (own : BitVec 32) : BitVec 32 :=
  if s.volume.label = some .valid then s.volume.serial.getD own else own

omit he in
theorem labelSerial_of {own serial : BitVec 32} (hvalid : s.volume.label = some .valid → s.volume.serial = some serial)
    (hown : s.volume.label ≠ some .valid → serial = own) : s.labelSerial own = serial := by
  unfold State.labelSerial
  split
  · next h => rw [hvalid h, Option.getD_some]
  · next h => exact (hown h).symm

theorem grantEntry_mapStore (hk : e.kind = .mapStore) :
    grantEntry e.order s =
      { updEntry e.order (fun x => { x with state := .active, deadline := none }) s with
        ctlBuffer := .label (labelOf (s.labelSerial e.serial) s)
        seq := begun (Access.begin (.entry e.order) .labelWrite (some .setup) true none 0 0 1 1) s.seq } := by
  unfold grantEntry
  rw [he]
  dsimp only
  rw [hk]
  dsimp only
  rw [beginLabelWrite, beginAccess_eq_begun]
  rfl

end Grants

/-! ## The grant of a posted APPEND on a full extent (R22) -/

theorem fillMark_of_fill {s : State} {k : Slot} {f : Fill} (h : s.fill k = some f) : s.fillMark k = f.mark := by
  rw [State.fillMark, h]
  rfl

theorem fill_of_extent {s : State} {k : Slot} {x : Extent} {f : Fill} (hx : s.extent k = some x) (hf : x.fill = some f) :
    s.fill k = some f := by
  rw [State.fill, hx]
  exact hf

theorem grantPosted_append_full {s : State} {p : Posted} (hp : s.postedWrite p.order = some p) (hk : p.kind = .append)
    (hfull : p.size ≤ s.fillMark p.slot) :
    grantPosted p.order s =
      faultPosted p.order .mediumError (updPosted p.order (fun x => { x with committing := true, tornNext := false }) s) := by
  have hmark : (updPosted p.order (fun x => { x with committing := true, tornNext := false }) s).fillMark p.slot = s.fillMark p.slot := rfl
  unfold grantPosted
  rw [hp]
  dsimp only
  rw [hk]
  dsimp only
  rw [hmark, if_pos hfull]

/-! ## The arbiter's choice, PROTECT inactive -/

/-- ARBITER_CHOICE without PROTECT: what the choice falls on is granted (R83). -/
theorem arbiterChoice_grant {s : State} {c : Candidate} {dir : Direction} (ha : s.seq.access = none) (hi : s.seq.state = .idle)
    (hc : choose s.direction (s.seq.cylinder.getD 0) s.candidates = (some c, dir)) (hp : s.ownerActive .protect = false) :
    exec .arbiterChoice s = .next (settle (grant c.owner { s with direction := dir })) := by
  have hfree : s.driveFree = true := (driveFree_iff s).2 ⟨ha, hi⟩
  have hend : endProtectedChoices s = s := endProtectedChoices_eq (fun hact => absurd (hp.symm.trans hact) Bool.false_ne_true)
  show execArbiterChoice s = _
  unfold execArbiterChoice chooseAndGrant
  rw [if_pos hfree, hend, hc]

/-- A posted write made COMMITTING and then faulted, as a settled step leaves it. -/
theorem settle_committing_faulted {s : State} (ho : OrdersLawful s) (hl : RepliesLawful s) (hv : s.volume.state = .mounted) {p : Posted}
    (hp : p ∈ s.posted) (hq : ∀ e ∈ s.work, e.state ≠ .watching) (cause : Code) :
    SameButReservations (postedFaulted p cause s)
      (settle (faultPosted p.order cause (updPosted p.order (fun x => { x with committing := true, tornNext := false }) s))) := by
  rw [updPosted_of_mem (f := fun x => { x with committing := true, tornNext := false }) ho hp rfl]
  have hover : PostedOver { p with committing := true, tornNext := false } (withPosted { p with committing := true, tornNext := false } s) :=
    ⟨withPosted_ordersLawful ho _, hl, mem_withPosted hp rfl, hq⟩
  have hend := settle_faulted hover (sameBut_refl _) hv cause
  rw [postedFaulted_withPosted] at hend
  exact hend

section Chosen

variable {s : State} {c : Candidate} {dir : Direction} (ha : s.seq.access = none) (hi : s.seq.state = .idle)
  (hc : choose s.direction (s.seq.cylinder.getD 0) s.candidates = (some c, dir)) (ho : OrdersLawful s) (hl : RepliesLawful s)
  (hv : s.volume.state = .mounted) (hp : s.ownerActive .protect = false)

include ha hi hc ho hl hv hp

theorem chosen_append {e : Entry} {k : Slot} {f : Fill} (he : e ∈ s.work) (hown : c.owner = .entry e.order) (hk : e.kind = .append)
    (hslot : e.slot = some k) (hf : s.fill k = some f) :
    (f.mark < e.size →
      ∃ t, exec .arbiterChoice s = .next t
        ∧ SameButReservations
            { updEntry e.order (fun y => { y with
                state := .active, deadline := none, run := some (f.mark, runLength f.mark e.remaining)
                appendStart := some (y.appendStart.getD f.mark) }) { s with direction := dir } with
              seq := begun (Access.begin (.entry e.order) .appendRun e.cls e.verify (some k) e.base f.mark ((f.mark / 24 + 1) * 24)
                e.size) s.seq } t)
      ∧ (e.size ≤ f.mark →
          ∃ t, exec .arbiterChoice s = .next t
            ∧ SameButReservations
                (entryEnded { e with state := .active, deadline := none } .extentFull
                  (updEntry e.order (fun y => { y with state := .active, deadline := none }) { s with direction := dir })) t) := by
  have hentry : ({ s with direction := dir } : State).entry e.order = some e := entry_of_mem ho he
  have hmark : ({ s with direction := dir } : State).fillMark k = f.mark := fillMark_of_fill hf
  have hexec := arbiterChoice_grant ha hi hc hp
  rw [hown] at hexec
  refine ⟨fun hroom => ⟨_, hexec, ?_⟩, fun hfull => ⟨_, hexec, ?_⟩⟩
  · show SameButReservations _ (settle (grantEntry e.order { s with direction := dir }))
    rw [grantEntry_append hentry hk hslot (by rw [hmark]; exact hroom), hmark]
    exact settle_of_sameBut (sameBut_refl _) hl hv
  · show SameButReservations _ (settle (grantEntry e.order { s with direction := dir }))
    rw [grantEntry_append_full hentry hk hslot (by rw [hmark]; exact hfull)]
    exact settle_endEntry_changed (s := { s with direction := dir }) ho hl hv he
      (g := fun y => { y with state := .active, deadline := none }) (fun _ => rfl) .extentFull

theorem chosen_mapStore {e : Entry} {serial : BitVec 32} (he : e ∈ s.work) (hown : c.owner = .entry e.order) (hk : e.kind = .mapStore)
    (hserial : s.labelSerial e.serial = serial) :
    ∃ t, exec .arbiterChoice s = .next t
      ∧ SameButReservations
          { updEntry e.order (fun y => { y with state := .active, deadline := none }) { s with direction := dir } with
            ctlBuffer := .label (labelOf serial s)
            seq := begun (Access.begin (.entry e.order) .labelWrite (some .setup) true none 0 0 1 1) s.seq } t := by
  have hentry : ({ s with direction := dir } : State).entry e.order = some e := entry_of_mem ho he
  have hexec := arbiterChoice_grant ha hi hc hp
  rw [hown] at hexec
  refine ⟨_, hexec, ?_⟩
  show SameButReservations _ (settle (grantEntry e.order { s with direction := dir }))
  rw [grantEntry_mapStore hentry hk, ← hserial]
  exact settle_of_sameBut (sameBut_refl _) hl hv

section Posted

variable {p : Posted} (hmem : p ∈ s.posted) (hown : c.owner = .posted p.order)

include hmem hown

theorem chosen_posted_write (hk : p.kind = .write) {n : Nat} (hn : p.first = some n) :
    (ClaimStands s p.slot p.channel p.token →
      ∃ t, exec .arbiterChoice s = .next t
        ∧ SameButReservations
            { updPosted p.order (fun y => { y with committing := true, tornNext := false }) { s with direction := dir } with
              seq := begun { Access.begin (.posted p.order) .writeRun (some p.cls) p.verify (some p.slot) p.base (n + p.committed)
                (n + p.committed + runLength (n + p.committed) (p.count - p.committed)) p.size with tornResume := p.tornNext } s.seq } t)
      ∧ (¬ ClaimStands s p.slot p.channel p.token → (∀ e ∈ s.work, e.state ≠ .watching) →
          ∃ t, exec .arbiterChoice s = .next t ∧ SameButReservations (postedFaulted p .claimLost { s with direction := dir }) t) := by
  have hfound : ({ s with direction := dir } : State).postedWrite p.order = some p := postedWrite_of_mem ho hmem
  have hexec := arbiterChoice_grant ha hi hc hp
  rw [hown] at hexec
  refine ⟨fun hheld => ⟨_, hexec, ?_⟩, fun hlost hq => ⟨_, hexec, ?_⟩⟩
  · show SameButReservations _ (settle (grantPosted p.order { s with direction := dir }))
    rw [grantPosted_write hfound hk hheld, hn]
    exact settle_of_sameBut (sameBut_refl _) hl hv
  · show SameButReservations _ (settle (grantPosted p.order { s with direction := dir }))
    rw [grantPosted_write_lost hfound hk hlost]
    exact settle_committing_faulted (s := { s with direction := dir }) ho hl hv hmem hq .claimLost

theorem chosen_posted_append (hk : p.kind = .append) {f : Fill} (hf : s.fill p.slot = some f) :
    (f.mark < p.size →
      ∃ t, exec .arbiterChoice s = .next t
        ∧ SameButReservations
            { updPosted p.order (fun y => { y with committing := true, tornNext := false, first := some (y.first.getD f.mark) })
                { s with direction := dir } with
              seq := begun (Access.begin (.posted p.order) .appendRun (some p.cls) p.verify (some p.slot) p.base f.mark
                ((f.mark / 24 + 1) * 24) p.size) s.seq } t)
      ∧ (p.size ≤ f.mark → (∀ e ∈ s.work, e.state ≠ .watching) →
          ∃ t, exec .arbiterChoice s = .next t ∧ SameButReservations (postedFaulted p .mediumError { s with direction := dir }) t) := by
  have hfound : ({ s with direction := dir } : State).postedWrite p.order = some p := postedWrite_of_mem ho hmem
  have hfill : ({ s with direction := dir } : State).fill p.slot = some f := hf
  have hexec := arbiterChoice_grant ha hi hc hp
  rw [hown] at hexec
  refine ⟨fun hroom => ⟨_, hexec, ?_⟩, fun hfull hq => ⟨_, hexec, ?_⟩⟩
  · show SameButReservations _ (settle (grantPosted p.order { s with direction := dir }))
    rw [grantPosted_append hfound hk hfill hroom]
    exact settle_of_sameBut (sameBut_refl _) hl hv
  · show SameButReservations _ (settle (grantPosted p.order { s with direction := dir }))
    rw [grantPosted_append_full hfound hk (by rw [fillMark_of_fill hfill]; exact hfull)]
    exact settle_committing_faulted (s := { s with direction := dir }) ho hl hv hmem hq .mediumError

end Posted

end Chosen

end Sys2Proof.Machine
end

section
/-! PROOFS. The writes that a choice under PROTECT ends one after another (R79): what each leaves, and that none is left to be chosen. -/

namespace Sys2Proof.Machine

open Sys2Proof.Safety

/-! ## The choice falls on a candidate (R81, R82) -/

theorem best_mem {α : Type} {pref : α → α → Bool} {l : List α} {x : α} (h : best pref l = some x) : x ∈ l := by
  induction l generalizing x with
  | nil => cases h
  | cons y l ih =>
    obtain rfl := Option.some.inj h
    unfold better
    split
    · exact List.mem_cons_self ..
    · next z hz =>
      split
      · exact List.mem_cons_of_mem _ (ih hz)
      · exact List.mem_cons_self ..

theorem elevator_mem {dir : Direction} {arm : Nat} {cs : List Candidate} {c : Candidate} {d : Direction}
    (h : elevator dir arm cs = (some c, d)) : c ∈ cs := by
  unfold elevator at h
  split at h
  · next x hx =>
    obtain ⟨⟨rfl⟩, -⟩ := Prod.mk.inj h
    exact List.filter_subset_self _ (best_mem hx)
  · exact List.filter_subset_self _ (best_mem (Prod.mk.inj h).1)

theorem choose_mem {dir : Direction} {arm : Nat} {cs : List Candidate} {c : Candidate} {d : Direction}
    (h : choose dir arm cs = (some c, d)) : c ∈ cs := by
  unfold choose at h
  dsimp only at h
  split at h
  · cases h
  · next x l htop =>
    refine List.filter_subset_self _ (show c ∈ highestClass cs from ?_)
    split at h
    · exact best_mem (Prod.mk.inj h).1
    · exact elevator_mem h

/-- What the arbiter chooses is a live entry or a posted write. -/
theorem chosen_owner {s : State} {c : Candidate} {d : Direction} {dir : Direction} {arm : Nat}
    (h : choose dir arm s.candidates = (some c, d)) :
    (∃ e ∈ s.work, e.live = true ∧ c.owner = .entry e.order) ∨ ∃ p ∈ s.posted, c.owner = .posted p.order := by
  rcases List.mem_append.1 (choose_mem h) with hc | hc
  · obtain ⟨e, he, rfl⟩ := List.mem_map.1 hc
    obtain ⟨hmem, helig⟩ := List.mem_filter.1 he
    refine .inl ⟨e, hmem, ?_, rfl⟩
    simp only [State.entryEligible, Bool.and_eq_true, Bool.or_eq_true] at helig
    obtain ⟨⟨⟨hstate, -⟩, -⟩, -⟩ := helig
    unfold Entry.live
    rcases hstate with hq | hp
    · rw [hq]
      rfl
    · rw [hp, Bool.or_true]
  · obtain ⟨p, hp, rfl⟩ := List.mem_map.1 hc
    exact .inr ⟨p, (List.mem_filter.1 hp).1, rfl⟩

theorem not_finished_of_live {e : Entry} (h : e.live = true) : e.state ≠ .finished := by
  intro hf
  simp [Entry.live, hf] at h

/-! ## Reservations topped up after an ending (R98) -/

theorem topUpOne_notLive {e : Entry} (h : e.live = false) (ch : Channel) (s : State) : topUpOne ch s e = s := by
  have hgoal : e.reservationGoal = 0 := by
    unfold Entry.reservationGoal
    split
    · next hst _ => simp [Entry.live, hst] at h
    · next hst => simp [Entry.live, hst] at h
    · rfl
  unfold topUpOne
  rw [if_neg (by omega)]

theorem topUpOne_entry_ne {e : Entry} {n : Nat} (h : e.order ≠ n) (ch : Channel) (s : State) : (topUpOne ch s e).entry n = s.entry n := by
  unfold topUpOne
  split
  · exact (entry_updEntry (f := fun x => { x with reserved := x.reserved + min (e.reservationGoal - e.reserved) (s.unused ch) })
      (fun _ => rfl) n).trans (if_neg (Ne.symm h))
  · rfl

theorem foldl_topUpOne_entry {l : List Entry} {n : Nat} (h : ∀ e ∈ l, e.order = n → e.live = false) (ch : Channel) (s : State) :
    (l.foldl (topUpOne ch) s).entry n = s.entry n := by
  induction l generalizing s with
  | nil => rfl
  | cons e l ih =>
    rw [List.foldl_cons, ih (fun x hx => h x (List.mem_cons_of_mem _ hx))]
    by_cases hn : e.order = n
    · rw [topUpOne_notLive (h e (List.mem_cons_self ..) hn)]
    · exact topUpOne_entry_ne hn ch s

/-- Topping up leaves a FINISHED entry as it was. -/
theorem topUp_entry {s : State} (hn : (s.work.map (fun e => e.order)).Nodup) {n : Nat} {x : Entry} (hx : s.entry n = some x)
    (hf : x.live = false) (ch : Channel) : (topUp ch s).entry n = some x := by
  unfold topUp
  rw [foldl_topUpOne_entry (fun e he heq => ?_), hx]
  rwa [eq_of_order hn he (mem_of_entry hx) (heq.trans (entry_order hx).symm)]

theorem topUp_notLive {s : State} (h : ∀ e ∈ s.work, e.live = false) (ch : Channel) : topUp ch s = s := by
  suffices hfold : ∀ l : List Entry, (∀ e ∈ l, e.live = false) → l.foldl (topUpOne ch) s = s from hfold s.work h
  intro l hl
  induction l with
  | nil => rfl
  | cons e l ih =>
    rw [List.foldl_cons, topUpOne_notLive (hl e (List.mem_cons_self ..)), ih (fun x hx => hl x (List.mem_cons_of_mem _ hx))]

theorem topUpBoth_notLive {s : State} (h : ∀ e ∈ s.work, e.live = false) : topUpBoth s = s := by
  unfold topUpBoth
  rw [topUp_notLive h, topUp_notLive h]

theorem live_of_sameBut {s t : State} (h : SameButReservations s t) {x : Entry} (hx : x ∈ t.work) (hlive : x.live = true) :
    ∃ y ∈ s.work, y.live = true ∧ y.order = x.order := by
  obtain ⟨y, hy, hb⟩ := List.mem_map.1 (h.2 ▸ List.mem_map_of_mem (f := bareEntry) hx)
  obtain ⟨r, rfl⟩ := bareEntry_eq_iff.1 hb
  exact ⟨_, hy, hlive, rfl⟩

theorem endingSteps_topUpBoth {s : State} (hn : (s.work.map (fun e => e.order)).Nodup) : EndingSteps s (topUpBoth s) := by
  have hsame := sameButReservations_topUpBoth s
  have hA : (topUp .A s).work.map (fun e => e.order) = s.work.map (fun e => e.order) := by
    obtain ⟨w, hw, hbare⟩ := topUp_work .A s
    rw [hw]
    exact orders_of_bare hbare
  refine ⟨fun ch => by rw [sameBut_port hsame], fun ch k h => by rw [sameBut_port hsame]; exact h, fun n x hx hf => ?_,
    dueOwn_of_sameBut hsame, by rw [orders_of_bare hsame.2], fun x hx => live_of_sameBut hsame hx⟩
  have hdead : x.live = false := by simp [Entry.live, hf]
  exact topUp_entry (by rw [hA]; exact hn) (topUp_entry hn hx hdead .A) hdead .B

end Sys2Proof.Machine
end

section
/-! PROOFS. The choices under PROTECT one after another (R79): each ends one live piece of work, so that the last leaves no write to choose. -/

namespace Sys2Proof.Machine

open Sys2Proof.Safety

/-! ## What the endings under PROTECT leave -/

/-- Writes have ended under PROTECT on the way from one state to another: steps of ending that touch ports, extents, the two lists and the
direction alone, and add no posted write. -/
structure ProtectSteps (s t : State) : Prop where
  steps : EndingSteps s t
  frame : t = { s with ports := t.ports, extents := t.extents, work := t.work, posted := t.posted, direction := t.direction }
  posted : t.posted.Sublist s.posted

theorem ProtectSteps.refl (s : State) : ProtectSteps s s := ⟨.refl s, rfl, List.Sublist.refl _⟩

theorem ProtectSteps.trans {s t u : State} (h : ProtectSteps s t) (h' : ProtectSteps t u) : ProtectSteps s u where
  steps := h.steps.trans h'.steps
  frame := by
    rw [h'.frame]
    rw [h.frame]
  posted := h'.posted.trans h.posted

theorem protectSteps_direction (dir : Direction) (s : State) : ProtectSteps s { s with direction := dir } :=
  ⟨endingSteps_of_work rfl (fun _ => rfl) (fun _ _ h => h) (fun _ _ h => h), rfl, List.Sublist.refl _⟩

theorem protectSteps_topUpBoth {s : State} (hn : (s.work.map (fun e => e.order)).Nodup) : ProtectSteps s (topUpBoth s) := by
  have hsame := sameButReservations_topUpBoth s
  have hposted : (topUpBoth s).posted = s.posted := by rw [hsame.1]
  refine ⟨endingSteps_topUpBoth hn, ?_, by rw [hposted]⟩
  rw [hsame.1]

theorem protectSteps_endEntry {s : State} {e : Entry} (hn : (s.work.map (fun e => e.order)).Nodup) (he : e ∈ s.work)
    (hlive : e.live = true) (code : Code) : ProtectSteps s (endEntry e.order code s) := by
  have hposted := endEntry_posted e.order code s
  refine ⟨endingSteps_endEntry (fun x hx => ?_) code, ?_, by rw [hposted]⟩
  · obtain rfl := Option.some.inj ((entry_of_nodup hn he).symm.trans hx)
    exact not_finished_of_live hlive
  · rw [endEntry_frame]

/-- What a posted write's fault changes before it leaves, its log entry apart (R104). -/
def postedTold (p : Posted) (s : State) : State :=
  raise p.channel .postedFault (if p.kind = .append then lowerPending p.slot p.buffers.length s else s)

theorem leaveFaulted_eq (p : Posted) (s : State) : leaveFaulted p s = postedLeaves p.order true (postedTold p s) := rfl

theorem postedTold_frame (p : Posted) (s : State) :
    postedTold p s = { s with ports := (postedTold p s).ports, extents := (postedTold p s).extents } := by
  unfold postedTold
  split <;> rfl

theorem endingSteps_postedTold (p : Posted) (s : State) : EndingSteps s (postedTold p s) := by
  refine EndingSteps.trans ?_ (endingSteps_raise p.channel .postedFault _)
  split
  · exact endingSteps_of_work rfl (fun _ => rfl) (fun _ _ h => h) (fun _ _ h => h)
  · exact .refl s

theorem leaveFaulted_frame (p : Posted) (s : State) :
    leaveFaulted p s =
      { s with
        ports := (leaveFaulted p s).ports, extents := (leaveFaulted p s).extents, work := (leaveFaulted p s).work
        posted := s.posted.filter (fun x => x.order ≠ p.order) } := by
  rw [leaveFaulted_eq, postedLeaves_frame]
  rw [postedTold_frame]

section Leaves

variable {s : State} (hn : (s.work.map (fun e => e.order)).Nodup) (p : Posted)

include hn

theorem postedTold_nodup : ((postedTold p s).work.map (fun e => e.order)).Nodup := (endingSteps_postedTold p s).nodup hn

theorem protectSteps_leaveFaulted : ProtectSteps s (leaveFaulted p s) := by
  have hframe := leaveFaulted_frame p s
  have hposted : (leaveFaulted p s).posted = s.posted.filter (fun x => x.order ≠ p.order) := by rw [hframe]
  refine ⟨?_, ?_, by rw [hposted]; exact List.filter_sublist⟩
  · exact (endingSteps_postedTold p s).trans (endingSteps_postedLeaves (postedTold_nodup hn p) p.order true)
  · rw [hframe]

/-- A posted write that leaves faulted has told its channel. -/
theorem leaveFaulted_event : hasEvent ((leaveFaulted p s).port p.channel).events .postedFault = true := by
  refine (endingSteps_postedLeaves (postedTold_nodup hn p) p.order true).events _ _ ?_
  unfold postedTold
  rw [raise, updPort_port_same]
  exact hasEvent_self _ _

end Leaves

/-! ## One choice under PROTECT -/

/-- The write that the choice falls on ends, and the room of its buffers goes to short reservations: one round of `protectedChoices`. -/
def protectedOnce (o : Owner) (dir : Direction) (s : State) : State := topUpBoth (endProtected o { s with direction := dir })

theorem protectedChoices_succ {s : State} {c : Candidate} {dir : Direction}
    (hc : choose s.direction (s.seq.cylinder.getD 0) s.candidates = (some c, dir)) (hw : s.choiceWrites c.owner = true) (n : Nat) :
    protectedChoices (n + 1) s = protectedChoices n (protectedOnce c.owner dir s) := by
  rw [protectedChoices, hc]
  exact if_pos hw

theorem protectedChoices_stops {s : State} {c : Candidate} {dir : Direction}
    (hc : choose s.direction (s.seq.cylinder.getD 0) s.candidates = (some c, dir)) (hw : s.choiceWrites c.owner = false) (n : Nat) :
    protectedChoices n s = s := by
  refine protectedChoices_eq (fun c' dir' hc' => ?_) n
  obtain ⟨⟨rfl⟩, -⟩ := Prod.mk.inj (hc.symm.trans hc')
  exact hw

theorem protectedOnce_entry (n : Nat) (dir : Direction) (s : State) :
    protectedOnce (.entry n) dir s = topUpBoth (endEntry n .writeProtected { s with direction := dir }) := rfl

theorem protectedOnce_posted {s : State} {p : Posted} (hp : s.postedWrite p.order = some p) (dir : Direction) :
    protectedOnce (.posted p.order) dir s = topUpBoth (leaveFaulted p { s with direction := dir }) := by
  rw [protectedOnce, endProtected, show ({ s with direction := dir } : State).postedWrite p.order = some p from hp]

/-- The lists of work name each admission order once. -/
structure OrdersOnce (s : State) : Prop where
  work : (s.work.map (fun e => e.order)).Nodup
  posted : (s.posted.map (fun p => p.order)).Nodup

theorem ordersOnce_of_lawful {s : State} (ho : OrdersLawful s) : OrdersOnce s :=
  ⟨(List.nodup_append.1 ho.1).1, (List.nodup_append.1 ho.1).2.1⟩

theorem OrdersOnce.steps {s t : State} (ho : OrdersOnce s) (h : ProtectSteps s t) : OrdersOnce t :=
  ⟨h.steps.nodup ho.work, ho.posted.sublist (h.posted.map _)⟩

theorem OrdersOnce.found {s : State} (ho : OrdersOnce s) {p : Posted} (hp : p ∈ s.posted) : s.postedWrite p.order = some p :=
  find?_posted_order ho.posted hp

/-- The live pieces of work: the orders of the live entries, and the posted writes. -/
def State.liveOrders (s : State) : Finset Nat := ((s.work.filter Entry.live).map (fun e => e.order)).toFinset

def State.pieces (s : State) : Nat := s.liveOrders.card + s.posted.length

theorem mem_liveOrders {s : State} {n : Nat} : n ∈ s.liveOrders ↔ ∃ e ∈ s.work, e.live = true ∧ e.order = n := by
  simp [State.liveOrders, and_assoc]

theorem pieces_le (s : State) : s.pieces ≤ s.work.length + s.posted.length := by
  have hcard := List.toFinset_card_le ((s.work.filter Entry.live).map (fun e => e.order))
  have hfilter := List.length_filter_le Entry.live s.work
  rw [List.length_map] at hcard
  unfold State.pieces State.liveOrders
  omega

theorem liveOrders_subset {s t : State} (h : EndingSteps s t) : t.liveOrders ⊆ s.liveOrders := by
  intro n hn
  obtain ⟨x, hx, hlive, rfl⟩ := mem_liveOrders.1 hn
  exact mem_liveOrders.2 (h.live x hx hlive)

/-- A live entry ended: fewer pieces are left. -/
theorem pieces_endEntry {s : State} {e : Entry} (he : e ∈ s.work) (hlive : e.live = true) (dir : Direction)
    (h : ProtectSteps s (protectedOnce (.entry e.order) dir s)) : (protectedOnce (.entry e.order) dir s).pieces < s.pieces := by
  have hgone : e.order ∉ (protectedOnce (.entry e.order) dir s).liveOrders := by
    intro hin
    obtain ⟨x, hx, hxl, hxo⟩ := mem_liveOrders.1 hin
    obtain ⟨y, hy, hyl, hyo⟩ := live_of_sameBut (sameButReservations_topUpBoth _) hx hxl
    rcases mem_endEntry hy with ⟨-, hne⟩ | ⟨-, hfin⟩
    · exact hne (hyo.trans hxo)
    · exact not_finished_of_live hyl hfin
  have hcard : (protectedOnce (.entry e.order) dir s).liveOrders.card < s.liveOrders.card :=
    Finset.card_lt_card ⟨liveOrders_subset h.steps, fun hsub => hgone (hsub (mem_liveOrders.2 ⟨e, he, hlive, rfl⟩))⟩
  have hposted := h.posted.length_le
  unfold State.pieces
  omega

/-- A posted write gone: fewer pieces are left. -/
theorem pieces_posted {s t : State} {p : Posted} (hp : p ∈ s.posted) (h : ProtectSteps s t) (hgone : ∀ x ∈ t.posted, x.order ≠ p.order) :
    t.pieces < s.pieces := by
  have hcard := Finset.card_le_card (liveOrders_subset h.steps)
  have hposted : t.posted.length < s.posted.length := by
    refine lt_of_le_of_ne h.posted.length_le (fun heq => ?_)
    exact hgone p ((h.posted.eq_of_length heq).symm ▸ hp) rfl
  unfold State.pieces
  omega

theorem protectedOnce_posted_gone {s : State} {p : Posted} (hp : s.postedWrite p.order = some p) (dir : Direction) :
    ∀ x ∈ (protectedOnce (.posted p.order) dir s).posted, x.order ≠ p.order := by
  intro x hx
  rw [protectedOnce_posted hp, (sameButReservations_topUpBoth _).1, leaveFaulted_frame] at hx
  exact of_decide_eq_true (List.mem_filter.1 hx).2

/-- One choice under PROTECT: steps of ending that leave fewer live pieces of work. -/
theorem protectedOnce_steps {s : State} (ho : OrdersOnce s) {c : Candidate} {dir : Direction}
    (hc : choose s.direction (s.seq.cylinder.getD 0) s.candidates = (some c, dir)) :
    ProtectSteps s (protectedOnce c.owner dir s) ∧ (protectedOnce c.owner dir s).pieces < s.pieces := by
  have hdir := protectSteps_direction dir s
  have hn : (({ s with direction := dir } : State).work.map (fun e => e.order)).Nodup := ho.work
  have topped : ∀ u, ProtectSteps { s with direction := dir } u → ProtectSteps s (topUpBoth u) := fun u hu =>
    (hdir.trans hu).trans (protectSteps_topUpBoth (hu.steps.nodup hn))
  rcases chosen_owner hc with ⟨e, he, hlive, hown⟩ | ⟨p, hp, hown⟩
  · rw [hown]
    have hsteps : ProtectSteps s (protectedOnce (.entry e.order) dir s) :=
      topped _ (protectSteps_endEntry (s := { s with direction := dir }) hn he hlive .writeProtected)
    exact ⟨hsteps, pieces_endEntry he hlive dir hsteps⟩
  · rw [hown]
    have hfound := ho.found hp
    have hsteps : ProtectSteps s (protectedOnce (.posted p.order) dir s) := by
      rw [protectedOnce_posted hfound]
      exact topped _ (protectSteps_leaveFaulted (s := { s with direction := dir }) hn p)
    exact ⟨hsteps, pieces_posted hp hsteps (protectedOnce_posted_gone hfound dir)⟩

/-! ## All of them -/

theorem protectedChoices_steps (n : Nat) {s : State} (ho : OrdersOnce s) : ProtectSteps s (protectedChoices n s) := by
  induction n generalizing s with
  | zero => exact .refl s
  | succ n ih =>
    cases hc : choose s.direction (s.seq.cylinder.getD 0) s.candidates with
    | mk o dir =>
      cases o with
      | none =>
        rw [protectedChoices_eq (fun c d hc' => by rw [hc] at hc'; cases hc')]
        exact .refl s
      | some c =>
        cases hw : s.choiceWrites c.owner with
        | false =>
          rw [protectedChoices_stops hc hw]
          exact .refl s
        | true =>
          obtain ⟨hsteps, -⟩ := protectedOnce_steps ho hc
          rw [protectedChoices_succ hc hw]
          exact hsteps.trans (ih (ho.steps hsteps))

/-- With a round for each live piece of work, the choice that is left falls on no write. -/
theorem protectedChoices_last {n : Nat} {s : State} (ho : OrdersOnce s) (hfuel : s.pieces ≤ n) {c : Candidate} {dir : Direction}
    (h : choose (protectedChoices n s).direction ((protectedChoices n s).seq.cylinder.getD 0) (protectedChoices n s).candidates =
      (some c, dir)) : (protectedChoices n s).choiceWrites c.owner = false := by
  induction n generalizing s with
  | zero =>
    obtain ⟨-, hless⟩ := protectedOnce_steps ho h
    exact absurd hless (by omega)
  | succ n ih =>
    cases hc : choose s.direction (s.seq.cylinder.getD 0) s.candidates with
    | mk o d =>
      cases o with
      | none =>
        rw [protectedChoices_eq (fun c' d' hc' => by rw [hc] at hc'; cases hc')] at h
        rw [hc] at h
        cases h
      | some c' =>
        cases hw : s.choiceWrites c'.owner with
        | false =>
          rw [protectedChoices_stops hc hw] at h ⊢
          rw [hc] at h
          obtain ⟨⟨rfl⟩, -⟩ := Prod.mk.inj h
          exact hw
        | true =>
          obtain ⟨hsteps, hless⟩ := protectedOnce_steps ho hc
          rw [protectedChoices_succ hc hw] at h ⊢
          exact ih (ho.steps hsteps) (by omega) h

end Sys2Proof.Machine
end

section
/-! PROOFS. What follows the writes that PROTECT ended: their log entries, and a grant or an offer of the drive that writes nothing of the work
(R79, R106, R168). -/

namespace Sys2Proof.Machine

open Sys2Proof.Safety

/-! ## The log of the posted writes gone (R106) -/

theorem logFault_frame (cause : Code) (s : State) (p : Posted) :
    logFault cause s p = { s with logs := s.logs.set p.channel (recorded (faultEntryOf cause s.clock p) (s.logs.get p.channel)) } := rfl

theorem foldl_logFault_frame (cause : Code) (l : List Posted) (s : State) :
    l.foldl (logFault cause) s = { s with logs := (l.foldl (logFault cause) s).logs } := by
  induction l generalizing s with
  | nil => rfl
  | cons p l ih =>
    rw [List.foldl_cons, ih]
    rw [logFault_frame]

theorem logProtected_frame (before s : State) : logProtected before s = { s with logs := (logProtected before s).logs } :=
  foldl_logFault_frame _ _ s

/-- A log holds a fault's entry, or counts faults that it could not hold. -/
def Logged (f : FaultEntry) (l : FaultLog) : Prop := f ∈ l.entries ∨ 1 ≤ l.overflow

theorem logged_recorded (f : FaultEntry) (l : FaultLog) : Logged f (recorded f l) := by
  unfold recorded
  split
  · exact .inl (List.mem_append_right _ (List.mem_singleton.2 rfl))
  · exact .inr (le_min (by omega) (Nat.le_add_left ..))

theorem Logged.more {f : FaultEntry} {l : FaultLog} (h : Logged f l) (g : FaultEntry) : Logged f (recorded g l) := by
  unfold recorded
  split
  · exact h.imp_left (List.mem_append_left _)
  · exact .inr (le_min (by omega) (Nat.le_add_left ..))

theorem get_set_log (ls : PerChannel FaultLog) (c d : Channel) (l : FaultLog) : (ls.set c l).get d = if d = c then l else ls.get d := by
  cases c <;> cases d <;> rfl

theorem logFault_log (cause : Code) (s : State) (p : Posted) (c : Channel) :
    (logFault cause s p).logs.get c =
      if c = p.channel then recorded (faultEntryOf cause s.clock p) (s.logs.get p.channel) else s.logs.get c :=
  get_set_log s.logs p.channel c _

theorem logged_logFault {f : FaultEntry} {c : Channel} {s : State} (h : Logged f (s.logs.get c)) (cause : Code) (p : Posted) :
    Logged f ((logFault cause s p).logs.get c) := by
  rw [logFault_log]
  split
  · subst_vars
    exact h.more _
  · exact h

theorem logged_foldl {f : FaultEntry} {c : Channel} {cause : Code} {l : List Posted} {s : State} (h : Logged f (s.logs.get c)) :
    Logged f ((l.foldl (logFault cause) s).logs.get c) := by
  induction l generalizing s with
  | nil => exact h
  | cons p l ih => exact ih (logged_logFault h cause p)

theorem logged_of_mem {cause : Code} {l : List Posted} {p : Posted} (hp : p ∈ l) (s : State) :
    Logged (faultEntryOf cause s.clock p) ((l.foldl (logFault cause) s).logs.get p.channel) := by
  induction l generalizing s with
  | nil => exact absurd hp List.not_mem_nil
  | cons q l ih =>
    rcases List.mem_cons.1 hp with rfl | hin
    · refine logged_foldl (s := logFault cause s p) ?_
      rw [logFault_log, if_pos rfl]
      exact logged_recorded _ _
    · exact ih hin (logFault cause s q)

theorem logProtected_logged {before s : State} (hclock : s.clock = before.clock) {p : Posted} (hp : p ∈ before.posted)
    (hgone : s.postedWrite p.order = none) :
    Logged (faultEntryOf .writeProtected before.clock p) ((logProtected before s).logs.get p.channel) := by
  rw [← hclock]
  exact logged_of_mem (List.mem_filter.2 ⟨hp, by rw [hgone]; rfl⟩) s

/-! ## The drive granted or offered without a write of the work (R83, R168) -/

/-- A grant or an offer of the drive under PROTECT: steps of ending that leave posted writes, logs and volume, and begin at most an access of
the sweep or a READ's run. -/
structure NoWriteGranted (s t : State) : Prop where
  steps : EndingSteps s t
  posted : t.posted = s.posted
  logs : t.logs = s.logs
  volume : t.volume = s.volume
  access : t.seq.access = s.seq.access
    ∨ ∃ a, t.seq.access = some a ∧ (a.owner = .sweep ∨ ∃ n, a.owner = .entry n ∧ a.kind = .readRun)

theorem NoWriteGranted.refl (s : State) : NoWriteGranted s s := ⟨.refl s, rfl, rfl, rfl, .inl rfl⟩

theorem endingSteps_sweep (sw : Option Sweep) (s : State) : EndingSteps s { s with sweep := sw } :=
  endingSteps_of_work rfl (fun _ => rfl) (fun _ _ h => h) (fun _ _ h => h)

theorem noWriteGranted_nextItem {s u : State} (hu : NoWriteGranted s u) (hseq : u.seq = s.seq) : NoWriteGranted s (nextItem u) := by
  unfold nextItem
  split
  · exact hu
  · split
    · exact hu
    · split
      · exact ⟨hu.steps.trans (endingSteps_sweep _ u), hu.posted, hu.logs, hu.volume, hu.access⟩
      · have hend := endingSteps_endSweep none u
        rw [endSweep_frame] at hend ⊢
        exact ⟨hu.steps.trans hend, hu.posted, hu.logs, hu.volume, .inl (congrArg Sequencer.access hseq)⟩

theorem noWriteGranted_giveResult (r : SweepResult) (s : State) : NoWriteGranted s (giveResult r s) := by
  unfold giveResult
  split
  · exact .refl s
  · exact noWriteGranted_nextItem ⟨endingSteps_sweep _ s, rfl, rfl, rfl, .inl rfl⟩ rfl

/-- An access begun keeps its owner and its kind. -/
theorem begun_access (a : Access) (q : Sequencer) : ∃ b, (begun a q).access = some b ∧ b.owner = a.owner ∧ b.kind = a.kind := by
  unfold begun sent
  split
  · exact ⟨_, rfl, rfl, rfl⟩
  · exact ⟨_, rfl, rfl, rfl⟩

theorem noWriteGranted_beginStep (sw : Sweep) (it : SweepItem) (e : Extent) (m : Nat) (s : State) :
    NoWriteGranted s (beginStep sw it e m s) := by
  unfold beginStep
  split
  · exact noWriteGranted_giveResult .partly s
  · rw [beginAccess_eq_begun]
    obtain ⟨b, hb, howner, -⟩ := begun_access (Access.begin .sweep sw.kind.access (some .bulk) (sw.kind == .clear && sw.verify)
      (some it.slot) e.defn.first m (m + 1) e.defn.size) s.seq
    exact ⟨endingSteps_of_work rfl (fun _ => rfl) (fun _ _ h => h) (fun _ _ h => h), rfl, rfl, rfl, .inr ⟨b, hb, .inl howner⟩⟩

theorem noWriteGranted_takeOffer (sw : Sweep) (it : SweepItem) (s : State) : NoWriteGranted s (takeOffer sw it s) := by
  unfold takeOffer
  split
  · exact .refl s
  · exact noWriteGranted_beginStep ..
  · split
    · exact noWriteGranted_giveResult .done s
    · next top m _ =>
      have h := noWriteGranted_beginStep { sw.updCurrent (fun x => { x with top := some top }) with sector := some m } it ‹Extent› m
        { s with sweep := some { sw.updCurrent (fun x => { x with top := some top }) with sector := some m } }
      exact ⟨(endingSteps_sweep _ s).trans h.steps, h.posted, h.logs, h.volume, h.access⟩

theorem noWriteGranted_offerSweep (s : State) : NoWriteGranted s (offerSweep s) := by
  unfold offerSweep
  split
  · exact .refl s
  · split
    · exact .refl s
    · split
      · exact .refl s
      · exact noWriteGranted_takeOffer ..

/-- A live entry changed, not ended. -/
theorem endingSteps_updEntry {s : State} (hn : (s.work.map (fun e => e.order)).Nodup) {e : Entry} (he : e ∈ s.work) (hlive : e.live = true)
    {f : Entry → Entry} (hf : ∀ x, (f x).order = x.order) : EndingSteps s (updEntry e.order f s) := by
  have other : ∀ n x, (updEntry e.order f s).entry n = some x → n ≠ e.order → s.entry n = some x := fun n x hx hne => by
    rwa [entry_updEntry hf, if_neg hne] at hx
  have hstate : ∀ x, s.entry e.order = some x → x.state ≠ .finished := fun x hx => by
    obtain rfl := Option.some.inj ((entry_of_nodup hn he).symm.trans hx)
    exact not_finished_of_live hlive
  refine ⟨fun _ => rfl, fun _ _ h => h, fun n x hx hfin => ?_, fun hown ch hroom m hm x hx => ?_, by rw [updEntry_orders hf],
    fun x hx hxl => ?_⟩
  · rw [entry_updEntry hf, if_neg (fun h : n = e.order => hstate x (h ▸ hx) hfin), hx]
  · by_cases hne : m = e.order
    · exact absurd (hown ch hroom m hm e (hne ▸ entry_of_nodup hn he)).2 (not_finished_of_live hlive)
    · exact hown ch hroom m hm x (other m x hx hne)
  · obtain ⟨y, hy, rfl⟩ := List.mem_map.1 hx
    by_cases hye : y.order = e.order
    · exact ⟨e, he, hlive, by rw [if_pos hye, hf, hye]⟩
    · rw [if_neg hye] at hxl ⊢
      exact ⟨y, hy, hxl, rfl⟩

/-- A READ's grant (R83). -/
theorem noWriteGranted_read {s : State} (hn : (s.work.map (fun e => e.order)).Nodup) {e : Entry} (he : e ∈ s.work) (hlive : e.live = true)
    (hk : e.kind = .read) : NoWriteGranted s (grantEntry e.order s) := by
  have hact := endingSteps_updEntry hn he hlive (f := fun x => { x with state := .active, deadline := none }) (fun _ => rfl)
  have hmem : ({ e with state := .active, deadline := none } : Entry) ∈
      (updEntry e.order (fun x => { x with state := .active, deadline := none }) s).work := List.mem_map.2 ⟨e, he, if_pos rfl⟩
  unfold grantEntry
  rw [entry_of_nodup hn he]
  dsimp only
  rw [hk]
  dsimp only
  unfold grantRead
  dsimp only
  rw [beginAccess_eq_begun]
  obtain ⟨b, hb, howner, hkind⟩ := begun_access (Access.begin (.entry e.order) .readRun e.cls false e.slot e.base (e.first + e.done)
    (e.first + e.done + runLength (e.first + e.done) e.remaining) e.size) s.seq
  refine ⟨hact.trans ?_, rfl, rfl, rfl, .inr ⟨b, hb, .inr ⟨e.order, howner, hkind⟩⟩⟩
  have hrun := endingSteps_updEntry (hact.nodup hn) hmem rfl (f := fun x => { x with
    allocated := runLength (e.first + e.done) e.remaining
    reserved := min ((updEntry e.order (fun x => { x with state := .active, deadline := none }) s).unused e.channel
      + e.reserved - runLength (e.first + e.done) e.remaining)
      (runLength (e.first + e.done + runLength (e.first + e.done) e.remaining) (e.remaining - runLength (e.first + e.done) e.remaining))
    run := some (e.first + e.done, runLength (e.first + e.done) e.remaining) }) (fun _ => rfl)
  exact ⟨hrun.queue, hrun.events, hrun.kept, hrun.dues, hrun.orders, hrun.live⟩

/-- The arbiter's choice where it falls on no write. -/
theorem noWriteGranted_chooseAndGrant {s : State} (ho : OrdersOnce s)
    (h : ∀ c dir, choose s.direction (s.seq.cylinder.getD 0) s.candidates = (some c, dir) → s.choiceWrites c.owner = false) :
    NoWriteGranted s (chooseAndGrant s) := by
  unfold chooseAndGrant
  split
  · exact noWriteGranted_offerSweep s
  · next c dir hc =>
    have hwrites := h c dir hc
    rcases chosen_owner hc with ⟨e, he, hlive, hown⟩ | ⟨p, hp, hown⟩
    · have hread : e.kind = .read := by
        rw [hown] at hwrites
        simpa [State.choiceWrites, entry_of_nodup ho.work he] using hwrites
      rw [hown]
      have hg := noWriteGranted_read (s := { s with direction := dir }) ho.work he hlive hread
      exact ⟨(protectSteps_direction dir s).steps.trans hg.steps, hg.posted, hg.logs, hg.volume, hg.access⟩
    · rw [hown] at hwrites
      cases hwrites

/-! ## Settling with the volume MOUNTED -/

theorem settle_tail {s : State} (hv : s.volume.state = .mounted) : settle s = settleTail s := by
  rw [settle_eq, drainExpiry, if_neg (by simp [hv])]

theorem settle_access {s : State} (hv : s.volume.state = .mounted) : (settle s).seq.access = s.seq.access := by
  rw [settle_tail hv]
  obtain ⟨-, -, -, -, -, -, haccess⟩ := releaseStop_lists (drainCheck (placeBoth (topUpBoth s)))
  obtain ⟨-, -, -, -, -, hseq⟩ := drainCheck_lists (placeBoth (topUpBoth s))
  refine haccess.trans ((congrArg Sequencer.access hseq).trans ?_)
  rw [settled_frame]

theorem settle_posted {s : State} (hv : s.volume.state = .mounted) : (settle s).posted = s.posted := by
  rw [settle_tail hv]
  obtain ⟨-, -, -, hposted, -⟩ := releaseStop_lists (drainCheck (placeBoth (topUpBoth s)))
  obtain ⟨-, -, -, hposted', -⟩ := drainCheck_lists (placeBoth (topUpBoth s))
  refine hposted.trans (hposted'.trans ?_)
  rw [settled_frame]

theorem settle_events {s : State} (hv : s.volume.state = .mounted) (ch : Channel) : ((settle s).port ch).events = (s.port ch).events := by
  obtain ⟨-, hports⟩ := settleTail_lists s
  rw [settle_tail hv, State.port, hports]
  exact settled_events s ch

end Sys2Proof.Machine
end

section
/-! PROOFS. O39: ARBITER_CHOICE on an APPEND, a MAP-STORE or a posted write, and under PROTECT. -/

namespace Sys2Proof.Machine

open Sys2Proof.Safety

/-! ## A choice that falls on a write under PROTECT (R79) -/

section Protected

variable {s : State} {c : Candidate} {dir : Direction} (ho : OrdersLawful s)
  (hc : choose s.direction (s.seq.cylinder.getD 0) s.candidates = (some c, dir))

theorem arbiterChoice_protected (ha : s.seq.access = none) (hi : s.seq.state = .idle)
    (hc : choose s.direction (s.seq.cylinder.getD 0) s.candidates = (some c, dir)) (hp : s.ownerActive .protect = true)
    (hw : s.choiceWrites c.owner = true) {n : Nat} (hlen : s.work.length + s.posted.length = n + 1) :
    exec .arbiterChoice s =
      .next (settle (chooseAndGrant (logProtected s (protectedChoices n (protectedOnce c.owner dir s))))) := by
  have hfree : s.driveFree = true := (driveFree_iff s).2 ⟨ha, hi⟩
  show execArbiterChoice s = _
  rw [execArbiterChoice, if_pos hfree, endProtectedChoices, if_pos hp, hlen, protectedChoices_succ hc hw]

/-- With no live work and no sweep, the arbiter leaves everything. -/
theorem chooseAndGrant_idle {u : State} (hu : OrdersOnce u) (hnone : u.pieces = 0) (hsw : u.sweep = none) : chooseAndGrant u = u := by
  unfold chooseAndGrant
  split
  · unfold offerSweep
    rw [hsw]
  · next c dir h =>
    obtain ⟨-, hless⟩ := protectedOnce_steps hu h
    omega

include ho hc

theorem protectedOnce_once : OrdersOnce (protectedOnce c.owner dir s) :=
  (ordersOnce_of_lawful ho).steps (protectedOnce_steps (ordersOnce_of_lawful ho) hc).1

theorem protectedOnce_pieces : (protectedOnce c.owner dir s).pieces < s.work.length + s.posted.length :=
  lt_of_lt_of_le (protectedOnce_steps (ordersOnce_of_lawful ho) hc).2 (pieces_le s)

variable {n : Nat} (hlen : s.work.length + s.posted.length = n + 1)

include hlen

/-- After the writes that PROTECT ended none is granted. -/
theorem noWriteGranted_protected :
    NoWriteGranted (logProtected s (protectedChoices n (protectedOnce c.owner dir s)))
      (chooseAndGrant (logProtected s (protectedChoices n (protectedOnce c.owner dir s)))) := by
  have honce := protectedOnce_once ho hc
  have hpieces := protectedOnce_pieces ho hc
  have hafter := honce.steps (protectedChoices_steps n honce)
  have hlast := fun c' dir' => protectedChoices_last (n := n) honce (by omega) (c := c') (dir := dir')
  rw [logProtected_frame]
  exact noWriteGranted_chooseAndGrant ⟨hafter.work, hafter.posted⟩ hlast

/-- What the choice leaves before it settles: steps of ending from the first write's end on. -/
theorem endingSteps_protected :
    EndingSteps (protectedOnce c.owner dir s)
      (chooseAndGrant (logProtected s (protectedChoices n (protectedOnce c.owner dir s)))) := by
  have hlogs : EndingSteps (protectedChoices n (protectedOnce c.owner dir s))
      (logProtected s (protectedChoices n (protectedOnce c.owner dir s))) := by
    rw [logProtected_frame]
    exact endingSteps_of_work rfl (fun _ => rfl) (fun _ _ h => h) (fun _ _ h => h)
  exact (protectedChoices_steps n (protectedOnce_once ho hc)).steps.trans (hlogs.trans (noWriteGranted_protected ho hc hlen).steps)

omit hlen in
/-- The steps to the last write's end, from before the choice. -/
theorem protectSteps_protected (n : Nat) : ProtectSteps s (protectedChoices n (protectedOnce c.owner dir s)) :=
  (protectedOnce_steps (ordersOnce_of_lawful ho) hc).1.trans (protectedChoices_steps n (protectedOnce_once ho hc))

theorem protected_volume (hv : s.volume.state = .mounted) :
    (chooseAndGrant (logProtected s (protectedChoices n (protectedOnce c.owner dir s)))).volume.state = .mounted := by
  rw [(noWriteGranted_protected ho hc hlen).volume, logProtected_frame, (protectSteps_protected ho hc n).frame]
  exact hv

theorem protected_posted :
    (chooseAndGrant (logProtected s (protectedChoices n (protectedOnce c.owner dir s)))).posted.Sublist
      (protectedOnce c.owner dir s).posted := by
  rw [(noWriteGranted_protected ho hc hlen).posted, logProtected_frame]
  exact (protectedChoices_steps n (protectedOnce_once ho hc)).posted

/-- No write is granted: the step's access, if it begins one, is the sweep's or a READ's. -/
theorem protected_access (ha : s.seq.access = none) (hv : s.volume.state = .mounted) {a : Access}
    (h : (settle (chooseAndGrant (logProtected s (protectedChoices n (protectedOnce c.owner dir s))))).seq.access = some a) :
    (∀ m, a.owner = .entry m → a.kind = .readRun) ∧ ∀ m, a.owner ≠ .posted m := by
  rw [settle_access (protected_volume ho hc hlen hv)] at h
  rcases (noWriteGranted_protected ho hc hlen).access with hsame | ⟨b, hb, howner⟩
  · rw [hsame, logProtected_frame, (protectSteps_protected ho hc n).frame] at h
    cases ha.symm.trans h
  · obtain rfl := Option.some.inj (hb.symm.trans h)
    rcases howner with hsweep | ⟨m, hentry, hkind⟩
    · exact ⟨fun m hm => (nomatch hsweep.symm.trans hm), fun m hm => (nomatch hsweep.symm.trans hm)⟩
    · exact ⟨fun _ _ => hkind, fun k hk => (nomatch hentry.symm.trans hk)⟩

/-- The entry that the choice fell on has ended WRITE-PROTECTED. -/
theorem protected_ended (hl : RepliesLawful s) {e : Entry} (he : e ∈ s.work) (hown : c.owner = .entry e.order) (hd : e.discard = false) :
    Ended e .writeProtected
      (settle (chooseAndGrant (logProtected s (protectedChoices n (protectedOnce c.owner dir s))))) := by
  have honce := ordersOnce_of_lawful ho
  have hsteps := endingSteps_protected ho hc hlen
  have hdue : DueOwn (protectedOnce c.owner dir s) := (protectedOnce_steps honce hc).1.steps.dues (dueOwn_of_lawful hl)
  have hposted := (protectedOnce_once ho hc).posted.sublist ((protected_posted ho hc hlen).map _)
  have hself : (protectedOnce c.owner dir s).entry e.order = some (e.finishedWith .writeProtected) := by
    have hend := endEntry_entry_self (s := { s with direction := dir }) (entry_of_nodup honce.work he) (code := .writeProtected)
      (by simp [Entry.leavesSilently, hd])
    rw [hown, protectedOnce_entry]
    exact (endingSteps_topUpBoth (honce.work.sublist (endEntry_orders e.order _ { s with direction := dir }))).kept _ _ hend rfl
  exact settle_ended (hsteps.nodup (protectedOnce_once ho hc).work) hposted (hsteps.dues hdue) (hsteps.kept _ _ hself rfl) rfl rfl rfl rfl

section Posted

variable (hv : s.volume.state = .mounted) {p : Posted} (hp : p ∈ s.posted) (hown : c.owner = .posted p.order)

include hp hown

omit hlen in
theorem protected_left : ∀ x ∈ (protectedChoices n (protectedOnce c.owner dir s)).posted, x.order ≠ p.order := by
  intro x hx
  have honce := (protectedChoices_steps n (protectedOnce_once ho hc)).posted.subset hx
  rw [hown] at honce
  exact protectedOnce_posted_gone ((ordersOnce_of_lawful ho).found hp) dir x honce

include hv

/-- The posted write that the choice fell on has left. -/
theorem protected_gone :
    ∀ x ∈ (settle (chooseAndGrant (logProtected s (protectedChoices n (protectedOnce c.owner dir s))))).posted, x.order ≠ p.order := by
  rw [settle_posted (protected_volume ho hc hlen hv), (noWriteGranted_protected ho hc hlen).posted, logProtected_frame]
  exact protected_left ho hc hp hown

/-- Its fault is told to its channel. -/
theorem protected_told :
    hasEvent ((settle (chooseAndGrant (logProtected s (protectedChoices n (protectedOnce c.owner dir s))))).port p.channel).events
      .postedFault = true := by
  have hnodup : (({ s with direction := dir } : State).work.map (fun e => e.order)).Nodup := (ordersOnce_of_lawful ho).work
  have hafter := endingSteps_topUpBoth ((protectSteps_leaveFaulted hnodup p).steps.nodup hnodup)
  have htold : hasEvent ((protectedOnce c.owner dir s).port p.channel).events .postedFault = true := by
    rw [hown, protectedOnce_posted ((ordersOnce_of_lawful ho).found hp)]
    exact hafter.events _ _ (leaveFaulted_event hnodup p)
  rw [settle_events (protected_volume ho hc hlen hv)]
  exact (endingSteps_protected ho hc hlen).events _ _ htold

/-- Its fault is logged or counted. -/
theorem protected_logged :
    Logged (faultEntryOf .writeProtected s.clock p)
      ((settle (chooseAndGrant (logProtected s (protectedChoices n (protectedOnce c.owner dir s))))).logs.get p.channel) := by
  have hclock : (protectedChoices n (protectedOnce c.owner dir s)).clock = s.clock := by
    rw [(protectSteps_protected ho hc n).frame]
  rw [settle_logs (protected_volume ho hc hlen hv), (noWriteGranted_protected ho hc hlen).logs]
  refine logProtected_logged hclock hp ?_
  rw [State.postedWrite, List.find?_eq_none]
  exact fun x hx heq => protected_left ho hc hp hown x hx (of_decide_eq_true heq)

end Posted

end Protected

/-! ## The only work of the unit ended by the choice under PROTECT -/

section Alone

variable {s : State} {c : Candidate} {dir : Direction} (ho : OrdersLawful s) (hl : RepliesLawful s) (hv : s.volume.state = .mounted)
  (hc : choose s.direction (s.seq.cylinder.getD 0) s.candidates = (some c, dir)) (hsw : s.sweep = none)

include ho hl hv hc hsw

theorem protected_alone_entry {e : Entry} (hown : c.owner = .entry e.order) (hwork : s.work = [e]) (hposted : s.posted = []) :
    SameButReservations (entryEnded e .writeProtected { s with direction := dir })
      (settle (chooseAndGrant (logProtected s (protectedOnce c.owner dir s)))) := by
  have hdead : ∀ x ∈ (endEntry e.order .writeProtected { s with direction := dir }).work, x.live = false := by
    intro x hx
    rcases mem_endEntry hx with ⟨hmem, hne⟩ | ⟨-, hfin⟩
    · rw [hwork] at hmem
      exact absurd (congrArg Entry.order (List.mem_singleton.1 hmem)) hne
    · simp [Entry.live, hfin]
  have hlog : ∀ u, logProtected s u = u := fun u => by
    rw [logProtected, hposted]
    rfl
  have hpieces := protectedOnce_pieces ho hc
  rw [hwork, hposted] at hpieces
  have hsweep : (protectedOnce c.owner dir s).sweep = none := by
    rw [(protectedOnce_steps (ordersOnce_of_lawful ho) hc).1.frame]
    exact hsw
  rw [hlog, chooseAndGrant_idle (protectedOnce_once ho hc) (by simpa using hpieces) hsweep, hown, protectedOnce_entry,
    topUpBoth_notLive hdead]
  have hmem : e ∈ s.work := by
    rw [hwork]
    exact List.mem_singleton.2 rfl
  exact settle_endEntry_of_sameBut (sameBut_refl { s with direction := dir }) ho hl hv hmem .writeProtected

/-- A posted write that leaves with no entry in the work list, logged after, has faulted. -/
theorem protected_alone_posted {p : Posted} (hown : c.owner = .posted p.order) (hwork : s.work = []) (hposted : s.posted = [p]) :
    SameButReservations (postedFaulted p .writeProtected { s with direction := dir })
      (settle (chooseAndGrant (logProtected s (protectedOnce c.owner dir s)))) := by
  have hfound : s.postedWrite p.order = some p := (ordersOnce_of_lawful ho).found (by rw [hposted]; exact List.mem_singleton.2 rfl)
  have htold : (postedTold p { s with direction := dir }).work = [] := by
    rw [postedTold_frame]
    exact hwork
  have hleft : leaveFaulted p { s with direction := dir } = postedLeft p (postedTold p { s with direction := dir }) := by
    have hquiet : ∀ x ∈ (postedTold p { s with direction := dir }).work, x.state ≠ .watching := by
      rw [htold]
      exact fun x hx => absurd hx List.not_mem_nil
    exact postedLeaves_quiet hquiet p true
  have hempty : ∀ x ∈ (postedLeft p (postedTold p { s with direction := dir })).work, x.live = false := by
    have hnone : (postedLeft p (postedTold p { s with direction := dir })).work = [] := htold
    rw [hnone]
    exact fun x hx => absurd hx List.not_mem_nil
  have honce : protectedOnce c.owner dir s = postedLeft p (postedTold p { s with direction := dir }) := by
    rw [hown, protectedOnce_posted hfound, hleft, topUpBoth_notLive hempty]
  have hgone : (protectedOnce c.owner dir s).postedWrite p.order = none := by
    rw [State.postedWrite, List.find?_eq_none]
    intro x hx heq
    rw [hown] at hx
    exact protectedOnce_posted_gone hfound dir x hx (of_decide_eq_true heq)
  have hlog : logProtected s (protectedOnce c.owner dir s) = logFault .writeProtected (protectedOnce c.owner dir s) p := by
    rw [logProtected, hposted, List.filter_cons_of_pos (by rw [hgone]; rfl)]
    rfl
  have hfaulted : logFault .writeProtected (protectedOnce c.owner dir s) p = postedFaulted p .writeProtected { s with direction := dir } := by
    rw [honce]
    unfold postedFaulted postedTold
    dsimp only
    split <;> rfl
  have hpieces := protectedOnce_pieces ho hc
  rw [hwork, hposted] at hpieces
  have hsweep : (protectedOnce c.owner dir s).sweep = none := by
    rw [(protectedOnce_steps (ordersOnce_of_lawful ho) hc).1.frame]
    exact hsw
  have hidle : chooseAndGrant (logProtected s (protectedOnce c.owner dir s)) = logProtected s (protectedOnce c.owner dir s) := by
    have hu := protectedOnce_once ho hc
    have hnone : (protectedOnce c.owner dir s).pieces = 0 := by simpa using hpieces
    rw [logProtected_frame]
    exact chooseAndGrant_idle ⟨hu.work, hu.posted⟩ hnone hsweep
  rw [hidle, hlog, hfaulted]
  refine settle_of_sameBut (sameBut_refl _) (postedFaulted_repliesLawful (s := { s with direction := dir }) hl p .writeProtected) ?_
  rw [postedFaulted_volume]
  exact hv

end Alone

end Sys2Proof.Machine

namespace Sys2Proof.Proofs

open Sys2Proof.Machine Sys2Proof.Safety

/-- Settles O39: the grants' rules without PROTECT; under it the rounds of `protectedChoices`, each of which leaves less live work. -/
theorem arbiterGrantsOtherWrites : Obligations.ArbiterGrantsOtherWrites := by
  intro c dir s ha hi hc ho hl hv
  refine ⟨fun e k x f hp he hown hk hslot hx hf => ?_, fun e serial hp he hown hk hvalid hlabel => ?_, fun p n hp hmem hown hk hn => ?_,
    fun p x f hp hmem hown hk hx hf => ?_, fun e hp he hown hk => ?_, fun p hp hmem hown => ?_⟩
  · exact chosen_append ha hi hc ho hl hv hp he hown hk hslot (fill_of_extent hx hf)
  · exact chosen_mapStore ha hi hc ho hl hv hp he hown hk (labelSerial_of hvalid hlabel)
  · exact chosen_posted_write ha hi hc ho hl hv hp hmem hown hk hn
  · exact chosen_posted_append ha hi hc ho hl hv hp hmem hown hk (fill_of_extent hx hf)
  · have hwrites : s.choiceWrites c.owner = true := by
      rw [hown]
      simp [State.choiceWrites, entry_of_mem ho he, hk]
    obtain ⟨n, hlen⟩ : ∃ n, s.work.length + s.posted.length = n + 1 :=
      ⟨s.work.length + s.posted.length - 1, by have := List.length_pos_of_mem he; omega⟩
    refine ⟨_, arbiterChoice_protected ha hi hc hp hwrites hlen, protected_ended ho hc hlen hl he hown,
      fun a m h => (protected_access ho hc hlen ha hv h).1 m, fun a m h => (protected_access ho hc hlen ha hv h).2 m,
      fun hwork hposted hsw => ?_⟩
    obtain rfl : n = 0 := by simpa [hwork, hposted] using hlen.symm
    exact protected_alone_entry ho hl hv hc hsw hown hwork hposted
  · have hwrites : s.choiceWrites c.owner = true := by
      rw [hown]
      rfl
    obtain ⟨n, hlen⟩ : ∃ n, s.work.length + s.posted.length = n + 1 :=
      ⟨s.work.length + s.posted.length - 1, by have := List.length_pos_of_mem hmem; omega⟩
    refine ⟨_, arbiterChoice_protected ha hi hc hp hwrites hlen, protected_gone ho hc hlen hv hmem hown,
      protected_told ho hc hlen hv hmem hown, protected_logged ho hc hlen hv hmem hown,
      fun a m h => (protected_access ho hc hlen ha hv h).1 m, fun a m h => (protected_access ho hc hlen ha hv h).2 m,
      fun hwork hposted hsw => ?_⟩
    obtain rfl : n = 0 := by simpa [hwork, hposted] using hlen.symm
    exact protected_alone_posted ho hl hv hc hsw hown hwork hposted

end Sys2Proof.Proofs
end

section
/-! PROOFS. The end of a sector of an APPEND's run and the tests of its run boundary (R22, R84, R130, R144, R146, R158). -/

namespace Sys2Proof.Machine

open Sys2Proof.Safety

/-! ## The tests of an APPEND's run boundary (R84) -/

/-- What stands when an APPEND's run is over: the laws, and the entry in the list. -/
structure AppendOver (y : Entry) (u : State) : Prop where
  orders : OrdersLawful u
  replies : RepliesLawful u
  mem : y ∈ u.work
  kind : y.kind = .append

section AppendOver

variable {u : State} {y : Entry} (h : AppendOver y u)

include h

theorem AppendOver.writes : y.kind ≠ .read := by
  rw [h.kind]
  decide

theorem AppendOver.topped : ∃ r, (topUpBoth u).entry y.order = some { y with reserved := r } :=
  sameBut_entry (sameButReservations_topUpBoth u) (entry_of_mem h.orders h.mem)

theorem settle_append_ends (hv : u.volume.state = .mounted) (code : Code) :
    SameButReservations (entryEnded y code u) (settle (endEntry y.order code u)) :=
  settle_endEntry_of_sameBut (sameBut_refl u) h.orders h.replies hv h.mem code

theorem settle_append_ends_topped (hv : u.volume.state = .mounted) (code : Code) :
    SameButReservations (entryEnded y code u) (settle (endEntry y.order code (topUpBoth u))) :=
  settle_endEntry_of_sameBut (sameButReservations_topUpBoth u) h.orders h.replies hv h.mem code

/-- An APPEND that ends with a reply has ended, whether or not a drain ends with it. -/
theorem settle_append_ended {code : Code} (hs : y.leavesSilently code = false) : Ended y code (settle (endEntry y.order code u)) := by
  have hself := endEntry_entry_self (entry_of_mem h.orders h.mem) hs
  have hn := List.nodup_append.1 h.orders.1
  refine settle_ended (hn.1.sublist (endEntry_orders y.order code u)) ?_ (dueOwn_endEntry h.replies y.order code) hself rfl rfl rfl rfl
  rw [endEntry_posted]
  exact hn.2.1

theorem appendBoundary_protected {stop : Option Stop} (hp : stop = some .protect ∨ u.ownerActive .protect = true) :
    boundaryEntry stop y.order (topUpBoth u) = endEntry y.order .writeProtected (topUpBoth u) := by
  obtain ⟨r, hr⟩ := h.topped
  have hact : (topUpBoth u).ownerActive .protect = u.ownerActive .protect := by rw [(sameButReservations_topUpBoth u).1]; rfl
  unfold boundaryEntry
  rw [hr]
  dsimp only
  rw [hact, if_pos ⟨h.writes, hp⟩]

theorem appendBoundary_stopped {stop : Option Stop} (hn : ¬ (stop = some .protect ∨ u.ownerActive .protect = true))
    (hs : stop.isSome = true ∨ u.volume.drainExpired = true) :
    boundaryEntry stop y.order (topUpBoth u) = park (.entry y.order) false (topUpBoth u) := by
  obtain ⟨r, hr⟩ := h.topped
  have hact : (topUpBoth u).ownerActive .protect = u.ownerActive .protect := by rw [(sameButReservations_topUpBoth u).1]; rfl
  have hvol : (topUpBoth u).volume = u.volume := by rw [(sameButReservations_topUpBoth u).1]
  unfold boundaryEntry
  rw [hr]
  dsimp only
  rw [hact, hvol, if_neg (fun hx => hn hx.2), if_pos (hs.imp_left (fun hx => ⟨h.writes, hx⟩))]

/-- A boundary with no stop waiting and PROTECT inactive: its second and third test. -/
theorem appendBoundary_open (hv : u.volume.state = .mounted) (hx : u.volume.drainExpired = false) (hp : ¬ u.ownerActive .protect = true) :
    boundaryEntry none y.order (topUpBoth u) =
      if ((u.settings.row (y.cls.getD .bulk)).yields && (topUpBoth u).higherWaits (y.cls.getD .bulk)) = true then
        park (.entry y.order) false (topUpBoth u)
      else if u.powerPeriod = none then grantEntry y.order (topUpBoth u) else park (.entry y.order) false (topUpBoth u) := by
  have hsame := sameButReservations_topUpBoth u
  obtain ⟨r, hr⟩ := h.topped
  have hact : (topUpBoth u).ownerActive .protect = u.ownerActive .protect := by rw [hsame.1]; rfl
  have hvol : (topUpBoth u).volume = u.volume := by rw [hsame.1]
  have hset : (topUpBoth u).settings = u.settings := by rw [hsame.1]
  have hruns : ((topUpBoth u).volumeUsable && (topUpBoth u).mayRunNow { y with reserved := r }) = true ↔ u.powerPeriod = none := by
    have hperiod : (topUpBoth u).powerPeriod = u.powerPeriod := by rw [hsame.1]
    simp [State.volumeUsable, hvol, hv, State.mayRunNow, h.kind, State.writeHold, hperiod]
  unfold boundaryEntry
  rw [hr]
  dsimp only
  rw [hact, hvol, hx, hset, if_neg (fun hb => hp (hb.2.resolve_left (by simp))), if_neg (by simp)]
  simp only [hruns]

/-- An APPEND's boundary with no stop waiting: the three tests, and the grant of its next run at the fill mark. -/
theorem atBoundary_append (hv : u.volume.state = .mounted) (hx : u.volume.drainExpired = false) :
    AtBoundary y u (settle (boundaryEntry none y.order (topUpBoth u))) := by
  have hsame := sameButReservations_topUpBoth u
  obtain ⟨r, hr⟩ := h.topped
  have hk := h.kind
  have hyields : ((u.settings.row (y.cls.getD .bulk)).yields && (topUpBoth u).higherWaits (y.cls.getD .bulk)) = true ↔
      (u.settings.row (y.cls.getD .bulk)).yields = true ∧ ∃ c ∈ (topUpBoth u).candidates, c.cls.code < (y.cls.getD .bulk).code := by
    simp [State.higherWaits]
  refine ⟨fun ⟨_, hp⟩ => ?_, fun hp hor => ?_, fun _ hread => absurd hread h.writes, fun k _ hwrite => ?_,
    fun k f hgo _ hslot hfill hroom => ?_⟩
  · rw [appendBoundary_protected h (.inr hp)]
    exact settle_append_ends_topped h hv .writeProtected
  · have hp' : ¬ u.ownerActive .protect = true := fun hact => hp ⟨h.writes, hact⟩
    have hparks : boundaryEntry none y.order (topUpBoth u) = park (.entry y.order) false (topUpBoth u) := by
      rw [appendBoundary_open h hv hx hp']
      split
      · rfl
      · next hny =>
        refine if_neg (fun hw => ?_)
        rcases hor with hy | hn
        · exact hny (hyields.2 hy)
        · exact hn ⟨fun hread => absurd hread h.writes, fun _ => hw⟩
    rw [hparks]
    exact settle_parked h.replies hv y.order
  · rw [hk] at hwrite
    cases hwrite
  · obtain ⟨hp, hny, -, hhold⟩ := hgo
    have hp' : ¬ u.ownerActive .protect = true := fun hact => hp ⟨h.writes, hact⟩
    have hmark : (topUpBoth u).fillMark k = f.mark := fillMark_of_fill (by rw [hsame.1]; exact hfill)
    have hseq : (topUpBoth u).seq = u.seq := by rw [hsame.1]
    have hgrant := grantEntry_append (s := topUpBoth u) (e := { y with reserved := r }) hr hk hslot (by rw [hmark]; exact hroom)
    rw [show ({ y with reserved := r } : Entry).order = y.order from rfl] at hgrant
    rw [appendBoundary_open h hv hx hp', if_neg (fun hb => hny (hyields.1 hb)), if_pos (hhold h.writes), hgrant, hseq, hmark, hslot]
    have hupd := sameBut_updEntry hsame y.order
      (f := fun x => { x with state := .active, deadline := none, run := some (f.mark, runLength f.mark y.remaining)
                              appendStart := some (x.appendStart.getD f.mark) })
      (g := fun x => { x with state := .active, deadline := none, run := some (f.mark, runLength f.mark y.remaining)
                              appendStart := some (x.appendStart.getD f.mark) })
      (fun _ _ => rfl)
    exact settle_of_sameBut (sameBut_withSeq hupd _) h.replies hv

end AppendOver

/-! ## The end of a sector of an APPEND's run (R22, R130) -/

theorem appendSectorEnds_full {a : Access} {s : State} {k : Slot} (hb : s.ownerBuffers a ≠ []) (hfull : a.size ≤ s.fillMark k) :
    appendSectorEnds a k s = endRun a .extentFull s := by
  rw [appendSectorEnds, if_neg (by simpa using hb), if_pos hfull]

/-- The run turned to its next sector, from an access that a passage has marked. -/
theorem midRun_turned {a c : Access} {s : State} (hstop : a.stops = []) (hx : s.volume.drainExpired = false) (hc : s.seq.access = some c)
    {m : Nat} (hturn : turned c m = turned a m) : midRun m a s = { s with seq := retried (turned a m) s.seq } := by
  have hstops : c.stops = a.stops := show (turned c m).stops = (turned a m).stops by rw [hturn]
  have hsame : midRun m a s = midRun m c s := by
    rw [midRun, midRun, nextStop_none hstop, nextStop_none (hstops.trans hstop)]
    dsimp only
    rw [hx]
    rfl
  rw [hsame, midRun_turn (nextStop_none (hstops.trans hstop)) hx hc, hturn]

section SectorEnd

variable {x : State} (ho : OrdersLawful x) (hl : RepliesLawful x) {e y : Entry} (he : e ∈ x.work) (hy : y.order = e.order)
  (hk : y.kind = .append) {a : Access} (hown : a.owner = .entry e.order) {k : Slot}

include ho hl he hy hk in
theorem appendOver_withEntry (n : Nat) : AppendOver (y.credited n) (withEntry (y.credited n) (endAccess x)) :=
  ⟨withEntry_ordersLawful (s := endAccess x) ho _, repliesLawful_congr hl (fun _ => ⟨rfl, rfl⟩),
    mem_withEntry (s := endAccess x) he hy, hk⟩

include ho he hy hown in
theorem ownerBuffers_withEntry : (withEntry y x).ownerBuffers a = y.writeBuffers := by
  have hfound := entry_of_mem (withEntry_ordersLawful ho y) (mem_withEntry he hy)
  rw [hy] at hfound
  rw [State.ownerBuffers, hown]
  dsimp only
  rw [hfound]
  rfl

include ho he hy hk hown in
/-- The last data sector: the entry ends DONE. -/
theorem appendSectorEnds_done (hb : y.writeBuffers = []) (hlast : y.done + a.done = y.count) :
    appendSectorEnds a k (withEntry y x) = endEntry (y.credited a.done).order .done (withEntry (y.credited a.done) (endAccess x)) := by
  have hcode : y.normalOutcome = .done := by rw [Entry.normalOutcome, hk]
  rw [appendSectorEnds_last k ((ownerBuffers_withEntry ho he hy hown).trans hb), credited_order, hy, ← hcode]
  exact runEnds_entry_last ho he hy hown hlast

section More

variable (hb : y.writeBuffers ≠ [])

include ho hl he hy hk hown hb

/-- The extent full with data left: EXTENT-FULL, whatever stop waits. -/
theorem append_full (hfull : a.size ≤ x.fillMark k) (hv : x.volume.state = .mounted) :
    SameButReservations (entryEnded (y.credited a.done) .extentFull (withEntry (y.credited a.done) (endAccess x)))
      (settle (appendSectorEnds a k (withEntry y x))) := by
  rw [appendSectorEnds_full (s := withEntry y x) (by rw [ownerBuffers_withEntry ho he hy hown]; exact hb) hfull, endRun_credited hy hown]
  exact settle_append_ends (appendOver_withEntry ho hl he hy hk a.done) hv .extentFull

variable (hroom : x.fillMark k < a.size)

include hroom

omit hl hk in
theorem append_more : appendSectorEnds a k (withEntry y x) =
    if x.fillMark k ≥ a.runEnd then runEnds a (withEntry y x) else midRun (x.fillMark k) a (withEntry y x) :=
  appendSectorEnds_more (by rw [ownerBuffers_withEntry ho he hy hown]; exact hb) hroom

omit hk in
/-- The run goes on at the fill mark. -/
theorem append_nextSector (hin : x.fillMark k < a.runEnd) (hv : x.volume.state = .mounted) (hu : Unstopped a x) {c : Access}
    (hc : x.seq.access = some c) (hturn : turned c (x.fillMark k) = turned a (x.fillMark k)) :
    SameButReservations { withEntry y x with seq := retried (turned a (x.fillMark k)) x.seq }
      (settle (appendSectorEnds a k (withEntry y x))) := by
  rw [append_more ho he hy hown hb hroom, if_neg (by omega), midRun_turned (s := withEntry y x) hu.1 hu.2 hc hturn]
  exact settle_of_sameBut (sameBut_refl _) (repliesLawful_congr hl (fun _ => ⟨rfl, rfl⟩)) hv

/-- The cylinder's end with no stop waiting: a run boundary. -/
theorem append_atBoundary (hend : a.runEnd ≤ x.fillMark k) (hmore : y.done + a.done < y.count) (hv : x.volume.state = .mounted)
    (hu : Unstopped a x) :
    AtBoundary (y.credited a.done) (withEntry (y.credited a.done) (endAccess x)) (settle (appendSectorEnds a k (withEntry y x))) := by
  rw [append_more ho he hy hown hb hroom, if_pos hend, runEnds_more ho he hy hown hmore, nextStop_none hu.1]
  exact atBoundary_append (appendOver_withEntry ho hl he hy hk a.done) hv hu.2

variable (hmore : x.fillMark k < a.runEnd ∨ y.done + a.done < y.count)

include hmore

omit hl hk in
/-- With data left and room in the extent the run's end is a boundary, or the run is in its middle. -/
theorem append_leads :
    (appendSectorEnds a k (withEntry y x) = runEnds a (withEntry y x) ∧ y.done + a.done < y.count)
      ∨ appendSectorEnds a k (withEntry y x) = midRun (x.fillMark k) a (withEntry y x) := by
  rw [append_more ho he hy hown hb hroom]
  by_cases hend : x.fillMark k ≥ a.runEnd
  · exact .inl ⟨if_pos hend, hmore.resolve_left (by omega)⟩
  · exact .inr (if_neg hend)

/-- A stop that waits is taken at the sector's end (R144, R146). -/
theorem append_stopped (hak : a.kind = .appendRun) (hv : x.volume.state = .mounted) :
    EntryStopped a (y.credited a.done) (withEntry (y.credited a.done) (endAccess x)) (settle (appendSectorEnds a k (withEntry y x))) := by
  have h := appendOver_withEntry ho hl he hy hk a.done
  refine ⟨fun hw => ?_, fun hw hp => ?_⟩
  · rcases append_leads ho he hy hown hb hroom hmore with ⟨hruns, hleft⟩ | hmid
    · rw [hruns, runEnds_more ho he hy hown hleft, nextStop_protect hw, appendBoundary_protected h (.inl rfl)]
      exact settle_append_ends_topped h hv .writeProtected
    · rw [hmid, midRun_protect (.inr hak) hw, endRun_credited hy hown]
      exact settle_append_ends h hv .writeProtected
  · rcases append_leads ho he hy hown hb hroom hmore with ⟨hruns, hleft⟩ | hmid
    · rw [hruns, runEnds_more ho he hy hown hleft, nextStop_power hw,
        appendBoundary_stopped h (stop := some .power) (fun hb => hb.elim (by simp) (by simp [hp])) (.inl rfl)]
      exact settle_parked h.replies hv _
    · rw [hmid, midRun_power hw, stopRun_withEntry hy hown]
      exact settle_parked_self h.replies hv _

/-- Under an expired drain timer the run stops at the sector's end, and the drain ends (R158). -/
theorem append_drained (hd : DrainWaitsInWrite a x) :
    DrainEnded (withEntry (y.credited a.done) (endAccess x)) (settle (appendSectorEnds a k (withEntry y x))) := by
  obtain ⟨⟨hstop, hv, hx⟩, hp⟩ := hd
  have h := appendOver_withEntry ho hl he hy hk a.done
  rcases append_leads ho he hy hown hb hroom hmore with ⟨hruns, hleft⟩ | hmid
  · have hp' : ¬ (withEntry (y.credited a.done) (endAccess x)).ownerActive .protect = true := fun hact =>
      Bool.false_ne_true (hp.symm.trans hact)
    rw [hruns, runEnds_more ho he hy hown hleft, nextStop_none hstop,
      appendBoundary_stopped h (fun hb => hb.elim (by simp) hp') (.inr hx)]
    exact drainEnded_park (u := withEntry (y.credited a.done) (endAccess x)) (sameButReservations_topUpBoth _) rfl hv hx h.orders h.replies
      _ _
  · rw [hmid, midRun_drain hstop (s := withEntry y x) hx, stopRun_withEntry hy hown]
    exact drainEnded_park (u := withEntry (y.credited a.done) (endAccess x)) (sameBut_refl _) rfl hv hx h.orders h.replies _ _

end More

end SectorEnd

end Sys2Proof.Machine
end

section
/-! PROOFS. The steps of an APPEND's sector write up to what its end leads to: the DATA phase, the read-back, the VOID marking and its check
(R122, R124, R127 to R131). -/

namespace Sys2Proof.Machine

open Sys2Proof.Safety

/-! ## The address check, noted (R122) -/

/-- The access once the header of a passage has been checked: a passed check is noted for its sector. -/
def Access.checked (h : HeaderImage) (a : Access) : Access :=
  { a with checkPassed := if AddressRight a h then true else a.checkPassed }

theorem noteCheck_eq {s : State} {a : Access} (ha : s.seq.access = some a) (h : HeaderImage) :
    noteCheck (checkAddress a h) s = { s with seq := { headerSeen a h s.seq with access := some (a.checked h) } } := by
  by_cases hr : AddressRight a h
  · have hchecked : a.checked h = { a with checkPassed := true } := by rw [Access.checked, if_pos hr]
    rw [checkAddress_of_right hr, headerSeen, if_pos hr, hchecked]
    simp only [noteCheck, updAccess, updSeq, ha, Option.map_some]
  · have hchecked : a.checked h = a := by rw [Access.checked, if_neg hr]
    rw [noteCheck_not_right hr, hchecked, ← ha]
    rfl

theorem headerSeen_right {a : Access} {h : HeaderImage} (hr : AddressRight a h) (q : Sequencer) :
    headerSeen a h q = { q with mismatches := 0 } := by
  rw [headerSeen, if_pos hr]

/-- A header at which the address check does not pass is a mismatch or a header failure. -/
theorem checkAddress_not_right {a : Access} {h : HeaderImage} (hr : ¬ AddressRight a h) :
    checkAddress a h = .mismatch
      ∨ (checkAddress a h = .headerFailure ∧ h.check ≠ headerCheck h.cylinder h.head h.sector h.state) := by
  by_cases hw : AddressWrong a h
  · exact .inl (checkAddress_of_wrong hw)
  · have hbad : h.check ≠ headerCheck h.cylinder h.head h.sector h.state := fun hc => hw ⟨hc, fun haddr => hr ⟨hc, haddr⟩⟩
    exact .inr ⟨checkAddress_of_unreadable hbad, hbad⟩

/-! ## Fill fields changed -/

theorem updFill_congr {s : State} {k : Slot} {x : Extent} {f : Fill} (hx : s.extent k = some x) (hf : x.fill = some f)
    {g h : Fill → Fill} (heq : g f = h f) : updFill k g s = updFill k h s := by
  have hget : s.extents.get k = some x := hx
  unfold updFill updExtent
  rw [hget]
  simp only [Option.map_some, hf, heq]

theorem fillMark_updFill {s : State} {k : Slot} {x : Extent} {f : Fill} (hx : s.extent k = some x) (hf : x.fill = some f)
    (g : Fill → Fill) : (updFill k g s).fillMark k = (g f).mark := by
  have hext : (updFill k g s).extent k = some { x with fill := some (g f) } := by
    rw [updFill, updExtent_extent, if_pos rfl, hx, Option.map_some, hf]
    rfl
  exact fillMark_eq hext rfl

/-! ## A data sector of an entry's APPEND counts (R99, R127, R130) -/

/-- A data sector counted in the fill state and the sequencer, its access as the passage has left it. -/
def appendCounted (k : Slot) (c : Access) (s : State) : State :=
  { lowerPending k 1 s with seq := { s.seq with access := some { c with done := c.done + 1 } } }

theorem writeCounts_appendEntry {s : State} (ho : OrdersLawful s) {e : Entry} (he : e ∈ s.work) {a c : Access}
    (hc : s.seq.access = some c) (hk : a.kind = .appendRun) {k : Slot} (hslot : a.slot = some k) (hown : a.owner = .entry e.order)
    {ws : List Word} {rest : List (List Word)} (hb : e.writeBuffers = ws :: rest) :
    writeCounts a s =
      appendSectorEnds { a with done := a.done + 1 } k (withEntry { e with writeBuffers := rest } (appendCounted k c s)) := by
  have happend : writeCounts a s = withSlot a (countAppended a) s := by
    unfold writeCounts
    rw [hk]
  have hslotted : withSlot a (countAppended a) s = countAppended a k s := by rw [withSlot, hslot]
  have hmove : updAccess (fun x => { x with done := x.done + 1 }) (lowerPending k 1 (withEntry { e with writeBuffers := rest } s)) =
      withEntry { e with writeBuffers := rest } (appendCounted k c s) := by
    rw [updAccess, updSeq, show (lowerPending k 1 (withEntry { e with writeBuffers := rest } s)).seq = s.seq from rfl, hc]
    rfl
  rw [happend, hslotted, countAppended, sectorDropped ho he hown hb, hmove]

theorem fillMark_appendCounted {s : State} {k : Slot} {x : Extent} {f : Fill} (hx : s.extent k = some x) (hf : x.fill = some f)
    (c : Access) : (appendCounted k c s).fillMark k = f.mark :=
  fillMark_updFill hx hf (fun g => { g with pending := g.pending - 1 })

/-- The sequencer's passages of an APPEND's sector: what the step of each says of the access and its entry. -/
structure AppendAt (a : Access) (k : Slot) (e : Entry) (s : State) : Prop where
  orders : OrdersLawful s
  replies : RepliesLawful s
  mem : e ∈ s.work
  entry : e.kind = .append
  transferring : s.seq.state = .transferring
  access : s.seq.access = some a
  kind : a.kind = .appendRun
  slot : a.slot = some k
  owner : a.owner = .entry e.order

section Passages

variable {a : Access} {k : Slot} {e : Entry} {s : State} (w : AppendAt a k e s)

include w

theorem AppendAt.buffers : s.ownerBuffers a = e.writeBuffers := by
  rw [State.ownerBuffers, w.owner]
  dsimp only
  rw [entry_of_mem w.orders w.mem]
  rfl

/-- DATA_PHASE_COMPLETE of a data sector without verify, up to what the sector's end leads to. -/
theorem dataPhase_append (hph : s.seq.phase = .data) (hp : a.pass = .work) (hv : a.verify = false) (hplace : placeOf a < 7680)
    {ws : List Word} {rest : List (List Word)} (hb : e.writeBuffers = ws :: rest) :
    exec .dataPhaseComplete s = .next (settle (appendSectorEnds a.counted k
      (withEntry { e with writeBuffers := rest } (appendCounted k { a with checkPassed := true, tornResume := false } (dataPut ws a s))))) := by
  rw [dataPhase_counts w.transferring hph w.access hp (.inr w.kind) hplace (w.buffers.trans hb) hv]
  rw [writeCounts_appendEntry (s := dataPut ws a s) w.orders w.mem (a := { a with checkPassed := true, tornResume := false }) rfl w.kind
    w.slot w.owner hb]

/-- The DATA phase of a VOID marking: the sector is VOID with a data field of zeros, and the marking check is next (R131). -/
theorem dataPhase_marking (hph : s.seq.phase = .data) (hp : a.pass = .marking) (hplace : placeOf a < 7680) :
    exec .dataPhaseComplete s = .next
      { s with
        medium := mediumSet (placeOf a)
          { header := .whole (headerOn (placeOf a) .void), data := .whole (List.replicate 256 0) (crc (List.replicate 256 0)) } s.medium
        seq := retried { a with checkPassed := true, tornResume := false, pass := .markCheck }
          { s.seq with gate := false, phase := .none } } := by
  have hwords : s.writeData a = List.replicate 256 0 := by
    rw [State.writeData, if_pos (.inl hp)]
    exact Vector.toList_replicate
  have hhead : a.headerWritten = .void := by rw [Access.headerWritten, if_pos hp]
  have hput : ∀ st d, putData a.address st d s =
      { s with medium := mediumSet (placeOf a) { header := .whole (headerOn (placeOf a) st), data := d } s.medium } :=
    fun _ _ => if_pos hplace
  have hwritten : dataWritten a s =
      { s with
        medium := mediumSet (placeOf a)
          { header := .whole (headerOn (placeOf a) .void), data := .whole (List.replicate 256 0) (crc (List.replicate 256 0)) } s.medium
        seq := { s.seq with gate := false, phase := .none, access := some { a with checkPassed := true, tornResume := false } } } := by
    unfold dataWritten
    rw [hwords, hhead, hput]
    simp only [updAccess, updSeq, w.access, Option.map_some]
    rfl
  show execDataPhaseComplete s = _
  rw [execDataPhaseComplete, inPhase_eq w.transferring hph w.access]
  dsimp only
  rw [hwritten, afterData, if_pos hp,
    nextPassage_eq_retried (a := { a with checkPassed := true, tornResume := false, pass := .markCheck }) rfl]
  rfl

/-! ## The read-back (R128) -/

/-- The state once the header of a passage has been checked. -/
def State.checkedBy (a : Access) (h : HeaderImage) (s : State) : State :=
  { s with seq := { headerSeen a h s.seq with access := some (a.checked h) } }

omit w in
theorem readBackPasses_iff {h : HeaderImage} {g : FieldImage} (hk : a.kind = .appendRun) :
    readBackPasses a h g s = true ↔
      AddressRight a h ∧ h.state = .written ∧ g.check = crc g.data.toList ∧ g.data.toList = s.writeData a := by
  by_cases hr : AddressRight a h
  · rw [readBackPasses, checkAddress_of_right hr]
    simp [hk, hr, fieldGood, and_assoc]
  · rcases checkAddress_not_right hr with hc | ⟨hc, -⟩ <;> simp [readBackPasses, hc, hr]

theorem AppendAt.words (hp : a.pass = .readBack) {ws : List Word} {rest : List (List Word)} (hb : e.writeBuffers = ws :: rest) :
    s.writeData a = ws := by
  rw [State.writeData, if_neg (by simp [hp, w.kind]), if_neg (by simp [w.kind]), w.buffers, hb]
  rfl

theorem readBack_eq (hph : s.seq.phase = .readBack) (h : HeaderImage) (g : FieldImage) :
    exec (.readBackComplete h g) s = .next (settle (if readBackPasses a h g (s.checkedBy a h) then writeCounts a (s.checkedBy a h)
      else readBackFails a (s.checkedBy a h))) := by
  show execReadBackComplete h g s = _
  rw [execReadBackComplete, inPhase_eq w.transferring hph w.access]
  dsimp only
  rw [noteCheck_eq w.access]
  rfl

/-- READ_BACK_COMPLETE that passes, up to what the sector's end leads to. -/
theorem readBack_append (hph : s.seq.phase = .readBack) (hp : a.pass = .readBack) {ws : List Word} {rest : List (List Word)}
    (hb : e.writeBuffers = ws :: rest) {h : HeaderImage} {g : FieldImage} (hr : AddressRight a h) (hst : h.state = .written)
    (hcrc : g.check = crc g.data.toList) (hws : g.data.toList = ws) :
    exec (.readBackComplete h g) s = .next (settle (appendSectorEnds { a with done := a.done + 1 } k
      (withEntry { e with writeBuffers := rest } (appendCounted k (a.checked h) (s.checkedBy a h))))) := by
  have hpasses : readBackPasses a h g (s.checkedBy a h) = true :=
    (readBackPasses_iff w.kind).2 ⟨hr, hst, hcrc, hws.trans (w.words hp hb).symm⟩
  rw [readBack_eq w hph, if_pos hpasses,
    writeCounts_appendEntry (s := s.checkedBy a h) w.orders w.mem (c := a.checked h) rfl w.kind w.slot w.owner hb]

/-! ## The last failure of a data sector's write (R129, R131) -/

omit w in
theorem defectRecorded_access (cause : DefectCause) (clock : Millis) (x : Option Access) (q : Sequencer) :
    defectRecorded a cause clock { q with access := x } = { defectRecorded a cause clock q with access := x } := by
  unfold defectRecorded
  dsimp only
  split
  · rfl
  · split
    · rfl
    · split <;> rfl

omit w in
theorem retried_defectRecorded (b : Access) (cause : DefectCause) (clock : Millis) (x : Option Access) (q : Sequencer) :
    retried b (defectRecorded a cause clock { q with access := x }) = retried b (defectRecorded a cause clock q) := by
  rw [defectRecorded_access, retried_access]

/-- The failed attempt counted and the write failed: the access as its marking begins. -/
def Access.failedLast (c : Access) : Access := { c with failed := c.failed + 1, further := false, pass := .marking }

omit w in
/-- An APPEND's data sector whose write has failed is recorded, and its marking is next. -/
theorem writeFails_append (hk : a.kind = .appendRun) (cause : DefectCause) (c : Access) (t : State) :
    writeFails a cause { t with seq := { t.seq with access := some c } } =
      { t with seq := retried { c with pass := .marking } (defectRecorded a cause t.clock t.seq) } := by
  have hac : (updAccess (fun x => { x with pass := .marking })
      { t with seq := { defectRecorded a cause t.clock t.seq with access := some c } }).seq.access = some { c with pass := .marking } := rfl
  unfold writeFails
  rw [recordDefect_eq, defectRecorded_access]
  dsimp only
  rw [hk]
  dsimp only
  rw [nextPassage_eq_retried hac]
  exact congrArg (fun q => { t with seq := q }) (retried_access _ _ _)

omit w in
theorem readBackFails_last (hk : a.kind = .appendRun) {t : State} {c : Access} (hc : t.seq.access = some c)
    (hlast : t.writeRetries a ≤ a.failed) :
    readBackFails a t =
      { t with
        seq := retried c.failedLast (defectRecorded a (if a.further = true then .header else .write) t.clock t.seq) } := by
  have hcount : updAccess (fun x => { x with pass := .work }) (countFailure false t) =
      { t with seq := { t.seq with access := some { c with failed := c.failed + 1, further := false, pass := .work } } } := by
    simp only [countFailure, updAccess, updSeq, hc, Option.map_some]
  unfold readBackFails
  dsimp only
  rw [if_neg (by omega), hcount, writeFails_append hk]
  rfl

omit w in
theorem checkFails_last (hk : a.kind = .appendRun) (hp : a.pass = .work) {t : State} (ha : t.seq.access = some a)
    (hfurther : a.further = true) (hlast : t.writeRetries a ≤ a.failed) :
    checkFails a t = { t with seq := retried a.failedLast (defectRecorded a .header t.clock t.seq) } := by
  have hcount : countFailure false t =
      { t with seq := { t.seq with access := some { a with failed := a.failed + 1, further := false } } } := by
    simp only [countFailure, updAccess, updSeq, ha, Option.map_some]
  have hwrites : a.kind.writes = true := by
    rw [hk]
    rfl
  unfold checkFails
  rw [hp]
  dsimp only
  rw [if_pos hwrites, checkAttemptFails, if_neg (by omega), if_pos hfurther, hcount, writeFails_append hk]
  rfl

/-- READ_BACK_COMPLETE that fails at the last attempt. -/
theorem readBack_failsLast (hph : s.seq.phase = .readBack) (hp : a.pass = .readBack) (hlast : s.writeRetries a ≤ a.failed)
    {ws : List Word} {rest : List (List Word)} (hb : e.writeBuffers = ws :: rest) {h : HeaderImage} {g : FieldImage}
    (hno : ¬ (AddressRight a h ∧ h.state = .written ∧ g.check = crc g.data.toList ∧ g.data.toList = ws)) :
    exec (.readBackComplete h g) s = .next (settle
      { s with
        seq := retried (a.checked h).failedLast
          (defectRecorded a (if a.further = true then .header else .write) s.clock (headerSeen a h s.seq)) }) := by
  have hwords : (s.checkedBy a h).writeData a = ws := w.words hp hb
  have hfails : ¬ readBackPasses a h g (s.checkedBy a h) = true := fun hpass => hno (by
    rw [readBackPasses_iff w.kind, hwords] at hpass
    exact hpass)
  have hq := retried_defectRecorded (a := a) (a.checked h).failedLast (if a.further = true then .header else .write) s.clock
    (some (a.checked h)) (headerSeen a h s.seq)
  rw [readBack_eq w hph, if_neg hfails, readBackFails_last (t := s.checkedBy a h) w.kind rfl hlast, ← hq]
  rfl

omit w in
/-- A check that fails, whose header failure is not waived, is a failed attempt. -/
theorem headerChecked_fails (hp : a.pass = .work) {h : HeaderImage} (hr : ¬ AddressRight a h)
    (hnot : AddressWrong a h ∨ a.waives = false) (t : State) : headerChecked a (checkAddress a h) t = settle (checkFails a t) := by
  unfold headerChecked
  rw [hp]
  rcases checkAddress_not_right hr with hc | ⟨hc, -⟩
  · rw [hc]
  · rw [hc]
    dsimp only
    rcases hnot with hwrong | hnone
    · rw [checkAddress_of_wrong hwrong] at hc
      cases hc
    · rw [hnone, Bool.and_false]
      rfl

/-- HEADER_READ_COMPLETE of a data sector's write at which the one further attempt's check fails. -/
theorem header_failsLast (hph : s.seq.phase = .headerCheck) (hp : a.pass = .work) (hfurther : a.further = true)
    (hlast : s.writeRetries a ≤ a.failed) {h : HeaderImage} (hr : ¬ AddressRight a h) (hnot : AddressWrong a h ∨ a.waives = false) :
    exec (.headerReadComplete h) s = .next (settle
      { s with seq := retried a.failedLast (defectRecorded a .header s.clock (headerSeen a h s.seq)) }) := by
  show execHeaderReadComplete h s = _
  rw [execHeaderReadComplete, inPhase_eq w.transferring hph w.access]
  dsimp only
  rw [noteCheck_not_right hr, headerChecked_fails hp hr hnot,
    checkFails_last (t := { s with seq := headerSeen a h s.seq }) w.kind hp w.access hfurther hlast]

end Passages

end Sys2Proof.Machine
end

section
/-! PROOFS. A VOID marking that succeeds or fails, and the APPENDs of its extent that a failed one ends (R23, R131). -/

namespace Sys2Proof.Machine

open Sys2Proof.Safety

/-! ## A fill state that becomes UNKNOWN, with other APPENDs on the extent (R23) -/

theorem foldl_faultPosted {l : List Posted} {cause : Code} {u : State} (hv : u.volume.state = .mounted) :
    l.foldl (fun s p => faultPosted p.order cause s) u = faultAll (l.map (fun p => p.order)) cause u := by
  induction l generalizing u with
  | nil => rfl
  | cons p l ih =>
    have hone : faultPosted p.order cause u = faultOne p.order cause u := by
      rw [faultPosted, if_neg (by simp [drainEnding_mounted hv])]
    have hvol : (faultOne p.order cause u).volume = u.volume :=
      show (faultAll [p.order] cause u).volume = u.volume by rw [faultAll_frame]
    rw [List.foldl_cons, hone, ih (by rw [hvol]; exact hv)]
    rfl

/-- The orders of the APPENDs in the work list that a fill state's becoming UNKNOWN ends. -/
def State.waitingAppends (s : State) (k : Slot) : List Nat :=
  (s.work.filter (fun e => e.kind = .append ∧ e.slot = some k ∧ (e.state = .queued ∨ e.state = .parked))).map (fun e => e.order)

/-- The orders of the posted ones that it faults. -/
def State.pendingAppends (s : State) (k : Slot) : List Nat :=
  (s.posted.filter (fun p => p.kind = .append ∧ p.slot = k ∧ p.committing = false)).map (fun p => p.order)

theorem fillBecomesUnknown_eq {v : State} (hv : v.volume.state = .mounted) (k : Slot) :
    fillBecomesUnknown k v =
      faultAll (v.pendingAppends k) .fillUnknown
        (endEntries (v.waitingAppends k) .fillUnknown (updFill k (fun f => { f with state := .unknown }) v)) := by
  refine foldl_faultPosted ?_
  rw [endEntries_frame]
  exact hv

theorem faultOne_posted (n : Nat) (cause : Code) (u : State) : (faultOne n cause u).posted = u.posted.filter (fun x => x.order ≠ n) := by
  cases hp : u.postedWrite n with
  | none =>
    rw [faultOne_none hp, eq_comm, List.filter_eq_self]
    intro x hx
    have hne := List.find?_eq_none.1 hp x hx
    simpa using hne
  | some p =>
    obtain rfl := posted_order_of_find hp
    rw [faultOne_frame hp]

theorem faultAll_posted_sublist (ns : List Nat) (cause : Code) (u : State) : (faultAll ns cause u).posted.Sublist u.posted := by
  induction ns generalizing u with
  | nil => exact List.Sublist.refl _
  | cons n ns ih =>
    have hone : (faultOne n cause u).posted.Sublist u.posted := by
      rw [faultOne_posted]
      exact List.filter_sublist
    exact (ih (faultOne n cause u)).trans hone

theorem faultAll_gone {ns : List Nat} {n : Nat} (hn : n ∈ ns) (cause : Code) (u : State) :
    ∀ x ∈ (faultAll ns cause u).posted, x.order ≠ n := by
  induction ns generalizing u with
  | nil => exact absurd hn List.not_mem_nil
  | cons m ns ih =>
    rcases List.mem_cons.1 hn with rfl | hin
    · intro x hx
      have hx' := (faultAll_posted_sublist ns cause (faultOne n cause u)).subset hx
      rw [faultOne_posted] at hx'
      exact of_decide_eq_true (List.mem_filter.1 hx').2
    · exact ih hin (faultOne m cause u)

section Unknown

variable {v : State} (hn : (v.work.map (fun e => e.order)).Nodup) (hv : v.volume.state = .mounted) (k : Slot)

include hn in
theorem waitingAppends_nodup : (v.waitingAppends k).Nodup := hn.sublist (List.filter_sublist.map _)

theorem mem_waitingAppends {z : Entry} (hz : z ∈ v.work) (hk : z.kind = .append) (hslot : z.slot = some k)
    (hst : z.state = .queued ∨ z.state = .parked) : z.order ∈ v.waitingAppends k :=
  List.mem_map_of_mem (f := fun e : Entry => e.order) (List.mem_filter.2 ⟨hz, decide_eq_true ⟨hk, hslot, hst⟩⟩)

include hn in
theorem endingSteps_waiting :
    EndingSteps v (endEntries (v.waitingAppends k) .fillUnknown (updFill k (fun f => { f with state := .unknown }) v)) := by
  have hfill : EndingSteps v (updFill k (fun f => { f with state := .unknown }) v) :=
    endingSteps_of_work rfl (fun _ => rfl) (fun _ _ h => h) (fun _ _ h => h)
  refine hfill.trans (endingSteps_endEntries (waitingAppends_nodup hn k) (fun m hm x hx hfin => ?_) .fillUnknown)
  obtain ⟨y, hy, hym⟩ := List.mem_map.1 hm
  obtain ⟨hyw, hyst⟩ := List.mem_filter.1 hy
  obtain ⟨-, -, hst⟩ := of_decide_eq_true hyst
  obtain rfl : y = x := eq_of_order hn hyw (mem_of_entry hx) (hym.trans (entry_order hx).symm)
  rw [hfin] at hst
  simp at hst

include hn hv in
theorem endingSteps_fillUnknown : EndingSteps v (fillBecomesUnknown k v) := by
  have hsteps := endingSteps_waiting hn k
  rw [fillBecomesUnknown_eq hv]
  exact hsteps.trans (endingSteps_faultAll _ (hsteps.nodup hn) .fillUnknown)

include hn hv in
/-- An APPEND that waits ends FILL-UNKNOWN. -/
theorem fillUnknown_entry {z : Entry} (hz : z ∈ v.work) (hk : z.kind = .append) (hslot : z.slot = some k)
    (hst : z.state = .queued ∨ z.state = .parked) (hd : z.discard = false) :
    (fillBecomesUnknown k v).entry z.order = some (z.finishedWith .fillUnknown) := by
  have hended := endEntries_entry_mem (s := updFill k (fun f => { f with state := .unknown }) v) (waitingAppends_nodup hn k)
    (mem_waitingAppends k hz hk hslot hst) (entry_of_nodup hn hz) (code := .fillUnknown) (by simp [Entry.leavesSilently, hd])
  rw [fillBecomesUnknown_eq hv]
  exact (endingSteps_faultAll _ ((endingSteps_waiting hn k).nodup hn) .fillUnknown).kept _ _ hended rfl

include hv in
theorem fillUnknown_posted_sublist : (fillBecomesUnknown k v).posted.Sublist v.posted := by
  have hsub := faultAll_posted_sublist (v.pendingAppends k) .fillUnknown
    (endEntries (v.waitingAppends k) .fillUnknown (updFill k (fun f => { f with state := .unknown }) v))
  rw [fillBecomesUnknown_eq hv]
  rw [endEntries_frame] at hsub ⊢
  exact hsub

include hv in
/-- A posted APPEND that is pending leaves. -/
theorem fillUnknown_gone {p : Posted} (hp : p ∈ v.posted) (hk : p.kind = .append) (hslot : p.slot = k) (hc : p.committing = false) :
    ∀ x ∈ (fillBecomesUnknown k v).posted, x.order ≠ p.order := by
  rw [fillBecomesUnknown_eq hv]
  exact faultAll_gone (List.mem_map_of_mem (f := fun p : Posted => p.order)
    (List.mem_filter.2 ⟨hp, decide_eq_true ⟨hk, hslot, hc⟩⟩)) .fillUnknown _

include hv in
theorem fillUnknown_volume : (fillBecomesUnknown k v).volume.state = .mounted := by
  rw [fillBecomesUnknown_eq hv, faultAll_frame, endEntries_frame]
  exact hv

end Unknown

/-! ## The marking's failure (R131) -/

/-- The state with the run of a failed marking over: its sector recorded, the drive and the controller buffer free. -/
def markingOver (a : Access) (cause : DefectCause) (h : HeaderImage) (s : State) : State :=
  { s with ctlBuffer := .free, seq := ended (defectRecorded a cause s.clock (headerSeen a h s.seq)) }

/-- The entry of an APPEND whose marking has failed, its data sector's condition reported and its run's sectors credited. -/
def Entry.markingLost (n : Nat) (e : Entry) : Entry := (e.reporting .mediumError).credited n

section Marking

variable {a : Access} {k : Slot} {e : Entry} {s : State} (w : AppendAt a k e s)

include w

theorem markingFails_eq (cause : DefectCause) (h : HeaderImage) :
    markingFails a cause k (s.checkedBy a h) =
      fillBecomesUnknown k (endEntry e.order .mediumError (withEntry (e.markingLost a.done) (markingOver a cause h s))) := by
  have hrecord : recordDefect a.cylinder (headOf a.sector) (sectorOf a.sector) cause (s.checkedBy a h) =
      { s with seq := { defectRecorded a cause s.clock (headerSeen a h s.seq) with access := some (a.checked h) } } := by
    rw [recordDefect_eq]
    exact congrArg (fun q => { s with seq := q }) (defectRecorded_access cause s.clock _ _)
  have hreport := reportSector_append (a := a)
    (s := { s with seq := { defectRecorded a cause s.clock (headerSeen a h s.seq) with access := some (a.checked h) } })
    w.orders w.mem w.entry w.owner .mediumError
  unfold markingFails
  rw [hrecord]
  dsimp only
  rw [hreport, endRun_withEntry (y := e.reporting .mediumError) w.owner rfl]
  rfl

theorem header_checkFails (hph : s.seq.phase = .headerCheck) {cause : DefectCause} {h : HeaderImage}
    (hcheck : ∀ t, headerChecked a (checkAddress a h) t = settle (withSlot a (markingFails a cause) t)) :
    exec (.headerReadComplete h) s = .next (settle (fillBecomesUnknown k
      (endEntry e.order .mediumError (withEntry (e.markingLost a.done) (markingOver a cause h s))))) := by
  show execHeaderReadComplete h s = _
  rw [execHeaderReadComplete, inPhase_eq w.transferring hph w.access]
  dsimp only
  rw [noteCheck_eq w.access, hcheck, withSlot, w.slot]
  exact congrArg (fun t => Host.Outcome.next (settle t)) (markingFails_eq w cause h)

omit w in
/-- A marking write whose check fails is a failed marking, with cause HEADER. -/
theorem headerChecked_marking (hp : a.pass = .marking) {h : HeaderImage} (hr : ¬ AddressRight a h)
    (hnot : AddressWrong a h ∨ a.checkPassed = false) (t : State) :
    headerChecked a (checkAddress a h) t = settle (withSlot a (markingFails a .header) t) := by
  have hfails : checkFails a t = withSlot a (markingFails a .header) t := by
    unfold checkFails
    rw [hp]
  rw [← hfails]
  unfold headerChecked
  rw [hp]
  rcases checkAddress_not_right hr with hc | ⟨hc, -⟩
  · rw [hc]
  · rw [hc]
    dsimp only
    rcases hnot with hwrong | hnone
    · rw [checkAddress_of_wrong hwrong] at hc
      cases hc
    · rw [hnone]
      rfl

omit w in
/-- A marking check that does not find the sector VOID is a failed marking, with cause WRITE. -/
theorem headerChecked_markCheck (hp : a.pass = .markCheck) {h : HeaderImage} (hno : ¬ (AddressRight a h ∧ h.state = .void)) (t : State) :
    headerChecked a (checkAddress a h) t = settle (withSlot a (markingFails a .write) t) := by
  have hfails : checkFails a t = withSlot a (markingFails a .write) t := by
    unfold checkFails
    rw [hp]
  rw [← hfails]
  unfold headerChecked
  rw [hp]
  by_cases hr : AddressRight a h
  · rw [checkAddress_of_right hr]
    cases hst : h.state with
    | void => exact absurd ⟨hr, hst⟩ hno
    | blank => rfl
    | written => rfl
  · rcases checkAddress_not_right hr with hc | ⟨hc, -⟩
    · rw [hc]
    · rw [hc]

/-- A failed marking with no other APPEND on the extent, as the settled step leaves it. -/
theorem settle_marking_alone (hv : s.volume.state = .mounted) (cause : DefectCause) (h : HeaderImage)
    (hone : ∀ z ∈ s.work, z.kind = .append → z.slot = some k → z.order = e.order)
    (hp : ∀ p ∈ s.posted, ¬ (p.kind = .append ∧ p.slot = k)) :
    SameButReservations
      (updFill k (fun g => { g with state := .unknown })
        (entryEnded (e.markingLost a.done) .mediumError (withEntry (e.markingLost a.done) (markingOver a cause h s))))
      (settle (fillBecomesUnknown k
        (endEntry e.order .mediumError (withEntry (e.markingLost a.done) (markingOver a cause h s))))) :=
  settle_unknown_end (s := markingOver a cause h s) w.orders w.replies hv w.mem (y := e.markingLost a.done) rfl hone hp id .mediumError

/-- A failed marking ends every other APPEND that waits on the extent FILL-UNKNOWN, and faults every one pending (R23). -/
theorem settle_marking_others (hv : s.volume.state = .mounted) (cause : DefectCause) (h : HeaderImage) {t : State}
    (ht : t = settle (fillBecomesUnknown k
      (endEntry e.order .mediumError (withEntry (e.markingLost a.done) (markingOver a cause h s))))) :
    (∀ z ∈ s.work, z.kind = .append → z.slot = some k → z.order ≠ e.order → z.state = .queued ∨ z.state = .parked → z.discard = false →
        Ended z .fillUnknown t)
      ∧ ∀ p ∈ s.posted, p.kind = .append → p.slot = k → p.committing = false → ∀ z ∈ t.posted, z.order ≠ p.order := by
  have hplaced : OrdersLawful (withEntry (e.markingLost a.done) (markingOver a cause h s)) :=
    withEntry_ordersLawful (s := markingOver a cause h s) w.orders _
  have hreplies : RepliesLawful (withEntry (e.markingLost a.done) (markingOver a cause h s)) := w.replies
  have hdue := dueOwn_endEntry hreplies e.order .mediumError
  have hnodup := (List.nodup_append.1 hplaced.1).1.sublist (endEntry_orders e.order .mediumError _)
  have hposted := endEntry_posted e.order .mediumError (withEntry (e.markingLost a.done) (markingOver a cause h s))
  have hvol : (endEntry e.order .mediumError (withEntry (e.markingLost a.done) (markingOver a cause h s))).volume.state = .mounted := by
    rw [endEntry_frame]
    exact hv
  have hother : ∀ z ∈ s.work, z.order ≠ e.order →
      z ∈ (endEntry e.order .mediumError (withEntry (e.markingLost a.done) (markingOver a cause h s))).work := by
    intro z hz hne
    have hkept : z ∈ (withEntry (e.markingLost a.done) (markingOver a cause h s)).work := List.mem_map.2 ⟨z, hz, if_neg hne⟩
    refine mem_of_entry (n := z.order) ?_
    rw [endEntry_entry_ne hne]
    exact entry_of_mem hplaced hkept
  generalize endEntry e.order .mediumError (withEntry (e.markingLost a.done) (markingOver a cause h s)) = v at hdue hnodup hposted hvol hother ht
  have hsteps := endingSteps_fillUnknown hnodup hvol k
  have hpnodup : (v.posted.map (fun p => p.order)).Nodup := by
    rw [hposted]
    exact (List.nodup_append.1 w.orders.1).2.1
  subst ht
  refine ⟨fun z hz hk hslot hne hst hd => ?_, fun p hp hk hslot hc x hx => ?_⟩
  · have hself := fillUnknown_entry hnodup hvol k (hother z hz hne) hk hslot hst hd
    exact settle_ended (hsteps.nodup hnodup) (hpnodup.sublist ((fillUnknown_posted_sublist hvol k).map _)) (hsteps.dues hdue) hself
      rfl rfl rfl rfl
  · rw [settle_posted (fillUnknown_volume hvol k)] at hx
    exact fillUnknown_gone hvol k (by rw [hposted]; exact hp) hk hslot hc x hx

/-! ## The marking's success (R131) -/

/-- The state once a marking check has passed: the fill mark past the VOID sector. -/
def State.voided (s : State) (a : Access) (k : Slot) (mark : Nat) (h : HeaderImage) : State :=
  updFill k (fun g => { g with mark := mark }) (s.checkedBy a h)

theorem header_markingSucceeds (hph : s.seq.phase = .headerCheck) (hp : a.pass = .markCheck) {h : HeaderImage} (hr : AddressRight a h)
    (hst : h.state = .void) {x : Extent} {f : Fill} (hx : s.extent k = some x) (hf : x.fill = some f) :
    exec (.headerReadComplete h) s = .next (settle (appendSectorEnds a k
      (withEntry (e.reporting .void) (s.voided a k (if f.mark = a.sector then f.mark + 1 else f.mark) h)))) := by
  have hcheck : ∀ t, headerChecked a (checkAddress a h) t = settle (withSlot a (markingSucceeds a) t) := by
    intro t
    unfold headerChecked
    rw [hp, checkAddress_of_right hr, hst]
  have hfill : updFill k (fun g => if g.mark = a.sector then { g with mark := g.mark + 1 } else g) (s.checkedBy a h) =
      s.voided a k (if f.mark = a.sector then f.mark + 1 else f.mark) h := by
    refine updFill_congr (s := s.checkedBy a h) hx hf ?_
    split <;> rfl
  have hreport := reportSector_append (a := a) (s := s.voided a k (if f.mark = a.sector then f.mark + 1 else f.mark) h)
    w.orders w.mem w.entry w.owner .void
  show execHeaderReadComplete h s = _
  rw [execHeaderReadComplete, inPhase_eq w.transferring hph w.access]
  dsimp only
  rw [noteCheck_eq w.access, hcheck, withSlot, w.slot]
  refine congrArg (fun t => Host.Outcome.next (settle t)) ?_
  rw [← hreport, ← hfill]
  rfl

end Marking

end Sys2Proof.Machine
end

section
/-! PROOFS. O47: the sectors of an APPEND's run and the VOID marking, each step with what its sector's end leads to. -/

namespace Sys2Proof.Machine

open Sys2Proof.Safety

/-! ## The passages' states in the words of the claims -/

theorem not_right_of_wrong {a : Access} {h : HeaderImage} (hw : AddressWrong a h) : ¬ AddressRight a h := fun hr => hw.2 hr.2

/-- A header that is wrong or unreadable is not right, and what is unreadable is not waived. -/
theorem check_failed_cases {a : Access} {h : HeaderImage} {waived : Bool}
    (hbad : AddressWrong a h ∨ (h.check ≠ headerCheck h.cylinder h.head h.sector h.state ∧ waived = false)) :
    ¬ AddressRight a h ∧ (AddressWrong a h ∨ waived = false) :=
  ⟨hbad.elim not_right_of_wrong (fun hx hr => hx.1 hr.1), hbad.imp_right And.right⟩

section Words

variable {x : State} (ho : OrdersLawful x) {e : Entry} (he : e ∈ x.work)

include ho he

theorem withEntry_buffers (rest : List (List Word)) (q : Sequencer) :
    { withEntry { e with writeBuffers := rest } x with seq := q } =
      { x with work := x.work.map (fun y => if y.order = e.order then { y with writeBuffers := rest } else y), seq := q } := by
  rw [← updEntry_of_mem ho he (f := fun y => { y with writeBuffers := rest }) rfl]
  rfl

theorem withEntry_reporting (c : Condition) (q : Sequencer) :
    { withEntry (e.reporting c) x with seq := q } =
      { x with
        work := x.work.map (fun z => if z.order = e.order then
          { z with conditions := addCondition (e.count - e.writeBuffers.length) c z.conditions } else z)
        seq := q } := by
  have hupd := updEntry_of_mem ho he
    (f := fun z => { z with conditions := addCondition (e.count - e.writeBuffers.length) c z.conditions }) rfl
  exact congrArg (fun t : State => { t with seq := q }) hupd.symm

end Words

theorem retried_appendCounted (c : Access) (k : Slot) (b : Access) (s : State) :
    retried c (appendCounted k b s).seq = retried c s.seq := retried_access _ _ _

theorem retried_checkedBy {a : Access} {h : HeaderImage} (hr : AddressRight a h) (c : Access) (s : State) :
    retried c (s.checkedBy a h).seq = retried c { s.seq with mismatches := 0 } := by
  rw [← headerSeen_right hr]
  exact retried_access _ _ _

/-- The state with a run over whose last sector has counted, the sequencer as its passage left it. -/
def countedOver (k : Slot) (q : Sequencer) (s : State) : State :=
  { updFill k (fun g => { g with pending := g.pending - 1 }) s with ctlBuffer := .free, seq := ended q }

theorem endAccess_appendCounted (k : Slot) (c : Access) (s : State) : endAccess (appendCounted k c s) = countedOver k s.seq s := rfl

theorem countedOver_checkedBy {a : Access} {h : HeaderImage} (hr : AddressRight a h) (k : Slot) (s : State) :
    countedOver k (s.checkedBy a h).seq (s.checkedBy a h) = countedOver k { s.seq with mismatches := 0 } s := by
  rw [← headerSeen_right hr]
  rfl

/-! ## A data sector counted, and what its end leads to (R127, R130) -/

/-- The entry with a data sector of its run counted, its run's sectors credited. -/
def Entry.sectorAppended (rest : List (List Word)) (n : Nat) (e : Entry) : Entry :=
  { e with writeBuffers := rest, done := e.done + (n + 1) }

section Counted

variable {u : State} (ho : OrdersLawful u) (hl : RepliesLawful u) {e : Entry} (he : e ∈ u.work) (hk : e.kind = .append) {b : Access}
  (hown : b.owner = .entry e.order) {k : Slot} {x : Extent} {f : Fill} (hx : u.extent k = some x) (hf : x.fill = some f) (c : Access)
  {rest : List (List Word)} (hrest : rest ≠ []) {n : Nat} (hdone : b.done = n + 1)

include ho hl he hk hown

include hdone in
/-- The last data sector ends the APPEND, its volume mounted. -/
theorem counted_done (hlast : e.done + (n + 1) = e.count) (hv : u.volume.state = .mounted) :
    SameButReservations
      (entryEnded (e.sectorAppended [] n) .done (withEntry (e.sectorAppended [] n) (countedOver k u.seq u)))
      (settle (appendSectorEnds b k (withEntry { e with writeBuffers := [] } (appendCounted k c u)))) := by
  have hover := appendOver_withEntry (x := appendCounted k c u) ho hl he (y := { e with writeBuffers := [] }) rfl hk b.done
  have hends := appendSectorEnds_done (x := appendCounted k c u) ho he (y := { e with writeBuffers := [] }) rfl hk hown (k := k) rfl
    (by rw [hdone]; exact hlast)
  have hend := settle_append_ends hover hv .done
  rw [← hends, endAccess_appendCounted, hdone] at hend
  exact hend

include hdone in
/-- The last data sector ends the APPEND, also under an expired drain timer. -/
theorem counted_ended (hlast : e.done + (n + 1) = e.count) (hd : e.discard = false) (hq : e.flags.quiet = false) :
    Ended e .done (settle (appendSectorEnds b k (withEntry { e with writeBuffers := [] } (appendCounted k c u)))) := by
  have hover := appendOver_withEntry (x := appendCounted k c u) ho hl he (y := { e with writeBuffers := [] }) rfl hk b.done
  rw [appendSectorEnds_done (x := appendCounted k c u) ho he (y := { e with writeBuffers := [] }) rfl hk hown (k := k) rfl
    (by rw [hdone]; exact hlast)]
  exact settle_append_ended hover (by simp [Entry.leavesSilently, Entry.credited, hd, hq])

include hx hf hrest

/-- The extent full: EXTENT-FULL. -/
theorem counted_full (hdone : b.done = n + 1) (hfull : b.size ≤ f.mark) (hv : u.volume.state = .mounted) :
    SameButReservations
      (entryEnded (e.sectorAppended rest n) .extentFull (withEntry (e.sectorAppended rest n) (countedOver k u.seq u)))
      (settle (appendSectorEnds b k (withEntry { e with writeBuffers := rest } (appendCounted k c u)))) := by
  have hmark : (appendCounted k c u).fillMark k = f.mark := fillMark_appendCounted hx hf c
  have h := append_full (x := appendCounted k c u) ho hl he (y := { e with writeBuffers := rest }) rfl hk hown (k := k) hrest
    (by rw [hmark]; exact hfull) hv
  rw [endAccess_appendCounted, hdone] at h
  exact h

variable (hroom : f.mark < b.size)

include hroom

omit hk in
/-- The run goes on. -/
theorem counted_nextSector (hin : f.mark < b.runEnd) (hv : u.volume.state = .mounted) (hun : Unstopped b u)
    (hturn : turned { c with done := c.done + 1 } f.mark = turned b f.mark) :
    SameButReservations
      { updFill k (fun g => { g with pending := g.pending - 1 }) u with
        work := u.work.map (fun y => if y.order = e.order then { y with writeBuffers := rest } else y)
        seq := retried (turned b f.mark) u.seq }
      (settle (appendSectorEnds b k (withEntry { e with writeBuffers := rest } (appendCounted k c u)))) := by
  have hmark : (appendCounted k c u).fillMark k = f.mark := fillMark_appendCounted hx hf c
  have h := append_nextSector (x := appendCounted k c u) ho hl he (y := { e with writeBuffers := rest }) rfl hown (k := k) hrest
    (by rw [hmark]; exact hroom) (by rw [hmark]; exact hin) hv hun rfl (by rw [hmark]; exact hturn)
  rw [hmark, withEntry_buffers (x := appendCounted k c u) ho he, retried_appendCounted] at h
  exact h

variable (hdone : b.done = n + 1)

include hdone

/-- The cylinder's end: a run boundary. -/
theorem counted_atBoundary (hend : b.runEnd ≤ f.mark) (hmore : e.done + (n + 1) < e.count) (hv : u.volume.state = .mounted)
    (hun : Unstopped b u) :
    AtBoundary (e.sectorAppended rest n) (withEntry (e.sectorAppended rest n) (countedOver k u.seq u))
      (settle (appendSectorEnds b k (withEntry { e with writeBuffers := rest } (appendCounted k c u)))) := by
  have hmark : (appendCounted k c u).fillMark k = f.mark := fillMark_appendCounted hx hf c
  have h := append_atBoundary (x := appendCounted k c u) ho hl he (y := { e with writeBuffers := rest }) rfl hk hown (k := k) hrest
    (by rw [hmark]; exact hroom) (by rw [hmark]; exact hend) (by rw [hdone]; exact hmore) hv hun
  rw [endAccess_appendCounted, hdone] at h
  exact h

variable (hmore : f.mark < b.runEnd ∨ e.done + (n + 1) < e.count)

include hmore

/-- A stop that waits is taken. -/
theorem counted_stopped (hbk : b.kind = .appendRun) (hv : u.volume.state = .mounted) :
    EntryStopped b (e.sectorAppended rest n) (withEntry (e.sectorAppended rest n) (countedOver k u.seq u))
      (settle (appendSectorEnds b k (withEntry { e with writeBuffers := rest } (appendCounted k c u)))) := by
  have hmark : (appendCounted k c u).fillMark k = f.mark := fillMark_appendCounted hx hf c
  have h := append_stopped (x := appendCounted k c u) ho hl he (y := { e with writeBuffers := rest }) rfl hk hown (k := k) hrest
    (by rw [hmark]; exact hroom) (by rw [hmark, hdone]; exact hmore) hbk hv
  rw [endAccess_appendCounted, hdone] at h
  exact h

/-- The drain ends. -/
theorem counted_drained (hd : DrainWaitsInWrite b u) :
    DrainEnded (withEntry (e.sectorAppended rest n) (countedOver k u.seq u))
      (settle (appendSectorEnds b k (withEntry { e with writeBuffers := rest } (appendCounted k c u)))) := by
  have hmark : (appendCounted k c u).fillMark k = f.mark := fillMark_appendCounted hx hf c
  have h := append_drained (x := appendCounted k c u) ho hl he (y := { e with writeBuffers := rest }) rfl hk hown (k := k) hrest
    (by rw [hmark]; exact hroom) (by rw [hmark, hdone]; exact hmore) hd
  rw [endAccess_appendCounted, hdone] at h
  exact h

end Counted

end Sys2Proof.Machine
end

section
/-! PROOFS. O47 settled: each step of an APPEND's sector write and of its VOID marking. -/

namespace Sys2Proof.Machine

open Sys2Proof.Safety

/-- The state with a run over whose sector is VOID, the fill mark past it. -/
def voidedOver (k : Slot) (mark : Nat) (s : State) : State :=
  { updFill k (fun g => { g with mark := mark }) s with ctlBuffer := .free, seq := ended { s.seq with mismatches := 0 } }

/-- The state with a run over whose last sector has counted at the end of its DATA phase. -/
def dataOver (ws : List Word) (k : Slot) (a : Access) (s : State) : State := countedOver k (dataPut ws a s).seq (dataPut ws a s)

section Passages

variable {a : Access} {k : Slot} {e : Entry} {s : State} (w : AppendAt a k e s) {x : Extent} {f : Fill} (hx : s.extent k = some x)
  (hf : x.fill = some f)

include w hx hf

/-! ## The DATA phase without verify (R124) -/

section Data

variable {ws : List Word} {rest : List (List Word)} (hb : e.writeBuffers = ws :: rest) (hph : s.seq.phase = .data) (hp : a.pass = .work)
  (hplace : placeOf a < 7680) (hv : a.verify = false)

include hb hph hp hplace hv

omit hx hf in
theorem data_done (hrest : rest = []) (hlast : e.done + (a.done + 1) = e.count) :
    (s.volume.state = .mounted →
      ∃ t, exec .dataPhaseComplete s = .next t
        ∧ SameButReservations
            (entryEnded (e.sectorAppended rest a.done) .done (withEntry (e.sectorAppended rest a.done) (dataOver ws k a s))) t)
      ∧ (e.discard = false → e.flags.quiet = false → ∃ t, exec .dataPhaseComplete s = .next t ∧ Ended e .done t) := by
  have hexec := dataPhase_append w hph hp hv hplace hb
  rw [hrest] at hexec ⊢
  exact ⟨fun hm => ⟨_, hexec, counted_done (u := dataPut ws a s) w.orders w.replies w.mem w.entry (b := a.counted) w.owner _ rfl hlast hm⟩,
    fun hd hq => ⟨_, hexec, counted_ended (u := dataPut ws a s) w.orders w.replies w.mem w.entry (b := a.counted) w.owner _ rfl hlast hd hq⟩⟩

variable (hrest : rest ≠ [])

include hrest

theorem data_full (hfull : a.size ≤ f.mark) (hm : s.volume.state = .mounted) :
    ∃ t, exec .dataPhaseComplete s = .next t
      ∧ SameButReservations
          (entryEnded (e.sectorAppended rest a.done) .extentFull (withEntry (e.sectorAppended rest a.done) (dataOver ws k a s))) t :=
  ⟨_, dataPhase_append w hph hp hv hplace hb,
    counted_full (u := dataPut ws a s) w.orders w.replies w.mem w.entry (b := a.counted) w.owner hx hf _ hrest rfl hfull hm⟩

variable (hroom : f.mark < a.size)

include hroom

theorem data_nextSector (hin : f.mark < a.runEnd) (hm : s.volume.state = .mounted) (hun : Unstopped a s) :
    ∃ t, exec .dataPhaseComplete s = .next t
      ∧ SameButReservations
          { updFill k (fun g => { g with pending := g.pending - 1 }) (dataPut ws a s) with
            work := s.work.map (fun y => if y.order = e.order then { y with writeBuffers := rest } else y)
            seq := retried (turned a.counted f.mark) { s.seq with gate := false, phase := .none } } t := by
  have hnext := counted_nextSector (u := dataPut ws a s) w.orders w.replies w.mem (b := a.counted) w.owner hx hf
    { a with checkPassed := true, tornResume := false } hrest hroom hin hm hun rfl
  rw [show (dataPut ws a s).seq = { ({ s.seq with gate := false, phase := .none } : Sequencer) with
    access := some { a with checkPassed := true, tornResume := false } } from rfl, retried_access] at hnext
  exact ⟨_, dataPhase_append w hph hp hv hplace hb, hnext⟩

theorem data_atBoundary (hend : a.runEnd ≤ f.mark) (hmore : e.done + (a.done + 1) < e.count) (hm : s.volume.state = .mounted)
    (hun : Unstopped a s) :
    ∃ t, exec .dataPhaseComplete s = .next t
      ∧ AtBoundary (e.sectorAppended rest a.done) (withEntry (e.sectorAppended rest a.done) (dataOver ws k a s)) t :=
  ⟨_, dataPhase_append w hph hp hv hplace hb,
    counted_atBoundary (u := dataPut ws a s) w.orders w.replies w.mem w.entry (b := a.counted) w.owner hx hf _ hrest rfl hroom hend hmore hm
      hun⟩

variable (hmore : f.mark < a.runEnd ∨ e.done + (a.done + 1) < e.count)

include hmore

theorem data_stopped (hm : s.volume.state = .mounted) :
    ∃ t, exec .dataPhaseComplete s = .next t
      ∧ EntryStopped a.counted (e.sectorAppended rest a.done) (withEntry (e.sectorAppended rest a.done) (dataOver ws k a s)) t :=
  ⟨_, dataPhase_append w hph hp hv hplace hb,
    counted_stopped (u := dataPut ws a s) w.orders w.replies w.mem w.entry (b := a.counted) w.owner hx hf _ hrest rfl hroom hmore w.kind hm⟩

theorem data_drained (hd : DrainWaitsInWrite a s) :
    ∃ t, exec .dataPhaseComplete s = .next t
      ∧ DrainEnded (withEntry (e.sectorAppended rest a.done) (dataOver ws k a s)) t :=
  ⟨_, dataPhase_append w hph hp hv hplace hb,
    counted_drained (u := dataPut ws a s) w.orders w.replies w.mem w.entry (b := a.counted) w.owner hx hf _ hrest rfl hroom hmore hd⟩

end Data

/-! ## The read-back passes (R128) -/

section ReadBack

variable {ws : List Word} {rest : List (List Word)} (hb : e.writeBuffers = ws :: rest) (hph : s.seq.phase = .readBack)
  (hp : a.pass = .readBack) (hrest : rest ≠ []) (hroom : f.mark < a.size) {h : HeaderImage} {g : FieldImage} (hr : AddressRight a h)
  (hst : h.state = .written) (hcrc : g.check = crc g.data.toList) (hws : g.data.toList = ws)

include hb hph hp hrest hroom hr hst hcrc hws

theorem readBack_nextSector (hin : f.mark < a.runEnd) (hv : s.volume.state = .mounted) (hun : Unstopped a s) :
    ∃ t, exec (.readBackComplete h g) s = .next t
      ∧ SameButReservations
          { updFill k (fun g => { g with pending := g.pending - 1 }) s with
            work := s.work.map (fun y => if y.order = e.order then { y with writeBuffers := rest } else y)
            seq := retried (turned { a with done := a.done + 1 } f.mark) { s.seq with mismatches := 0 } } t := by
  have hnext := counted_nextSector (u := s.checkedBy a h) w.orders w.replies w.mem (b := { a with done := a.done + 1 }) w.owner hx hf
    (a.checked h) hrest hroom hin hv hun rfl
  rw [retried_checkedBy hr] at hnext
  exact ⟨_, readBack_append w hph hp hb hr hst hcrc hws, hnext⟩

variable (hmore : f.mark < a.runEnd ∨ e.done + (a.done + 1) < e.count)

include hmore

theorem readBack_stopped (hv : s.volume.state = .mounted) :
    ∃ t, exec (.readBackComplete h g) s = .next t
      ∧ EntryStopped { a with done := a.done + 1 } (e.sectorAppended rest a.done)
          (withEntry (e.sectorAppended rest a.done) (countedOver k { s.seq with mismatches := 0 } s)) t := by
  have hstop := counted_stopped (u := s.checkedBy a h) w.orders w.replies w.mem w.entry (b := { a with done := a.done + 1 }) w.owner hx hf
    (a.checked h) hrest (n := a.done) rfl hroom hmore w.kind hv
  rw [countedOver_checkedBy hr] at hstop
  exact ⟨_, readBack_append w hph hp hb hr hst hcrc hws, hstop⟩

theorem readBack_drained (hd : DrainWaitsInWrite a s) :
    ∃ t, exec (.readBackComplete h g) s = .next t
      ∧ DrainEnded (withEntry (e.sectorAppended rest a.done) (countedOver k { s.seq with mismatches := 0 } s)) t := by
  have hdrain := counted_drained (u := s.checkedBy a h) w.orders w.replies w.mem w.entry (b := { a with done := a.done + 1 }) w.owner hx hf
    (a.checked h) hrest (n := a.done) rfl hroom hmore hd
  rw [countedOver_checkedBy hr] at hdrain
  exact ⟨_, readBack_append w hph hp hb hr hst hcrc hws, hdrain⟩

end ReadBack

/-! ## The marking check passes (R131) -/

omit w hx hf in
theorem endAccess_voided {h : HeaderImage} (hr : AddressRight a h) (mark : Nat) (s : State) :
    endAccess (s.voided a k mark h) = voidedOver k mark s := by
  unfold State.voided voidedOver
  rw [← headerSeen_right hr]
  rfl

omit w in
theorem fillMark_voided (mark : Nat) (h : HeaderImage) : (s.voided a k mark h).fillMark k = mark :=
  fillMark_updFill (s := s.checkedBy a h) hx hf (fun g => { g with mark := mark })

section MarkCheck

variable (hb : e.writeBuffers ≠ []) (hph : s.seq.phase = .headerCheck) (hp : a.pass = .markCheck) {h : HeaderImage}
  (hr : AddressRight a h) (hst : h.state = .void) {mark : Nat} (hmark : mark = if f.mark = a.sector then f.mark + 1 else f.mark)

include hb hph hp hr hst hmark

theorem markCheck_full (hfull : a.size ≤ mark) (hv : s.volume.state = .mounted) :
    ∃ t, exec (.headerReadComplete h) s = .next t
      ∧ SameButReservations
          (entryEnded ((e.reporting .void).credited a.done) .extentFull
            (withEntry ((e.reporting .void).credited a.done) (voidedOver k mark s))) t := by
  have hfill := fillMark_voided (a := a) hx hf mark h
  have hexec := header_markingSucceeds w hph hp hr hst hx hf
  rw [← hmark] at hexec
  have hend := append_full (x := s.voided a k mark h) w.orders w.replies w.mem (y := e.reporting .void) rfl w.entry w.owner (k := k) hb
    (by rw [hfill]; exact hfull) hv
  rw [endAccess_voided hr] at hend
  exact ⟨_, hexec, hend⟩

variable (hroom : mark < a.size)

include hroom

theorem markCheck_nextSector (hin : mark < a.runEnd) (hv : s.volume.state = .mounted) (hun : Unstopped a s) :
    ∃ t, exec (.headerReadComplete h) s = .next t
      ∧ SameButReservations
          { updFill k (fun g => { g with mark := mark }) s with
            work := s.work.map (fun z => if z.order = e.order then
              { z with conditions := addCondition (e.count - e.writeBuffers.length) .void z.conditions } else z)
            seq := retried (turned a mark) { s.seq with mismatches := 0 } } t := by
  have hfill := fillMark_voided (a := a) hx hf mark h
  have hexec := header_markingSucceeds w hph hp hr hst hx hf
  rw [← hmark] at hexec
  have hnext := append_nextSector (x := s.voided a k mark h) w.orders w.replies w.mem (y := e.reporting .void) rfl w.owner (k := k) hb
    (by rw [hfill]; exact hroom) (by rw [hfill]; exact hin) hv hun (c := a.checked h) rfl rfl
  rw [hfill, withEntry_reporting (x := s.voided a k mark h) w.orders w.mem,
    show (s.voided a k mark h).seq = (s.checkedBy a h).seq from rfl, retried_checkedBy hr] at hnext
  exact ⟨_, hexec, hnext⟩

theorem markCheck_atBoundary (hend : a.runEnd ≤ mark) (hmore : e.done + a.done < e.count) (hv : s.volume.state = .mounted)
    (hun : Unstopped a s) :
    ∃ t, exec (.headerReadComplete h) s = .next t
      ∧ AtBoundary ((e.reporting .void).credited a.done)
          (withEntry ((e.reporting .void).credited a.done) (voidedOver k mark s)) t := by
  have hfill := fillMark_voided (a := a) hx hf mark h
  have hexec := header_markingSucceeds w hph hp hr hst hx hf
  rw [← hmark] at hexec
  have hbound := append_atBoundary (x := s.voided a k mark h) w.orders w.replies w.mem (y := e.reporting .void) rfl w.entry w.owner (k := k)
    hb (by rw [hfill]; exact hroom) (by rw [hfill]; exact hend) hmore hv hun
  rw [endAccess_voided hr] at hbound
  exact ⟨_, hexec, hbound⟩

variable (hmore : mark < a.runEnd ∨ e.done + a.done < e.count)

include hmore

theorem markCheck_stopped (hv : s.volume.state = .mounted) :
    ∃ t, exec (.headerReadComplete h) s = .next t
      ∧ EntryStopped a ((e.reporting .void).credited a.done)
          (withEntry ((e.reporting .void).credited a.done) (voidedOver k mark s)) t := by
  have hfill := fillMark_voided (a := a) hx hf mark h
  have hexec := header_markingSucceeds w hph hp hr hst hx hf
  rw [← hmark] at hexec
  have hstop := append_stopped (x := s.voided a k mark h) w.orders w.replies w.mem (y := e.reporting .void) rfl w.entry w.owner (k := k) hb
    (by rw [hfill]; exact hroom) (by rw [hfill]; exact hmore) w.kind hv
  rw [endAccess_voided hr] at hstop
  exact ⟨_, hexec, hstop⟩

theorem markCheck_drained (hd : DrainWaitsInWrite a s) :
    ∃ t, exec (.headerReadComplete h) s = .next t
      ∧ DrainEnded (withEntry ((e.reporting .void).credited a.done) (voidedOver k mark s)) t := by
  have hfill := fillMark_voided (a := a) hx hf mark h
  have hexec := header_markingSucceeds w hph hp hr hst hx hf
  rw [← hmark] at hexec
  have hdrain := append_drained (x := s.voided a k mark h) w.orders w.replies w.mem (y := e.reporting .void) rfl w.entry w.owner (k := k) hb
    (by rw [hfill]; exact hroom) (by rw [hfill]; exact hmore) hd
  rw [endAccess_voided hr] at hdrain
  exact ⟨_, hexec, hdrain⟩

end MarkCheck

end Passages

end Sys2Proof.Machine

namespace Sys2Proof.Proofs

open Sys2Proof.Machine Sys2Proof.Safety

/-- Settles O47: the passages of an APPEND's sector in turn, each with what its sector's end leads to. -/
theorem appendSectorAndMarking : Obligations.AppendSectorAndMarking := by
  intro a k x f e ws rest s ht ha hk hslot hown he hek hes hb hx hf hplace ho hl
  have w : AppendAt a k e s := ⟨ho, hl, he, hek, ht, ha, hk, hslot, hown⟩
  have hbuf : e.writeBuffers ≠ [] := by
    rw [hb]
    exact List.cons_ne_nil _ _
  dsimp only
  refine ⟨fun hph hp hv => dataPhase_verified ht hph ha hp (.inr hk) hplace (w.buffers.trans hb) hv, fun hph hp hv => ?_,
    fun h g hph hp hrest hroom hr hst hcrc hws => ?_, fun h g hm hph hp hlast hno => ?_, fun h hm hph hp hfurther hlast hbad => ?_,
    fun hph hp => dataPhase_marking w hph hp hplace, fun h hm hph hp hbad hone hnp => ?_, fun h hph hp => ?_⟩
  · exact ⟨data_nextSector w hx hf hb hph hp hplace hv, data_atBoundary w hx hf hb hph hp hplace hv,
      data_full w hx hf hb hph hp hplace hv,
      fun hrest hlast => ⟨(data_done w hb hph hp hplace hv hrest hlast).1, fun _ => (data_done w hb hph hp hplace hv hrest hlast).2⟩,
      fun hrest hroom hmore => ⟨fun hstop => data_stopped w hx hf hb hph hp hplace hv hrest hroom hmore hstop.1,
        data_drained w hx hf hb hph hp hplace hv hrest hroom hmore⟩⟩
  · exact ⟨readBack_nextSector w hx hf hb hph hp hrest hroom hr hst hcrc hws, fun hmore =>
      ⟨fun hstop => readBack_stopped w hx hf hb hph hp hrest hroom hr hst hcrc hws hmore hstop.1,
        readBack_drained w hx hf hb hph hp hrest hroom hr hst hcrc hws hmore⟩⟩
  · exact ⟨_, readBack_failsLast w hph hp hlast hb hno, settle_of_sameBut (sameBut_refl _) hl hm⟩
  · obtain ⟨hr, hnot⟩ := check_failed_cases hbad
    exact ⟨_, header_failsLast w hph hp hfurther hlast hr hnot, settle_of_sameBut (sameBut_refl _) hl hm⟩
  · obtain ⟨hr, hnot⟩ := check_failed_cases hbad
    exact ⟨_, header_checkFails w hph (headerChecked_marking hp hr hnot), settle_marking_alone w hm .header h hone hnp⟩
  · refine ⟨fun hpass hroom hin hm hun => markCheck_nextSector w hx hf hbuf hph hp hpass.1 hpass.2 rfl hroom hin hm hun,
      fun hpass hroom hend hmore hm hun => markCheck_atBoundary w hx hf hbuf hph hp hpass.1 hpass.2 rfl hroom hend hmore hm hun,
      fun hpass hfull hm => markCheck_full w hx hf hbuf hph hp hpass.1 hpass.2 rfl hfull hm,
      fun hpass hroom hmore =>
        ⟨fun hstop => markCheck_stopped w hx hf hbuf hph hp hpass.1 hpass.2 rfl hroom hmore hstop.1,
          markCheck_drained w hx hf hbuf hph hp hpass.1 hpass.2 rfl hroom hmore⟩,
      fun hno hm hone hnp => ⟨_, header_checkFails w hph (headerChecked_markCheck hp hno), settle_marking_alone w hm .write h hone hnp⟩,
      fun hno hm => ⟨_, header_checkFails w hph (headerChecked_markCheck hp hno), settle_marking_others w hm .write h rfl⟩⟩

end Sys2Proof.Proofs
end

section
/-! PROOFS. The tables that the laws of R12, R14, R21 and R33 speak of: the operations of the machine that leave them as they are. -/

namespace Sys2Proof.Machine

open Sys2Proof.Safety

/-- What the law of the extent table asks of an extent: its definition, and whether it has fill fields. -/
def Extent.shape (e : Extent) : Definition × Bool := (e.defn, e.fill.isSome)

/-- The tables as their laws see them: the shapes of the extents, the controller claim and the extent claims. -/
def State.tables (s : State) : Vector (Option (Definition × Bool)) 32 × ClaimRecord × Vector ClaimRecord 32 :=
  (s.extents.map (Option.map Extent.shape), s.ctlClaim, s.extClaims)

/-! ## What the laws read of the tables -/

theorem claim_of_tables {s t : State} (h : t.tables = s.tables) (x : ClaimTarget) : t.claim x = s.claim x := by
  simp only [State.tables, Prod.mk.injEq] at h
  obtain ⟨-, hctl, hext⟩ := h
  cases x with
  | controller => exact hctl
  | extent k => exact congrArg (fun v => v.get k) hext

theorem tables_get (s : State) (k : Slot) : s.tables.1.get k = (s.extent k).map Extent.shape := get_map ..

theorem shape_of_tables {s t : State} (h : t.tables = s.tables) (k : Slot) :
    (t.extent k).map Extent.shape = (s.extent k).map Extent.shape := by
  rw [← tables_get, ← tables_get, h]

theorem extentLawful_of_shape {d e : Extent} (h : d.shape = e.shape) (he : extentLawful e) : extentLawful d := by
  simp only [Extent.shape, Prod.mk.injEq] at h
  obtain ⟨hdefn, hfill⟩ := h
  rw [extentLawful, hdefn, hfill]
  exact he

/-- An extent after a step that leaves the tables has the shape of the one that stood in its slot. -/
theorem extent_of_tables {s t : State} (h : t.tables = s.tables) {k : Slot} {e : Extent} (he : t.extent k = some e) :
    ∃ d, s.extent k = some d ∧ e.shape = d.shape := by
  have hshape := shape_of_tables h k
  rw [he, Option.map_some, eq_comm, Option.map_eq_some_iff] at hshape
  obtain ⟨d, hd, heq⟩ := hshape
  exact ⟨d, hd, heq.symm⟩

theorem claimsLawful_of_tables {s t : State} (h : t.tables = s.tables) (hs : ClaimsLawful s) : ClaimsLawful t := fun x => by
  rw [claim_of_tables h]
  exact hs x

theorem extentsLawful_of_tables {s t : State} (h : t.tables = s.tables) (hs : ExtentsLawful s) : ExtentsLawful t := by
  obtain ⟨hformed, hapart⟩ := hs
  refine ⟨fun k e he => ?_, fun j k d e hjk hd he => ?_⟩
  · obtain ⟨x, hx, hshape⟩ := extent_of_tables h he
    exact extentLawful_of_shape hshape (hformed k x hx)
  · obtain ⟨x, hx, hxd⟩ := extent_of_tables h hd
    obtain ⟨y, hy, hye⟩ := extent_of_tables h he
    rw [show d.defn = x.defn from congrArg Prod.fst hxd, show e.defn = y.defn from congrArg Prod.fst hye]
    exact hapart j k x y hjk hx hy

/-! ## The plain updates -/

/-- An extent changed in its runtime fields alone, its fill fields neither made nor taken away. -/
theorem updExtent_tables (k : Slot) {f : Extent → Extent} (h : ∀ e, (f e).shape = e.shape) (s : State) :
    (updExtent k f s).tables = s.tables := by
  have hshapes : (updExtent k f s).extents.map (Option.map Extent.shape) = s.extents.map (Option.map Extent.shape) := by
    ext i hi
    simp only [updExtent, Vector.getElem_map, Vector.getElem_set]
    split
    · next hk =>
      subst hk
      cases hx : s.extents[k.val] <;> simp [Vector.get_eq_getElem, hx, h]
    · rfl
  unfold State.tables
  rw [hshapes]
  rfl

theorem foldl_tables {α : Type} {f : State → α → State} (h : ∀ s a, (f s a).tables = s.tables) (l : List α) (s : State) :
    (l.foldl f s).tables = s.tables := by
  induction l generalizing s with
  | nil => rfl
  | cons a l ih => rw [List.foldl_cons, ih, h]

@[simp] theorem tables_mk {ports logs settings extents ctlClaim extClaims work posted nextOrder direction seq ctlBuffer volume sweep
    sweepSeen levels acted powerPeriod powerTaken powerOwed powerEarly clock medium pending takers} :
    State.tables ⟨ports, logs, settings, extents, ctlClaim, extClaims, work, posted, nextOrder, direction, seq, ctlBuffer, volume, sweep,
      sweepSeen, levels, acted, powerPeriod, powerTaken, powerOwed, powerEarly, clock, medium, pending, takers⟩ =
        (extents.map (Option.map Extent.shape), ctlClaim, extClaims) := rfl

@[simp] theorem tables_eta (s : State) : (s.extents.map (Option.map Extent.shape), s.ctlClaim, s.extClaims) = s.tables := rfl

section Operations

variable (s : State) (ch : Channel) (r : Request) (n m : Nat) (k : Slot) (ks : List Slot) (code : Code) (a : Access) (body : Body)
  (cause : DefectCause) (e : Entry)

@[simp] theorem updPort_tables (f : Port → Port) : (s.updPort ch f).tables = s.tables := rfl
@[simp] theorem raise_tables (ev : EventKind) : (raise ch ev s).tables = s.tables := rfl
@[simp] theorem raiseBoth_tables (ev : EventKind) : (raiseBoth ev s).tables = s.tables := rfl
@[simp] theorem takeLine_tables (l : Line) (on : Bool) : (takeLine l on s).tables = s.tables := rfl
@[simp] theorem placeFreed_tables : (placeFreed s).tables = s.tables := rfl
@[simp] theorem addDue_tables (d : Due) : (addDue ch d s).tables = s.tables := rfl
@[simp] theorem updEntry_tables (f : Entry → Entry) : (updEntry n f s).tables = s.tables := rfl
@[simp] theorem dropEntry_tables : (dropEntry n s).tables = s.tables := rfl
@[simp] theorem updPosted_tables (f : Posted → Posted) : (updPosted n f s).tables = s.tables := rfl
@[simp] theorem logFault_tables (p : Posted) : (logFault code s p).tables = s.tables := rfl
@[simp] theorem updSeq_tables (f : Sequencer → Sequencer) : (updSeq f s).tables = s.tables := rfl
@[simp] theorem updAccess_tables (f : Access → Access) : (updAccess f s).tables = s.tables := rfl
@[simp] theorem issueRestore_tables : (issueRestore s).tables = s.tables := rfl
@[simp] theorem issueStop_tables : (issueStop s).tables = s.tables := rfl
@[simp] theorem startSearch_tables : (startSearch a s).tables = s.tables := rfl
@[simp] theorem endAccess_tables : (endAccess s).tables = s.tables := rfl
@[simp] theorem countFailure_tables (further : Bool) : (countFailure further s).tables = s.tables := rfl
@[simp] theorem enterNotSafe_tables : (enterNotSafe s).tables = s.tables := rfl
@[simp] theorem enterReleasing_tables : (enterReleasing s).tables = s.tables := rfl
@[simp] theorem storeEnds_tables : (storeEnds s).tables = s.tables := rfl
@[simp] theorem setMount_tables (stage : MountStage) : (setMount stage s).tables = s.tables := rfl
@[simp] theorem setSweepSector_tables : (setSweepSector m s).tables = s.tables := rfl
@[simp] theorem failItem_tables : (failItem s).tables = s.tables := rfl
@[simp] theorem noteMapLoad_tables : (noteMapLoad s).tables = s.tables := rfl
@[simp] theorem setReceiver_tables (v : Receiver) : (setReceiver ch v s).tables = s.tables := rfl
@[simp] theorem addStop_tables (c : Stop) : (addStop c s).tables = s.tables := rfl

/-! ## Extents, replies and endings (R25, R90, R98, R104, R177) -/

@[simp] theorem updFill_tables (f : Fill → Fill) : (updFill k f s).tables = s.tables :=
  updExtent_tables k (fun e => by simp [Extent.shape]) s

@[simp] theorem lowerPending_tables : (lowerPending k n s).tables = s.tables := updFill_tables ..

@[simp] theorem reserveAppend_tables : (reserveAppend k n s).tables = s.tables := updFill_tables ..

@[simp] theorem markSlots_tables (on : Bool) : (markSlots on ks s).tables = s.tables :=
  foldl_tables (fun s k => updExtent_tables k (f := fun e => { e with clearing := on }) (fun _ => rfl) s) ks s

@[simp] theorem placeReply_tables (d : Due) : (placeReply ch d s).tables = s.tables := by
  unfold placeReply
  (repeat' split) <;> simp

@[simp] theorem placeList_tables (ds : List Due) : (placeList ch ds s).tables = s.tables := by
  induction ds generalizing s with
  | nil => rfl
  | cons d ds ih =>
    unfold placeList
    split <;> simp [ih]

@[simp] theorem placeBoth_tables : (placeBoth s).tables = s.tables := by simp [placeBoth, placeDue]

@[simp] theorem formReply_tables (reply : Reply) : (formReply ch reply s).tables = s.tables := by simp [formReply, placeDue]

@[simp] theorem complete_tables : (complete ch r code body s).tables = s.tables := by simp [complete]

@[simp] theorem topUp_tables : (topUp ch s).tables = s.tables :=
  foldl_tables (fun s e => by unfold topUpOne; split <;> simp) s.work s

@[simp] theorem topUpBoth_tables : (topUpBoth s).tables = s.tables := by simp [topUpBoth]

@[simp] theorem refuse_tables : (refuse ch r code s).tables = s.tables := by simp [refuse]

@[simp] theorem endEntry_tables : (endEntry n code s).tables = s.tables := by
  unfold endEntry
  (repeat' split) <;> simp

@[simp] theorem endEntries_tables (ns : List Nat) : (endEntries ns code s).tables = s.tables := foldl_tables (fun _ _ => by simp) ns s

@[simp] theorem postedLeaves_tables (fault : Bool) : (postedLeaves n fault s).tables = s.tables := by
  unfold postedLeaves
  rw [foldl_tables (fun s e => by unfold endFlush; split <;> simp)]
  rfl

@[simp] theorem leaveFaulted_tables (p : Posted) : (leaveFaulted p s).tables = s.tables := by
  unfold leaveFaulted
  split <;> simp

@[simp] theorem faultOne_tables : (faultOne n code s).tables = s.tables := by
  unfold faultOne
  split <;> simp

@[simp] theorem faultAll_tables (ns : List Nat) : (faultAll ns code s).tables = s.tables := foldl_tables (fun _ _ => by simp) ns s

@[simp] theorem faultPosted_tables : (faultPosted n code s).tables = s.tables := by
  unfold faultPosted
  split <;> simp

@[simp] theorem fillBecomesUnknown_tables : (fillBecomesUnknown k s).tables = s.tables := by
  unfold fillBecomesUnknown
  rw [foldl_tables (fun _ _ => by simp)]
  simp

@[simp] theorem recordDefect_tables (c h : Nat) : (recordDefect c h n cause s).tables = s.tables := by
  unfold recordDefect
  (repeat' split) <;> rfl

@[simp] theorem removeDefect_tables (c h : Nat) : (removeDefect c h n s).tables = s.tables := rfl

@[simp] theorem tear_tables : (tear s).tables = s.tables := by
  unfold tear putHeader putData
  (repeat' split) <;> rfl

/-! ## The sweep, and settling (R157, R158, R167 to R174) -/

@[simp] theorem endSweep_tables (c : Option StopCause) : (endSweep c s).tables = s.tables := by
  unfold endSweep
  (repeat' split) <;> simp

@[simp] theorem haltSweep_tables : (haltSweep s).tables = s.tables := by
  unfold haltSweep
  (repeat' split) <;> simp

@[simp] theorem giveResult_tables (x : SweepResult) : (giveResult x s).tables = s.tables := by
  unfold giveResult nextItem
  (repeat' split) <;> simp

@[simp] theorem stopAfterStep_tables (x : Option SweepResult) : (stopAfterStep x s).tables = s.tables := by
  unfold stopAfterStep
  (repeat' split) <;> simp

@[simp] theorem stepEnded_tables (x : Option SweepResult) : (stepEnded x s).tables = s.tables := by
  unfold stepEnded
  (repeat' split) <;> simp

@[simp] theorem stepUnmade_tables : (stepUnmade s).tables = s.tables := stepEnded_tables ..

@[simp] theorem clearingStepDone_tables : (clearingStepDone k m s).tables = s.tables := by
  unfold clearingStepDone passComplete
  split <;> simp

@[simp] theorem clearingStepFailed_tables : (clearingStepFailed k m s).tables = s.tables := by
  unfold clearingStepFailed
  dsimp only
  (repeat' split) <;> simp

@[simp] theorem scanningStepEnded_tables (size : Nat) (failed : Bool) : (scanningStepEnded m size failed s).tables = s.tables := by
  unfold scanningStepEnded
  (repeat' split) <;> simp

@[simp] theorem stepSeekError_tables : (stepSeekError s).tables = s.tables := by
  unfold stepSeekError
  (repeat' split) <;> simp

@[simp] theorem drainExpiry_tables : (drainExpiry s).tables = s.tables := by
  unfold drainExpiry endVolumeWork
  dsimp only
  (repeat' split) <;> simp

@[simp] theorem drainCheck_tables : (drainCheck s).tables = s.tables := by
  unfold drainCheck drainEnds
  dsimp only
  (repeat' split) <;> simp

@[simp] theorem releaseStop_tables : (releaseStop s).tables = s.tables := by
  unfold releaseStop
  split <;> simp

@[simp] theorem settle_tables : (settle s).tables = s.tables := by simp [settle]

/-! ## Admission, but for CLAIM and MAP-LOAD (chapter 4) -/

@[simp] theorem joinOrWait_tables : (joinOrWait ch r e s).tables = s.tables := by
  unfold joinOrWait
  split <;> rfl

@[simp] theorem post_tables (p : Posted) : (post ch r p s).tables = s.tables := by simp [post]

@[simp] theorem admitRead_tables : (admitRead ch r s).tables = s.tables := by
  unfold admitRead
  (repeat' split) <;> simp

@[simp] theorem admitWrite_tables : (admitWrite ch r s).tables = s.tables := by
  unfold admitWrite
  (repeat' split) <;> simp

@[simp] theorem admitAppend_tables : (admitAppend ch r s).tables = s.tables := by
  unfold admitAppend joinWork waitForPlace
  (repeat' split) <;> simp

@[simp] theorem admitFlush_tables : (admitFlush ch r s).tables = s.tables := by
  unfold admitFlush
  (repeat' split) <;> simp

@[simp] theorem admitMapStore_tables : (admitMapStore ch r s).tables = s.tables := by
  unfold admitMapStore
  (repeat' split) <;> simp

@[simp] theorem admitCancel_tables : (admitCancel ch r s).tables = s.tables := by
  unfold admitCancel
  (repeat' split) <;> simp

@[simp] theorem admitMapRead_tables : (admitMapRead ch r s).tables = s.tables := by
  unfold admitMapRead
  (repeat' split) <;> simp

@[simp] theorem admitDefectRead_tables : (admitDefectRead ch r s).tables = s.tables := by
  unfold admitDefectRead
  (repeat' split) <;> simp

@[simp] theorem openSweep_tables (kind : SweepKind) : (openSweep ch r kind ks s).tables = s.tables := by
  unfold openSweep
  cases kind <;> simp

@[simp] theorem joinSweep_tables (sw : Sweep) : (joinSweep ch r sw ks s).tables = s.tables := by
  unfold joinSweep
  dsimp only
  split <;> simp

@[simp] theorem admitClear_tables : (admitClear ch r s).tables = s.tables := by
  unfold admitClear
  (repeat' split) <;> simp

@[simp] theorem admitScan_tables : (admitScan ch r s).tables = s.tables := by
  unfold admitScan
  (repeat' split) <;> simp

@[simp] theorem admitSweepHalt_tables : (admitSweepHalt ch r s).tables = s.tables := by
  unfold admitSweepHalt
  (repeat' split) <;> simp

@[simp] theorem admitContext_tables : (admitContext ch r s).tables = s.tables := by
  unfold admitContext
  (repeat' split) <;> simp

@[simp] theorem admitSettingsLoad_tables : (admitSettingsLoad ch r s).tables = s.tables := by
  unfold admitSettingsLoad
  (repeat' split) <;> simp

@[simp] theorem admitStatus_tables : (admitStatus ch r s).tables = s.tables := by
  unfold admitStatus
  (repeat' split) <;> simp

@[simp] theorem admitEventAck_tables : (admitEventAck ch r s).tables = s.tables := by
  unfold admitEventAck
  (repeat' split) <;> simp

@[simp] theorem admitFaultRead_tables : (admitFaultRead ch r s).tables = s.tables := by
  unfold admitFaultRead
  (repeat' split) <;> simp

@[simp] theorem admitTimeSet_tables : (admitTimeSet ch r s).tables = s.tables := by
  unfold admitTimeSet
  (repeat' split) <;> simp

@[simp] theorem retakeRequest_tables : (retakeRequest ch r s).tables = s.tables := by
  unfold retakeRequest
  split <;> simp

@[simp] theorem retakeStage_tables : (retakeStage ch s).tables = s.tables := by
  unfold retakeStage
  split <;> simp

end Operations

end Sys2Proof.Machine
end

section
/-! PROOFS. The work of the drive leaves the tables of R12 and R33 as they are, but where it loads a label or completes a mount. -/

namespace Sys2Proof.Machine

open Sys2Proof.Safety

section Operations

variable (s : State) (ch : Channel) (n m : Nat) (k : Slot) (code : Code) (a : Access) (torn : Bool) (cause : DefectCause) (e : Entry)

/-! ## The sequencer, and grants (R83, R115 to R122) -/

@[simp] theorem approach_tables : (approach s).tables = s.tables := by
  unfold approach issueSeek
  (repeat' split) <;> simp

@[simp] theorem nextPassage_tables : (nextPassage s).tables = s.tables := by
  unfold nextPassage recalibrate
  (repeat' split) <;> simp

@[simp] theorem turnTo_tables : (turnTo m s).tables = s.tables := by simp [turnTo]

@[simp] theorem beginAccess_tables : (beginAccess a s).tables = s.tables := by simp [beginAccess]

@[simp] theorem noteCheck_tables (c : AddressCheck) : (noteCheck c s).tables = s.tables := by
  unfold noteCheck
  split <;> simp

@[simp] theorem openGate_tables : (openGate a s).tables = s.tables := by
  unfold openGate
  split <;> simp

@[simp] theorem beginLabelWrite_tables (o : Owner) (serial : BitVec 32) : (beginLabelWrite o serial s).tables = s.tables := by
  simp [beginLabelWrite]

@[simp] theorem grantEntry_tables : (grantEntry n s).tables = s.tables := by
  unfold grantEntry grantRead grantWrite grantAppend
  dsimp only
  (repeat' split) <;> simp

@[simp] theorem grantPosted_tables : (grantPosted n s).tables = s.tables := by
  unfold grantPosted
  dsimp only
  (repeat' split) <;> simp

@[simp] theorem grant_tables (o : Owner) : (grant o s).tables = s.tables := by
  unfold grant
  split <;> simp

@[simp] theorem endProtected_tables (o : Owner) : (endProtected o s).tables = s.tables := by
  unfold endProtected
  (repeat' split) <;> simp

@[simp] theorem park_tables (o : Owner) : (park o torn s).tables = s.tables := by
  unfold park
  split <;> simp

@[simp] theorem reportSector_tables (c : Condition) : (reportSector a c s).tables = s.tables := by
  unfold reportSector
  split <;> rfl

@[simp] theorem creditRun_tables : (creditRun a s).tables = s.tables := by
  unfold creditRun
  split <;> simp

/-! ## Runs ended, stopped and cut (R84, R133, R140 to R146, R158) -/

@[simp] theorem boundaryEntry_tables (stop : Option Stop) : (boundaryEntry stop n s).tables = s.tables := by
  unfold boundaryEntry
  (repeat' split) <;> simp

@[simp] theorem boundaryPosted_tables (stop : Option Stop) : (boundaryPosted stop n s).tables = s.tables := by
  unfold boundaryPosted
  (repeat' split) <;> simp

@[simp] theorem finishPosted_tables : (finishPosted n s).tables = s.tables := by
  unfold finishPosted commitPosted
  (repeat' split) <;> simp

@[simp] theorem runEnds_tables : (runEnds a s).tables = s.tables := by
  unfold runEnds
  dsimp only
  (repeat' split) <;> simp

@[simp] theorem endRun_tables : (endRun a code s).tables = s.tables := by
  unfold endRun
  dsimp only
  split <;> simp

@[simp] theorem stopRun_tables : (stopRun a torn s).tables = s.tables := by simp [stopRun]

@[simp] theorem cutRun_tables : (cutRun a torn s).tables = s.tables := by
  unfold cutRun
  split <;> simp

@[simp] theorem dropBuffer_tables : (dropBuffer a s).tables = s.tables := by
  unfold dropBuffer
  split <;> simp

@[simp] theorem countTorn_tables : (countTorn a s).tables = s.tables := by
  unfold countTorn
  dsimp only
  (repeat' split) <;> simp

@[simp] theorem clearCut_tables : (clearCut m k s).tables = s.tables := by
  unfold clearCut
  (repeat' split) <;> simp

@[simp] theorem appendPowerCut_tables : (appendPowerCut a k s).tables = s.tables := by
  unfold appendPowerCut
  dsimp only
  (repeat' split) <;> simp

@[simp] theorem appendFaultCut_tables : (appendFaultCut a k s).tables = s.tables := by
  unfold appendFaultCut
  split <;> simp

theorem withSlot_tables {f : Slot → State → State} (h : ∀ k s, (f k s).tables = s.tables) : (withSlot a f s).tables = s.tables := by
  unfold withSlot
  split <;> simp [h]

@[simp] theorem powerCut_tables : (powerCut a s).tables = s.tables := by
  unfold powerCut
  dsimp only
  (repeat' split) <;> simp [withSlot_tables]

@[simp] theorem faultCut_tables : (faultCut a s).tables = s.tables := by
  unfold faultCut
  dsimp only
  (repeat' split) <;> simp [withSlot_tables]

@[simp] theorem takeStop_tables (c : Stop) : (takeStop a torn c s).tables = s.tables := by
  unfold takeStop
  (repeat' split) <;> simp

@[simp] theorem drainStop_tables : (drainStop a s).tables = s.tables := by
  unfold drainStop
  split <;> simp

theorem stopAtCommandEnd_tables {s t : State} {a : Access} (h : s.stopAtCommandEnd a = some t) : t.tables = s.tables := by
  revert h
  unfold State.stopAtCommandEnd
  (repeat' split) <;> intro h <;> cases h <;> simp

/-! ## Sectors read and written (R22, R123 to R131) -/

@[simp] theorem sectorEnds_tables : (sectorEnds a s).tables = s.tables := by
  unfold sectorEnds
  (repeat' split) <;> simp

@[simp] theorem appendSectorEnds_tables : (appendSectorEnds a k s).tables = s.tables := by
  unfold appendSectorEnds
  (repeat' split) <;> simp

@[simp] theorem sectorRead_tables (ws : List Word) (c : Option Condition) : (sectorRead a ws c s).tables = s.tables := by
  unfold sectorRead
  dsimp only
  (repeat' split) <;> simp

@[simp] theorem mapStoreDone_tables : (mapStoreDone n a s).tables = s.tables := by simp [mapStoreDone]

@[simp] theorem storeDone_tables : (storeDone s).tables = s.tables := by simp [storeDone]

@[simp] theorem countCommitted_tables : (countCommitted a s).tables = s.tables := by
  unfold countCommitted
  split <;> simp

@[simp] theorem countAppended_tables : (countAppended a k s).tables = s.tables := by simp [countAppended]

@[simp] theorem writeCounts_tables : (writeCounts a s).tables = s.tables := by
  unfold writeCounts
  dsimp only
  (repeat' split) <;> simp [withSlot_tables]

@[simp] theorem writeFails_tables : (writeFails a cause s).tables = s.tables := by
  unfold writeFails
  dsimp only
  (repeat' split) <;> simp [withSlot_tables]

@[simp] theorem checkAttemptFails_tables : (checkAttemptFails a s).tables = s.tables := by
  unfold checkAttemptFails
  (repeat' split) <;> simp

@[simp] theorem readBackFails_tables : (readBackFails a s).tables = s.tables := by
  unfold readBackFails
  dsimp only
  (repeat' split) <;> simp

@[simp] theorem markingSucceeds_tables : (markingSucceeds a k s).tables = s.tables := by simp [markingSucceeds]

@[simp] theorem markingFails_tables : (markingFails a cause k s).tables = s.tables := by simp [markingFails]

@[simp] theorem headerFill_tables : (headerFill a s).tables = s.tables := by
  unfold headerFill
  (repeat' split) <;> simp

@[simp] theorem afterData_tables : (afterData a s).tables = s.tables := by
  unfold afterData
  (repeat' split) <;> simp

@[simp] theorem beginPassage_tables : (beginPassage a s).tables = s.tables := by simp [beginPassage]

/-! ## The arbiter and the sweep's offer (R79 to R83, R167 to R169) -/

@[simp] theorem endProtectedChoices_tables : (endProtectedChoices s).tables = s.tables := by
  have hchoices : ∀ (fuel : Nat) (s : State), (protectedChoices fuel s).tables = s.tables := by
    intro fuel
    induction fuel with
    | zero => exact fun _ => rfl
    | succ fuel ih =>
      intro s
      unfold protectedChoices
      (repeat' split) <;> simp [ih]
  unfold endProtectedChoices logProtected
  split
  · rw [foldl_tables (fun _ _ => logFault_tables ..), hchoices]
  · rfl

@[simp] theorem beginStep_tables (sw : Sweep) (it : SweepItem) (x : Extent) : (beginStep sw it x m s).tables = s.tables := by
  unfold beginStep
  split <;> simp

@[simp] theorem offerSweep_tables : (offerSweep s).tables = s.tables := by
  unfold offerSweep takeOffer
  dsimp only
  (repeat' split) <;> simp

@[simp] theorem chooseAndGrant_tables : (chooseAndGrant s).tables = s.tables := by
  unfold chooseAndGrant
  split <;> simp

/-! ## The mount, up to its end (R150 to R153) -/

@[simp] theorem mountAdvance_tables : (mountAdvance s).tables = s.tables := by
  unfold mountAdvance beginLabelRead beginProbe
  (repeat' split) <;> simp

@[simp] theorem beginMount_tables : (beginMount s).tables = s.tables := by
  unfold beginMount
  dsimp only
  (repeat' split) <;> simp

@[simp] theorem seqDeparts_tables : (seqDeparts s).tables = s.tables := by
  unfold seqDeparts
  dsimp only
  (repeat' split) <;> simp

@[simp] theorem reportTornAppend_tables : (reportTornAppend s).tables = s.tables := by
  unfold reportTornAppend
  (repeat' split) <;> simp

/-! ## Frames and lines (R137 to R146, R175 to R178, R184) -/

@[simp] theorem rejectFrame_tables (v : Receiver) (tag : Nat) (reason : LinkReason) : (rejectFrame ch v tag reason n s).tables = s.tables := by
  simp [rejectFrame]

@[simp] theorem takeWord_tables (w : Word) : (takeWord ch w s).tables = s.tables := by
  unfold takeWord takeHeaderWord takeFrameWord takeLengthWord takeCheckWord
  (repeat' split) <;> simp

@[simp] theorem resetChannel_tables : (resetChannel ch s).tables = s.tables := by
  have hentry : ∀ (s : State) (e : Entry), (resetEntry ch s e).tables = s.tables := fun s e => by
    unfold resetEntry
    (repeat' split) <;> simp
  simp [resetChannel, foldl_tables hentry]

theorem onWriteAccess_tables {f : Access → State → State} (h : ∀ a s, (f a s).tables = s.tables) :
    (onWriteAccess f s).tables = s.tables := by
  unfold onWriteAccess
  (repeat' split) <;> simp [h]

@[simp] theorem askStop_tables (c : Stop) : (askStop c a s).tables = s.tables := by
  unfold askStop
  split <;> simp

@[simp] theorem askCut_tables : (askCut a s).tables = s.tables := by
  unfold askCut
  split <;> simp

@[simp] theorem powerStop_tables : (powerStop a s).tables = s.tables := by
  unfold powerStop
  split <;> simp

@[simp] theorem protectSweep_tables : (protectSweep s).tables = s.tables := by
  unfold protectSweep
  (repeat' split) <;> simp

@[simp] theorem cutByFault_tables : (cutByFault s).tables = s.tables := by
  unfold cutByFault
  (repeat' split) <;> simp

@[simp] theorem shutDown_tables : (shutDown s).tables = s.tables := by
  unfold shutDown takeBeginning
  dsimp only
  (repeat' split) <;> simp [onWriteAccess_tables]

@[simp] theorem monitorTakes_tables (l : Line) (active : Bool) : (monitorTakes l active s).tables = s.tables := by
  unfold monitorTakes periodChange beginPeriod endPeriod
  dsimp only
  (repeat' split) <;> simp

end Operations

end Sys2Proof.Machine
end

section
/-! PROOFS. O4: the laws of the claim records and of the extent table, kept by what writes the tables: a CLAIM, a lease's time, a MAP-LOAD,
a label loaded, a mount completed, a departure, a reset (R12, R14, R21, R33). -/

namespace Sys2Proof.Machine

open Sys2Proof.Safety

/-- A part of a step keeps the law of the claim records and the law of the extent table. -/
structure LawsKept (s t : State) : Prop where
  claims : ClaimsLawful s → ClaimsLawful t
  extents : ExtentsLawful s → ExtentsLawful t

theorem lawsKept_of_tables {s t : State} (h : t.tables = s.tables) : LawsKept s t :=
  ⟨claimsLawful_of_tables h, extentsLawful_of_tables h⟩

theorem LawsKept.refl (s : State) : LawsKept s s := ⟨id, id⟩

theorem LawsKept.trans {s t u : State} (h : LawsKept s t) (h' : LawsKept t u) : LawsKept s u :=
  ⟨h'.claims ∘ h.claims, h'.extents ∘ h.extents⟩

/-- The laws are kept from a state with the same tables. -/
theorem LawsKept.from {s t u : State} (h : LawsKept t u) (hs : t.tables = s.tables) : LawsKept s u := (lawsKept_of_tables hs).trans h

/-- The laws are kept to a state with the same tables. -/
theorem LawsKept.to {s t u : State} (h : LawsKept s t) (hu : u.tables = t.tables) : LawsKept s u := h.trans (lawsKept_of_tables hu)

theorem LawsKept.settled {s t : State} (h : LawsKept s t) : LawsKept s (settle t) := h.to (settle_tables t)

/-! ## Claim records (R33, R36, R37) -/

theorem claimLawful_free : claimLawful ClaimRecord.free = true := rfl

theorem pairLawful_iff (holder : Option Channel) (token : Nat) : pairLawful holder token = true ↔ (holder = none ↔ token = 0) := by
  rw [pairLawful, beq_iff_eq, Bool.eq_iff_iff, Option.isNone_iff_eq_none, beq_iff_eq]

/-- The law of a claim record, clause by clause. -/
theorem claimLawful_iff (c : ClaimRecord) :
    claimLawful c = true ↔ (c.holder = none ↔ c.token = 0) ∧ c.token ≤ 65535 ∧ (c.holder = none → c.lease = 0)
      ∧ (c.lease = 0 ∨ 100 ≤ c.lease ∧ c.lease ≤ 60000) ∧ c.remaining ≤ c.lease := by
  have hpair := pairLawful_iff c.holder c.token
  rw [pairLawful] at hpair
  simp only [claimLawful, Bool.and_eq_true, hpair, and_assoc]
  cases c.holder <;> simp

/-- A lease's time runs on (R37). -/
theorem claimLawful_tick {c : ClaimRecord} (h : claimLawful c = true) : claimLawful c.tick = true := by
  unfold ClaimRecord.tick
  split
  · exact h
  · rw [claimLawful_iff] at h ⊢
    obtain ⟨hpair, htoken, hnone, hlease, hrem⟩ := h
    exact ⟨hpair, htoken, hnone, hlease, (Nat.sub_le ..).trans hrem⟩

/-- The record that a CLAIM of good form asks for keeps the law (R35, R36). -/
theorem claimOperands_lawful {ch : Channel} {r : Request} {o : ClaimOperands} (h : claimOperands ch r = some o) :
    claimLawful o.record = true := by
  unfold claimOperands at h
  split at h
  next =>
    split at h
    next =>
      split at h
      next hform =>
        obtain ⟨-, -, hpair, hlease, hnone⟩ := hform
        obtain rfl := Option.some.inj h
        rw [claimLawful_iff]
        exact ⟨(pairLawful_iff ..).1 hpair, word_toNat_le _, hnone, hlease, le_refl _⟩
      next => cases h
    next => cases h
  next => cases h

theorem setClaim_lawsKept {x : ClaimTarget} {c : ClaimRecord} (hc : claimLawful c = true) (s : State) : LawsKept s (setClaim x c s) where
  claims h y := by
    by_cases hy : y = x
    · rw [hy, setClaim_claim_same]
      exact hc
    · rw [setClaim_claim_other hy]
      exact h y
  extents h := by
    simpa only [ExtentsLawful, State.extent, setClaim_extents] using h

theorem admitClaim_lawsKept (ch : Channel) (r : Request) (s : State) : LawsKept s (admitClaim ch r s) := by
  unfold admitClaim
  split
  · exact lawsKept_of_tables (by simp)
  · exact lawsKept_of_tables (by simp)
  · next o _ ho =>
    split
    · exact lawsKept_of_tables (by simp)
    · dsimp only
      split
      · refine (setClaim_lawsKept (x := o.target) (claimOperands_lawful ho) s).to ?_
        rw [complete_tables]
        split <;> simp
      · exact lawsKept_of_tables (by simp)

theorem clockTick_lawsKept {s t : State} (h : exec .clockTick s = .next t) : LawsKept s t := by
  obtain rfl := Host.Outcome.next.inj h
  refine ⟨fun hs x => ?_, fun hs => hs⟩
  cases x with
  | controller => exact claimLawful_tick (hs .controller)
  | extent k =>
    show claimLawful ((s.extClaims.map ClaimRecord.tick).get k) = true
    rw [get_map]
    exact claimLawful_tick (hs (.extent k))

/-- The extent claims all free, the controller claim and the extents as they were (R34, R153). -/
theorem claimsFreed_lawsKept {s t : State} (hctl : t.ctlClaim = s.ctlClaim) (hclaims : t.extClaims = Vector.replicate 32 ClaimRecord.free)
    (hext : ExtentsLawful s → ExtentsLawful t) : LawsKept s t := by
  refine ⟨fun hs x => ?_, hext⟩
  cases x with
  | controller =>
    show claimLawful t.ctlClaim = true
    rw [hctl]
    exact hs .controller
  | extent k =>
    show claimLawful (t.extClaims.get k) = true
    rw [hclaims, get_replicate]
    rfl

/-! ## A MAP-LOAD (R12, R29, R31) -/

theorem wellFormedDefinition_bounds {raw : RawDefinition} {d : Definition} (h : wellFormedDefinition raw = some d) :
    1 ≤ d.first ∧ d.first ≤ d.last ∧ d.last ≤ 319 := by
  unfold wellFormedDefinition at h
  split at h
  · split at h
    next hform =>
      obtain ⟨-, -, hbounds⟩ := hform
      obtain rfl := Option.some.inj h
      exact hbounds
    next => cases h
  · cases h

/-- Every definition that the changes carry is well formed (R14, R29). -/
theorem goodChanges_bounds {cs : List Change} {gs : List (Slot × Option Definition)} (h : goodChanges cs = some gs) {k : Slot}
    {d : Definition} (hd : (k, some d) ∈ gs) : 1 ≤ d.first ∧ d.first ≤ d.last ∧ d.last ≤ 319 := by
  induction cs generalizing gs with
  | nil =>
    obtain rfl := Option.some.inj h
    cases hd
  | cons c cs ih =>
    unfold goodChanges at h
    split at h
    next j rest _ hrest =>
      split at h
      · obtain rfl := Option.some.inj h
        exact ih hrest (by simpa using hd)
      · next raw _ =>
        obtain ⟨d', hd', rfl⟩ := Option.map_eq_some_iff.1 h
        rcases List.mem_cons.1 hd with heq | hin
        · obtain rfl : d = d' := by simpa using congrArg Prod.snd heq
          exact wellFormedDefinition_bounds hd'
        · exact ih hrest hin
    next => cases h

/-- A change to a well-formed definition leaves a lawful extent (R21, R31). -/
theorem changedExtent_lawful {before : Option Extent} {d : Definition} {e : Extent} (hb : ∀ x, before = some x → extentLawful x)
    (hd : 1 ≤ d.first ∧ d.first ≤ d.last ∧ d.last ≤ 319) (he : changedExtent before (some d) = some e) : extentLawful e := by
  obtain ⟨hfirst, horder, hlast⟩ := hd
  obtain rfl := Option.some.inj ((changedExtent_some before d).symm.trans he)
  refine ⟨hfirst, horder, hlast, ?_⟩
  by_cases hk : d.kind = .append
  · refine iff_of_true ?_ hk
    by_cases hkept : ∃ x, before = some x ∧ x.defn.kind = .append ∧ x.defn.first = d.first ∧ x.defn.last = d.last
    · obtain ⟨x, rfl, hx, hf, hl⟩ := hkept
      obtain ⟨-, -, -, hfill⟩ := hb x rfl
      obtain ⟨g, hg⟩ := Option.isSome_iff_exists.1 (hfill.2 hx)
      rw [changedFill_kept hk hx hf hl hg]
      rfl
    · rw [changedFill_new hk (fun x hx hsame => hkept ⟨x, hx, hsame⟩)]
      rfl
  · rw [changedFill_other before hk]
    exact iff_of_false Bool.false_ne_true hk

theorem applyChanges_claimsLawful (ch : Channel) (gs : List (Slot × Option Definition)) {s : State} (h : ClaimsLawful s) :
    ClaimsLawful (gs.foldl (applyChange ch) s) := by
  induction gs generalizing s with
  | nil => exact h
  | cons g gs ih =>
    refine ih (fun x => ?_)
    cases x with
    | controller =>
      rw [show (applyChange ch s g).claim .controller = s.claim .controller from ctlClaim_of_control (applyChange_control ..)]
      exact h .controller
    | extent k =>
      rw [applyChange_claim]
      split
      · rfl
      · exact h (.extent k)

/-- Where the changes leave an extent, it is lawful, and its definition is one that the checks of R29 have looked at. -/
theorem applyChanges_extent {cs : List Change} {gs : List (Slot × Option Definition)} (hg : goodChanges cs = some gs)
    (hn : (gs.map (fun g => g.1)).Nodup) (ch : Channel) {s : State} (hs : ∀ k e, s.extent k = some e → extentLawful e) {k : Slot}
    {e : Extent} (he : (gs.foldl (applyChange ch) s).extent k = some e) :
    extentLawful e ∧ ((k, some e.defn) ∈ gs ∨ ((∀ g ∈ gs, g.1 ≠ k) ∧ ∃ x, s.extent k = some x ∧ x.defn = e.defn)) := by
  by_cases hk : ∃ g ∈ gs, g.1 = k
  · obtain ⟨⟨j, change⟩, hin, rfl⟩ := hk
    rw [(applyChanges_named hn hin ch s).1] at he
    cases change with
    | none => cases he
    | some d =>
      have hlaw := changedExtent_lawful (fun x hx => hs j x hx) (goodChanges_bounds hg hin) he
      obtain rfl := Option.some.inj ((changedExtent_some (s.extent j) d).symm.trans he)
      exact ⟨hlaw, .inl hin⟩
  · have hout : ∀ g ∈ gs, g.1 ≠ k := fun g hin h => hk ⟨g, hin, h⟩
    rw [(applyChanges_unnamed hout ch s).1] at he
    exact ⟨hs k e he, .inr ⟨hout, e, he, rfl⟩⟩

theorem applyChanges_lawsKept {s : State} {cs : List Change} {gs : List (Slot × Option Definition)} (hg : goodChanges cs = some gs)
    (hn : (gs.map (fun g => g.1)).Nodup) (hshare : ¬ MapShares s gs) (ch : Channel) : LawsKept s (gs.foldl (applyChange ch) s) := by
  refine ⟨applyChanges_claimsLawful ch gs, fun ⟨hformed, _⟩ => ⟨fun k e he => (applyChanges_extent hg hn ch hformed he).1,
    fun j k d e hjk hd he => ?_⟩⟩
  obtain ⟨-, hdheld⟩ := applyChanges_extent hg hn ch hformed hd
  obtain ⟨-, heheld⟩ := applyChanges_extent hg hn ch hformed he
  rw [Definition.overlaps, decide_eq_false_iff_not]
  exact fun hover => hshare ⟨j, k, d.defn, e.defn, hjk, hdheld, heheld, hover⟩

/-- The changes that pass the checks of R29 name no slot twice and leave no shared cylinder. -/
theorem changesCheck_none {s : State} {ch : Channel} {gs : List (Slot × Option Definition)} (h : s.changesCheck ch gs = none) :
    (gs.map (fun g => g.1)).Nodup ∧ ¬ MapShares s gs := by
  by_contra hbad
  rw [changesCheck_badMap (by tauto)] at h
  cases h

theorem admitMapLoad_lawsKept (ch : Channel) (r : Request) (s : State) : LawsKept s (admitMapLoad ch r s) := by
  unfold admitMapLoad
  split
  · exact lawsKept_of_tables (by simp)
  · exact lawsKept_of_tables (by simp)
  · split
    · exact lawsKept_of_tables (by simp)
    · exact lawsKept_of_tables (by simp)
    · split
      · exact lawsKept_of_tables (by simp)
      · next gs hg =>
        split
        · exact lawsKept_of_tables (by simp)
        · next hcheck =>
          obtain ⟨hn, hshare⟩ := changesCheck_none hcheck
          exact (applyChanges_lawsKept hg hn hshare ch).to (by simp)

/-! ## The mount (R11, R34, R151 to R153) -/

theorem mountComplete_lawsKept (s : State) : LawsKept s (mountComplete s) := claimsFreed_lawsKept rfl rfl id

theorem searchFrom_lawsKept (i : Nat) (s : State) : LawsKept s (searchFrom i s) := by
  unfold searchFrom
  split
  · exact mountComplete_lawsKept s
  · split
    · exact lawsKept_of_tables (by simp)
    · exact .refl s

/-- The extents that a valid label's map gives keep the law of the table (R11, conditions 5 and 6). -/
theorem mountedMap_lawful {l : Label} (hl : LabelLawful l) {t : State}
    (ht : t.extents = (l.map.map (fun r => r.bind wellFormedDefinition)).map (fun d => d.map mountedExtent)) : ExtentsLawful t := by
  obtain ⟨-, -, -, hapart, -⟩ := hl
  have hslot : ∀ k e, t.extent k = some e → ∃ d, (l.map.get k).bind wellFormedDefinition = some d ∧ mountedExtent d = e := by
    intro k e he
    rw [State.extent, ht, get_map, get_map] at he
    exact Option.map_eq_some_iff.1 he
  refine ⟨fun k e he => ?_, fun j k d e hjk hd he => ?_⟩
  · obtain ⟨d, hd, rfl⟩ := hslot k e he
    obtain ⟨raw, -, hraw⟩ := Option.bind_eq_some_iff.1 hd
    obtain ⟨hfirst, horder, hlast⟩ := wellFormedDefinition_bounds hraw
    refine ⟨hfirst, horder, hlast, ?_⟩
    by_cases hk : d.kind = .append <;> simp [mountedExtent, hk]
  · obtain ⟨x, hx, rfl⟩ := hslot j d hd
    obtain ⟨y, hy, rfl⟩ := hslot k e he
    have happ := hapart j k x y hjk hx hy
    show x.overlaps y = false
    rw [Definition.overlaps, decide_eq_false_iff_not]
    omega

theorem labelFound_lawsKept (l : Option Label) (s : State) : LawsKept s (labelFound l s) := by
  unfold labelFound
  split
  · next m ds l htest =>
    have hlawful : LabelLawful l := labelLawful_of_test (by rw [show testLabel l = some (m, ds) from htest]; rfl)
    have hmap : (m, ds) = _ := Option.some.inj (htest.symm.trans (testLabel_lawful hlawful).1)
    obtain ⟨rfl, rfl⟩ := Prod.mk.inj hmap
    refine LawsKept.trans ⟨fun h x => ?_, fun _ => mountedMap_lawful hlawful rfl⟩ (searchFrom_lawsKept 0 _)
    cases x with
    | controller => exact h .controller
    | extent k => exact h (.extent k)
  · exact (mountComplete_lawsKept _).from rfl

theorem probeFound_lawsKept (found : Option HeaderState) (s : State) : LawsKept s (probeFound found s) := by
  have hset : ∀ (k : Slot) (f : Fill → Fill), LawsKept s (searchFrom (k.val + 1) (updFill k f s)) :=
    fun k f => (searchFrom_lawsKept _ _).from (by simp)
  have hgo : ∀ (k : Slot) (lo hi : Nat), LawsKept s
      (if lo < hi then mountAdvance (setMount (.search k lo hi) s)
       else searchFrom (k.val + 1) (updFill k (fun f => { f with mark := lo, state := .known }) s)) := by
    intro k lo hi
    split
    · exact lawsKept_of_tables (by simp)
    · exact hset k _
  unfold probeFound
  split
  · split
    · exact hset _ _
    · exact hgo _ _ _
  · exact .refl s

theorem mountAccessEnds_lawsKept {f : State → State} (hf : ∀ s, LawsKept s (f s)) (s : State) : LawsKept s (mountAccessEnds f s) := by
  unfold mountAccessEnds
  dsimp only
  split
  · exact (hf _).from (by simp)
  · exact lawsKept_of_tables (by simp)

end Sys2Proof.Machine
end

section
/-! PROOFS. O4: what every command keeps of the laws of R12, R14, R21 and R33, and so every step. -/

namespace Sys2Proof.Machine

open Sys2Proof.Safety

/-! ## Passages that may end an access of a mount (R117, R122, R124, R125, R152) -/

theorem readAttemptFails_lawsKept (a : Access) (cause : DefectCause) (s : State) : LawsKept s (readAttemptFails a cause s) := by
  unfold readAttemptFails readFails
  dsimp only
  split
  · exact lawsKept_of_tables (by simp)
  · split
    · exact lawsKept_of_tables (by simp)
    · split
      · exact lawsKept_of_tables (by simp)
      · exact lawsKept_of_tables (by simp)
      · exact (mountAccessEnds_lawsKept (labelFound_lawsKept none) _).from (by simp)
      · exact (mountAccessEnds_lawsKept (probeFound_lawsKept none) _).from (by simp)
      · exact lawsKept_of_tables (by simp)

theorem checkFails_lawsKept (a : Access) (s : State) : LawsKept s (checkFails a s) := by
  unfold checkFails
  split
  · exact lawsKept_of_tables (by simp [withSlot_tables])
  · exact lawsKept_of_tables (by simp [withSlot_tables])
  · exact lawsKept_of_tables (by simp)
  · split
    · exact lawsKept_of_tables (by simp)
    · exact readAttemptFails_lawsKept a .header s

theorem readHeader_lawsKept (a : Access) (st : HeaderState) (s : State) : LawsKept s (readHeader a st s) := by
  unfold readHeader
  split
  · exact (mountAccessEnds_lawsKept (probeFound_lawsKept _) s).settled
  · exact (mountAccessEnds_lawsKept (labelFound_lawsKept none) s).settled
  · exact (mountAccessEnds_lawsKept (labelFound_lawsKept none) s).settled
  all_goals exact lawsKept_of_tables (by simp)

theorem headerChecked_lawsKept (a : Access) (c : AddressCheck) (s : State) : LawsKept s (headerChecked a c s) := by
  have hfails : LawsKept s (settle (checkFails a s)) := (checkFails_lawsKept a s).settled
  have hgate : LawsKept s (openGate a s) := lawsKept_of_tables (by simp)
  unfold headerChecked
  split
  · exact lawsKept_of_tables (by simp [withSlot_tables])
  · exact hfails
  · exact .refl s
  · exact hgate
  · split
    · exact hgate
    · exact hfails
  · exact hfails
  · split
    · exact hgate
    · exact readHeader_lawsKept a _ s
  · split
    · exact hgate
    · exact hfails
  · exact hfails

theorem seekFails_lawsKept (a : Access) (s : State) : LawsKept s (seekFails a s) := by
  unfold seekFails
  split
  · exact lawsKept_of_tables (by simp [withSlot_tables, fillAsLastDone])
  · exact lawsKept_of_tables (by simp)
  · exact mountAccessEnds_lawsKept (labelFound_lawsKept none) s
  · exact mountAccessEnds_lawsKept (probeFound_lawsKept none) s
  · exact lawsKept_of_tables (by simp)
  · exact lawsKept_of_tables (by simp)

theorem accessGoesOn_lawsKept (a : Access) (restored : Bool) (s : State) : LawsKept s (accessGoesOn a restored s) := by
  unfold accessGoesOn
  split
  · next hstop => exact lawsKept_of_tables (by rw [settle_tables, stopAtCommandEnd_tables hstop])
  · split
    · exact (seekFails_lawsKept a s).settled
    · exact lawsKept_of_tables (by simp)

theorem searchPulse_lawsKept (a : Access) (before : Option Nat) (s : State) : LawsKept s (searchPulse a before s) := by
  unfold searchPulse
  split
  · exact lawsKept_of_tables (by simp)
  · split
    · split
      · exact ((checkFails_lawsKept a _).from (updAccess_tables s _)).settled
      · exact lawsKept_of_tables (by simp)
    · exact lawsKept_of_tables (by simp)

theorem goodField_lawsKept (a : Access) (f : FieldImage) (s : State) : LawsKept s (goodField a f s) := by
  unfold goodField
  split
  · exact mountAccessEnds_lawsKept (labelFound_lawsKept _) s
  · exact lawsKept_of_tables (by simp)
  · exact lawsKept_of_tables (by simp)

/-! ## Departure and reset (R13, R34, R44, R137, R155) -/

/-- A table with no extent, the extent claims free and the controller claim as it was. -/
theorem emptied_lawsKept {s t : State} (h : t.tables = (Vector.replicate 32 none, s.ctlClaim, Vector.replicate 32 ClaimRecord.free)) :
    LawsKept s t := by
  have hnone : ∀ k, t.extent k = none := fun k => by
    have hget := tables_get t k
    rw [h, get_replicate] at hget
    exact Option.map_eq_none_iff.1 hget.symm
  simp only [State.tables, Prod.mk.injEq] at h
  obtain ⟨-, hctl, hclaims⟩ := h
  exact claimsFreed_lawsKept hctl hclaims
    (fun _ => ⟨fun k e he => by simp [hnone k] at he, fun j _ d _ _ hd => by simp [hnone j] at hd⟩)

theorem depart_lawsKept (s : State) : LawsKept s (depart s) := by
  unfold depart
  split
  · exact .refl s
  · refine emptied_lawsKept ?_
    have hctl : ∀ t : State, t.tables = s.tables → t.ctlClaim = s.ctlClaim := fun t h => congrArg (fun v => v.2.1) h
    simp only [retakeStage_tables, raiseBoth_tables, tables_mk, Vector.map_replicate, Option.map_none]
    rw [hctl _ ?_]
    split <;> simp

theorem powerOnReset_lawsKept (levels : LineSet) (s : State) : LawsKept s (s.afterPowerOn levels) := by
  obtain ⟨hclaims, -, -, -, -, -, -, -, -, hextents, -⟩ := reset_lawful
  have htables : (s.afterPowerOn levels).tables = State.reset.tables := rfl
  exact ⟨fun _ => claimsLawful_of_tables htables hclaims, fun _ => extentsLawful_of_tables htables hextents⟩

/-! ## The commands -/

theorem LawsKept.of_next {s t u : State} (hk : LawsKept s u) (h : (.next u : Host.Outcome State Fault Refusal) = .next t) : LawsKept s t :=
  Host.Outcome.next.inj h ▸ hk

theorem takeRequest_lawsKept {kind : ReqKind} {f : Channel → Request → State → State} {ch : Channel} {s : State}
    (hf : ∀ r, LawsKept s (f ch r s)) : LawsKept s (takeRequest kind f ch s) := by
  unfold takeRequest
  split
  · split
    · exact hf _
    · exact .refl s
  · exact .refl s

theorem lineChange_lawsKept {act : State → State} (hact : ∀ u, LawsKept u (act u)) (l : Line) (active : Bool) (s : State) :
    LawsKept s (lineChange l active act s) := by
  have howner : ∀ u, LawsKept u (ownerTakes l active act u) := fun u => by
    unfold ownerTakes
    split
    · exact .refl u
    · exact (hact _).from rfl
  have hmonitor : ∀ u, LawsKept u (monitorTakes l active u) := fun u => lawsKept_of_tables (by simp)
  have hrest : LawsKept s { s with takers := s.takers.tail } := lawsKept_of_tables rfl
  unfold lineChange
  dsimp only
  split
  · exact hrest.trans (hmonitor _)
  · exact hrest.trans (howner _)
  · exact (hrest.trans (hmonitor _)).trans (howner _)
  · exact (hrest.trans (hmonitor _)).trans (howner _)

theorem seekTimeout_tables {s t : State} (h : exec .seekTimeout s = .next t) : t.tables = s.tables := by
  obtain rfl := Host.Outcome.next.inj h
  split
  · dsimp only
    split
    · next u hstop =>
      obtain ⟨a, -, hstop⟩ := Option.bind_eq_some_iff.1 hstop
      rw [settle_tables, issueRestore_tables, stopAtCommandEnd_tables hstop, updSeq_tables]
    · simp
  · rfl

theorem enterOffline_tables (s : State) : (enterOffline s).tables = s.tables := rfl

theorem olderGone_tables (a : Access) (s : State) : (olderGone a s).tables = s.tables := by
  unfold olderGone
  split <;> simp

@[simp] theorem putHeader_tables (i : Nat) (hr : HeaderRecord) (s : State) : (putHeader i hr s).tables = s.tables := by
  unfold putHeader
  split <;> rfl

@[simp] theorem putData_tables (i : Nat) (st : HeaderState) (d : DataRecord) (s : State) : (putData i st d s).tables = s.tables := by
  unfold putData
  split <;> rfl

theorem exec_lawsKept (c : Instr) {s t : State} (h : exec c s = .next t) : LawsKept s t := by
  cases c
  case claim ch => exact (takeRequest_lawsKept (fun r => admitClaim_lawsKept ch r s)).of_next h
  case mapLoad ch => exact (takeRequest_lawsKept (fun r => admitMapLoad_lawsKept ch r s)).of_next h
  case read ch | write ch | append ch | flush ch | cancel ch | mapRead ch | mapStore ch | defectRead ch | clear ch | scan ch
      | sweepHalt ch | context ch | settingsLoad ch | status ch | eventAck ch | faultRead ch | timeSet ch =>
    exact (takeRequest_lawsKept (fun r => lawsKept_of_tables (by simp))).of_next h
  case powerOnReset levels =>
    refine ((powerOnReset_lawsKept levels s).to ?_).of_next h
    split <;> simp
  case clockTick => exact clockTick_lawsKept h
  case leaseExpiry x =>
    refine LawsKept.of_next ?_ h
    split
    · exact (setClaim_lawsKept (x := x) claimLawful_free s).to (raiseBoth_tables ..)
    · exact .refl s
  case seekTimeout => exact lawsKept_of_tables (seekTimeout_tables h)
  case seekDone =>
    refine LawsKept.of_next ?_ h
    split
    · dsimp only
      split
      · exact (accessGoesOn_lawsKept ..).from rfl
      · exact lawsKept_of_tables (by simp [arrive])
    · exact .refl s
  case sectorPulse index =>
    refine LawsKept.of_next ?_ h
    dsimp only
    split
    · exact (searchPulse_lawsKept ..).from rfl
    · exact lawsKept_of_tables rfl
  case headerReadComplete hd =>
    refine LawsKept.of_next ?_ h
    split
    · exact (headerChecked_lawsKept ..).from (by simp)
    · exact .refl s
  case dataReadComplete f =>
    refine LawsKept.of_next ?_ h
    split
    · refine LawsKept.settled ?_
      split
      · exact goodField_lawsKept _ f s
      · exact readAttemptFails_lawsKept _ .read s
    · exact .refl s
  case restoreTimeout =>
    refine LawsKept.of_next ?_ h
    split
    · refine (LawsKept.trans ?_ ((depart_lawsKept _).from (enterOffline_tables _))).settled
      split
      · split
        · exact (seekFails_lawsKept ..).from (olderGone_tables ..)
        · exact .refl s
      · exact .refl s
    · exact .refl s
  case faultPersistenceExpiry =>
    refine LawsKept.of_next ?_ h
    split
    · refine ((depart_lawsKept s).to ?_).settled
      split <;> simp
    · exact .refl s
  case readyInactive =>
    exact (lineChange_lawsKept (fun u => ((depart_lawsKept _).from (by simp [enterNoCartridge])).settled) ..).of_next h
  case doorOpen => exact (lineChange_lawsKept (fun u => (depart_lawsKept u).settled) ..).of_next h
  case readyActive | doorClose | unloadPressed | unloadReleased | protectActive | protectInactive | faultActive | faultInactive
      | powerActive | powerInactive =>
    refine (lineChange_lawsKept (fun u => lawsKept_of_tables ?_) ..).of_next h
    (repeat' split) <;> simp [onWriteAccess_tables, beginDrain, cutMount]
  case deadlineExpiry ch tag =>
    refine (lawsKept_of_tables ?_).of_next h
    split
    · rfl
    · dsimp only
      split <;> simp
  case readBackComplete hd f =>
    refine (lawsKept_of_tables ?_).of_next h
    split
    · dsimp only
      split <;> simp
    · rfl
  case drainTimerExpiry =>
    refine (lawsKept_of_tables ?_).of_next h
    split
    · dsimp only
      (repeat' split) <;> simp
    · rfl
  all_goals
    refine (lawsKept_of_tables ?_).of_next h
    (repeat' split) <;> simp [deliver, dataWritten]

theorem step_lawsKept {s t : State} (h : step s = .next t) : LawsKept s t := by
  unfold step at h
  split at h
  · exact (LawsKept.refl s).of_next h
  · next c rest _ => exact (exec_lawsKept c h).from rfl

end Sys2Proof.Machine

namespace Sys2Proof.Proofs

open Sys2Proof.Machine Sys2Proof.Safety

/-- Settles O4: every command changes the extents and the claims only through operations that keep the laws of R12, R14, R21 and R33, or leaves
them as they are, and a step runs one command. -/
theorem stepKeepsClaimsAndExtentsLawful : Obligations.StepKeepsClaimsAndExtentsLawful :=
  ⟨fun _ _ hs h => (step_lawsKept h).claims hs, fun _ _ hs h => (step_lawsKept h).extents hs⟩

end Sys2Proof.Proofs
end

section
/-! PROOFS. O24: a CLAIM compares and replaces in one step (R35, R36, R38). -/

namespace Sys2Proof.Machine

open Sys2Proof.Safety

theorem claimVolume_none {s : State} {ch : Channel} (hv : s.volume.state = .mounted ∨ s.volume.state = .draining) (hf : Fresh ch s) :
    s.claimVolume ch = none := by
  have hs := stale_of_fresh hf
  rcases hv with hv | hv <;> simp [State.claimVolume, State.noVolume, State.volumeClosing, firstFail, hv, hs]

/-- Checks 5 to 7 of R35 pass for the controller claim, and for a present extent of a volume whose generation the channel has seen. -/
theorem claimTargetCheck_none {s : State} {ch : Channel} {x : ClaimTarget} (h : ∀ k, x = .extent k →
    (s.volume.state = .mounted ∨ s.volume.state = .draining) ∧ Fresh ch s ∧ (s.extent k).isSome) : s.claimTargetCheck ch x = none := by
  cases x with
  | controller => rfl
  | extent k =>
    obtain ⟨hv, hf, he⟩ := h k rfl
    obtain ⟨e, he⟩ := Option.isSome_iff_exists.1 he
    simp [State.claimTargetCheck, claimVolume_none hv hf, he]

/-- A CLAIM that passes the checks of R35, with the record it compares. -/
theorem admitClaim_checked {ch : Channel} {r : Request} {o : ClaimOperands} {s : State} (htag : s.tagCheck ch r = none)
    (ho : claimOperands ch r = some o) (hx : s.claimTargetCheck ch o.target = none) :
    admitClaim ch r s =
      if (s.claim o.target).holder = o.expHolder ∧ (s.claim o.target).token = o.expToken then
        complete ch r .done (.claim (s.claim o.target).value)
          (if o.newHolder = (s.claim o.target).holder then setClaim o.target o.record s
           else raise ch.other .claimChange (setClaim o.target o.record s))
      else complete ch r .claimMismatch (.claim (s.claim o.target).value) s := by
  simp only [admitClaim, htag, ho, hx, ne_eq, ite_not]

theorem setClaim_repliesLawful (x : ClaimTarget) (c : ClaimRecord) {s : State} (h : RepliesLawful s) : RepliesLawful (setClaim x c s) := by
  cases x <;> exact h

/-- An event leaves the reply queues and due lists as they are. -/
theorem raise_repliesLawful (ch : Channel) (ev : EventKind) {s : State} (h : RepliesLawful s) : RepliesLawful (raise ch ev s) :=
  repliesLawful_congr h (fun c => by cases ch <;> cases c <;> exact ⟨rfl, rfl⟩)

end Sys2Proof.Machine

namespace Sys2Proof.Proofs

open Sys2Proof.Machine Sys2Proof.Safety

/-- Settles O24, by the two outcomes of the comparison. -/
theorem claimComparesAndReplaces : Obligations.ClaimComparesAndReplaces := by
  intro ch r o s ⟨hst, hk, htag, h255⟩ ho htarget hl old value u
  have hexec : exec (.claim ch) s = .next (admitClaim ch r s) := exec_commandOf hst hk
  rw [hexec, admitClaim_checked (tagCheck_none htag h255) ho (claimTargetCheck_none htarget)]
  have hu : RepliesLawful u := setClaim_repliesLawful _ _ hl
  refine ⟨fun heq => congrArg _ ?_, fun hne => congrArg _ ?_⟩
  · rw [if_pos heq]
    by_cases hsame : o.newHolder = old.holder
    · rw [if_pos hsame, if_pos hsame]
      exact complete_of_lawful hu ..
    · rw [if_neg hsame, if_neg hsame]
      exact complete_of_lawful (raise_repliesLawful _ _ hu) ..
  · rw [if_neg hne]
    exact complete_of_lawful hl ..

end Sys2Proof.Proofs
end

section
/-! PROOFS. The end of a sweep with its completion placed, and an item given its result (R167, R173, R177). -/

namespace Sys2Proof.Machine

open Sys2Proof.Safety

/-! ## A sweep's completion, due and placed -/

/-- A port that keeps the law of R177 has nothing to place. -/
theorem placeDue_of_port {ch : Channel} {s : State} (h : (s.port ch).due ≠ [] → (s.port ch).queue.length = 4) : placeDue ch s = s := by
  by_cases hd : (s.port ch).due = []
  · exact placeDue_of_empty hd
  · exact placeDue_of_full (h hd)

/-- Placing at both channels is placing at one when the other keeps the law of R177. -/
theorem placeBoth_of_other {ch : Channel} {s : State} (h : (s.port ch.other).due ≠ [] → (s.port ch.other).queue.length = 4) :
    placeBoth s = placeDue ch s := by
  unfold placeBoth
  cases ch with
  | A =>
    obtain ⟨hq, hd⟩ := placeDue_other .A s
    exact placeDue_of_port (fun hne => by
      rw [show Channel.B = Channel.other .A from rfl] at hne ⊢
      rw [hd] at hne
      rw [hq]
      exact h hne)
  | B => rw [placeDue_of_port (ch := .A) h]

theorem updPort_congr {ch : Channel} {s : State} {f g : Port → Port} (h : f (s.port ch) = g (s.port ch)) :
    s.updPort ch f = s.updPort ch g :=
  congrArg (fun p => ({ s with ports := s.ports.set ch p } : State)) h

/-- A sweep's completion joins the queue, or becomes the youngest due reply when the queue is full (R173, R177). -/
theorem placeBoth_addDue_sweep {s : State} (hl : RepliesLawful s) (ch : Channel) (c : Completion) :
    placeBoth (addDue ch (.sweep c) s) = s.updPort ch (fun p =>
      if p.queue.length < 4 then { p with queue := p.queue ++ [.completion c] } else { p with due := p.due ++ [.sweep c] }) := by
  obtain ⟨hroom, hfull⟩ := hl ch
  rw [placeBoth_of_other (ch := ch) (by rw [addDue, updPort_port_other]; exact (hl ch.other).2)]
  by_cases hq : (s.port ch).queue.length < 4
  · have hd : (s.port ch).due = [] := by
      by_contra hne
      exact absurd (hfull hne) hq.ne
    rw [placeDue, addDue, updPort_port_same, hd]
    simp only [List.nil_append, placeList, updPort_port_same, hq, if_true, placeReply, updPort_updPort]
    exact updPort_congr (by rw [if_pos hq, ← hd])
  · rw [placeDue_of_full (by rw [addDue, updPort_port_same]; exact hroom.antisymm (not_lt.1 hq)), addDue]
    exact updPort_congr (by rw [if_neg hq])

/-! ## The end of a sweep -/

theorem markSlots_extent (on : Bool) (ks : List Slot) (s : State) (k : Slot) :
    (markSlots on ks s).extent k = if k ∈ ks then (s.extent k).map (fun e => { e with clearing := on }) else s.extent k := by
  induction ks generalizing s with
  | nil => rfl
  | cons j ks ih =>
    have hstep : markSlots on (j :: ks) s = markSlots on ks (updExtent j (fun e => { e with clearing := on }) s) := rfl
    rw [hstep, ih, updExtent_extent]
    by_cases hj : k = j
    · subst hj
      cases s.extent k <;> simp
    · simp [hj]

/-- The sweep gone, its marks cleared and SWEEP-END set at both ports, with no completion made yet (R173). -/
def sweepGone (sw : Sweep) (s : State) : State :=
  raiseBoth .sweepEnd { s with
    extents := Vector.ofFn (fun k => if sw.items.any (fun it => it.slot = k) then
      (s.extents.get k).map (fun e => { e with clearing := false }) else s.extents.get k)
    sweep := none, sweepSeen := true }

theorem sweepGone_repliesLawful (sw : Sweep) {s : State} (h : RepliesLawful s) : RepliesLawful (sweepGone sw s) :=
  repliesLawful_congr h (fun c => by cases c <;> exact ⟨rfl, rfl⟩)

theorem markSlots_items (sw : Sweep) (s : State) :
    (markSlots false (sw.items.map (fun it => it.slot)) s).extents =
      Vector.ofFn (fun k => if sw.items.any (fun it => it.slot = k) then
        (s.extents.get k).map (fun e => { e with clearing := false }) else s.extents.get k) := by
  ext k hk : 1
  rw [Vector.getElem_ofFn]
  refine (markSlots_extent false (sw.items.map (fun it => it.slot)) s ⟨k, hk⟩).trans ?_
  congr 1
  simp [List.mem_map, List.any_eq_true]

theorem endSweep_eq {s : State} {sw : Sweep} (hsw : s.sweep = some sw) (cause : Option StopCause) :
    endSweep cause s =
      if sw.discard then sweepGone sw s else addDue sw.channel (.sweep (sw.completion cause)) (sweepGone sw s) := by
  unfold endSweep sweepGone
  rw [hsw]
  dsimp only
  rw [markSlots_frame, markSlots_items]

/-- The sweep over, with its completion placed, as claims say it (R173). -/
theorem placeBoth_endSweep {s : State} {sw : Sweep} (hsw : s.sweep = some sw) (hl : RepliesLawful s) {cause : Option StopCause}
    {result : Nat → SweepItem → SweepResult} (hres : sw.fillResults cause = sw.items.mapIdx (fun i it => (it.slot, result i it))) :
    placeBoth (endSweep cause s) = sweepOver sw (sweepOutcome cause) result s := by
  have hgone : RepliesLawful (sweepGone sw s) := sweepGone_repliesLawful sw hl
  rw [endSweep_eq hsw, sweepOver]
  split
  · exact placeBoth_of_lawful hgone
  · rw [placeBoth_addDue_sweep hgone, Sweep.completion, hres]
    rfl

/-! ## An item given its result (R167, R173) -/

theorem fillResults_none (sw : Sweep) :
    sw.fillResults none = sw.items.mapIdx (fun _ it => (it.slot, it.result.getD .partly)) := by
  unfold Sweep.fillResults
  congr 1
  funext i it
  cases it.result <;> rfl

/-- A sweep with a result given to one of its items. -/
def Sweep.resulted (sw : Sweep) (i : Nat) (r : SweepResult) : Sweep :=
  { sw with items := sw.items.modify i (fun it => { it with result := some r }) }

theorem giveResult_next {s : State} {sw : Sweep} {i : Nat} (hsw : s.sweep = some sw) (hi : sw.current = some i)
    (hnext : i + 1 < sw.items.length) (r : SweepResult) : giveResult r s = itemDone sw i r s := by
  simp only [giveResult, hsw, Sweep.updCurrent, hi, nextItem, List.length_modify, hnext, if_true, itemDone]

theorem giveResult_last {s : State} {sw : Sweep} {i : Nat} (hsw : s.sweep = some sw) (hi : sw.current = some i)
    (hlast : ¬ i + 1 < sw.items.length) (r : SweepResult) :
    giveResult r s = endSweep none { s with sweep := some (sw.resulted i r) } := by
  simp only [giveResult, hsw, Sweep.updCurrent, hi, nextItem, List.length_modify, hlast, if_false, Sweep.resulted]

/-- A result given in a MOUNTED volume, and the step settled. -/
theorem settle_giveResult {s : State} {sw : Sweep} {i : Nat} (hsw : s.sweep = some sw) (hi : sw.current = some i) (hl : RepliesLawful s)
    (hv : s.volume.state = .mounted) (r : SweepResult) : SameButReservations (itemDone sw i r s) (settle (giveResult r s)) := by
  by_cases hnext : i + 1 < sw.items.length
  · rw [giveResult_next hsw hi hnext, itemDone, if_pos hnext]
    exact settle_of_sameBut (sameBut_refl _) hl hv
  · have hplaced : placeBoth (endSweep none { s with sweep := some (sw.resulted i r) }) = itemDone sw i r s :=
      (placeBoth_endSweep (s := { s with sweep := some (sw.resulted i r) }) rfl hl (fillResults_none _)).trans (if_neg hnext).symm
    have hvol : (endSweep none { s with sweep := some (sw.resulted i r) }).volume.state = .mounted := by
      rw [endSweep_frame]
      exact hv
    rw [giveResult_last hsw hi hnext, ← hplaced]
    exact settle_bare (by simp [hvol]) (by simp [hvol])

end Sys2Proof.Machine
end

section
/-! PROOFS. O40: the drive offered to a running sweep (R42, R100, R167, R168, R169). -/

namespace Sys2Proof.Machine

open Sys2Proof.Safety

/-- ARBITER_CHOICE with nothing eligible offers the drive to the sweep. -/
theorem arbiterChoice_offers {s : State} (ha : s.seq.access = none) (hi : s.seq.state = .idle) (hnone : s.candidates = []) :
    exec .arbiterChoice s = .next (settle (offerSweep s)) := by
  have hfree : s.driveFree = true := (driveFree_iff s).2 ⟨ha, hi⟩
  have hchoose : choose s.direction (s.seq.cylinder.getD 0) s.candidates = (none, s.direction) := by
    rw [hnone]
    rfl
  have hend : endProtectedChoices s = s := endProtectedChoices_eq (fun _ c dir hc => by
    rw [hchoose] at hc
    cases hc)
  show execArbiterChoice s = _
  unfold execArbiterChoice chooseAndGrant
  rw [if_pos hfree, hend, hchoose]

/-- Older work that names a sweep item's extent, in the words of the claims (R167). -/
theorem olderWorkOn_iff (s : State) (it : SweepItem) :
    s.olderWorkOn it = true ↔ (∃ e ∈ s.work, e.live = true ∧ e.slot = some it.slot ∧ e.order < it.order)
      ∨ ∃ p ∈ s.posted, p.slot = it.slot ∧ p.order < it.order := by
  simp [State.olderWorkOn, and_assoc]

/-! ## The offer declined or taken -/

section Offer

variable {s : State} {sw : Sweep} {it : SweepItem} {x : Extent}

theorem offerSweep_declined (hsw : s.sweep = some sw) (hit : sw.currentItem = some it)
    (h : s.olderWorkOn it = true ∨ sw.kind = .clear ∧ s.writeHold = true) : offerSweep s = s := by
  simp only [offerSweep, hsw, hit]
  exact if_pos (by tauto)

theorem offerSweep_taken (hsw : s.sweep = some sw) (hit : sw.currentItem = some it) (hw : sw.window = none) (hh : sw.halt = false)
    (hc : sw.cause = none) (hhold : ¬ (sw.kind = .clear ∧ s.writeHold = true)) (hold : ¬ s.olderWorkOn it = true) :
    offerSweep s = takeOffer sw it s := by
  simp only [offerSweep, hsw, hit, hw, hh, hc, Option.isSome_none, Bool.false_eq_true, false_or]
  exact if_neg (by tauto)

theorem takeOffer_again (hx : s.extent it.slot = some x) {top : Nat} (htop : it.top = some top) :
    takeOffer sw it s = beginStep sw it x (sw.sector.getD 0) s := by
  simp only [takeOffer, hx, htop]

theorem takeOffer_nothing (hx : s.extent it.slot = some x) (htop : it.top = none) (hr : itemRange sw.kind x = none) :
    takeOffer sw it s = giveResult .done s := by
  simp only [takeOffer, hx, htop, hr]

/-- The sweep with the range of its current item fixed (R167). -/
def Sweep.ranged (sw : Sweep) (i top m : Nat) : Sweep :=
  { sw with items := sw.items.modify i (fun y => { y with top := some top }), sector := some m }

theorem takeOffer_first (hx : s.extent it.slot = some x) (htop : it.top = none) {i top m : Nat} (hi : sw.current = some i)
    (hr : itemRange sw.kind x = some (top, m)) :
    takeOffer sw it s = beginStep (sw.ranged i top m) it x m { s with sweep := some (sw.ranged i top m) } := by
  simp only [takeOffer, hx, htop, hr, Sweep.updCurrent, hi, Sweep.ranged]

/-! ## The step begun, or not made for want of the claim (R42, R169) -/

theorem beginStep_scan (hsw : s.sweep = some sw) (hk : sw.kind = .scan) (m : Nat) :
    beginStep sw it x m s =
      { s with
        ctlBuffer := .scanned, sweep := some sw
        seq := begun (Access.begin .sweep .scanStep (some .bulk) false (some it.slot) x.defn.first m (m + 1) x.defn.size) s.seq } := by
  simp only [beginStep, hk, beginAccess_eq_begun, ← hsw]
  rfl

theorem beginStep_clear (hsw : s.sweep = some sw) (hk : sw.kind = .clear)
    (hheld : ClaimStands s it.slot sw.channel it.token) (m : Nat) :
    beginStep sw it x m s =
      { s with
        ctlBuffer := .zeros, sweep := some sw
        seq := begun (Access.begin .sweep .clearStep (some .bulk) sw.verify (some it.slot) x.defn.first m (m + 1) x.defn.size) s.seq } := by
  have hmay : s.mayWriteNow it.slot sw.channel it.token = true := (mayWriteNow_iff ..).2 hheld
  simp only [beginStep, hk, beginAccess_eq_begun, hmay, ← hsw]
  rfl

theorem beginStep_lost (hk : sw.kind = .clear) (hlost : ¬ ClaimStands s it.slot sw.channel it.token) (m : Nat) :
    beginStep sw it x m s = giveResult .partly s := by
  rw [← mayWriteNow_iff, Bool.not_eq_true] at hlost
  exact if_pos ⟨hk, hlost⟩

/-- A CLEAR's range (R167): none of a KNOWN APPEND extent with fill mark 0, else from its last sector downward. -/
theorem itemRange_clear (x : Extent) :
    itemRange .clear x =
      if ∃ f, x.fill = some f ∧ f.state = .known ∧ f.mark = 0 then none
      else
        let first : Nat := match x.fill with | some f => (if f.state = .known then f.mark - 1 else x.defn.size - 1) | none => x.defn.size - 1
        some (first, first) := by
  unfold itemRange
  cases x.fill with
  | none => simp
  | some f => by_cases hk : f.state = .known <;> by_cases hm : f.mark = 0 <;> simp [hk, hm]

end Offer

end Sys2Proof.Machine

namespace Sys2Proof.Proofs

open Sys2Proof.Machine Sys2Proof.Safety

/-- Settles O40, by what the offer meets: older work or a write hold, a SCAN's item, a CLEAR's item new or begun, its claim held or not. -/
theorem sweepOffered : Obligations.SweepOffered := by
  intro sw i it x s ha hidle hnone hsw hw hh hc hi hit hx hl hv size older held ranged scans clears first nothing
  have hexec := arbiterChoice_offers ha hidle hnone
  have hcur : sw.currentItem = some it := by rw [Sweep.currentItem, hi, Option.bind_some, hit]
  have holder : s.olderWorkOn it = true ↔ older := olderWorkOn_iff s it
  have hgiven : ∀ r, SameButReservations (itemDone sw i r s) (settle (giveResult r s)) := settle_giveResult hsw hi hl hv
  have htaken : ¬ older → ¬ (sw.kind = .clear ∧ s.writeHold = true) → offerSweep s = takeOffer sw it s := fun hold hhold =>
    offerSweep_taken hsw hcur hw hh hc hhold (mt holder.1 hold)
  refine ⟨fun h => ?_, fun hold hk htop => ?_, fun top m hold hk htop hm => ?_, fun hold hk hpower => ?_⟩
  · refine ⟨_, hexec, ?_⟩
    rw [offerSweep_declined hsw hcur (h.imp_left holder.2)]
    exact settle_of_sameBut (sameBut_refl _) hl hv
  · refine ⟨_, hexec, ?_⟩
    rw [htaken hold (by simp [hk]), takeOffer_first hx htop hi (by rw [hk]; rfl), beginStep_scan (sw := sw.ranged ..) rfl hk]
    exact settle_of_sameBut (sameBut_refl _) hl hv
  · refine ⟨_, hexec, ?_⟩
    rw [htaken hold (by simp [hk]), takeOffer_again hx htop, hm, Option.getD_some, beginStep_scan hsw hk]
    exact settle_of_sameBut (sameBut_refl _) hl hv
  · have htake : offerSweep s = takeOffer sw it s := htaken hold (by simp [State.writeHold, hpower])
    have hfirst : ¬ nothing → itemRange sw.kind x = some (first, first) := fun h => by
      rw [hk, itemRange_clear, if_neg h]
      rfl
    rw [htake] at hexec
    refine ⟨fun htop hnothing => ?_, fun htop hsome hheld => ?_, fun htop hsome hlost => ?_, fun top m htop hm hheld => ?_,
      fun top htop hlost => ?_⟩ <;> refine ⟨_, hexec, ?_⟩
    · rw [takeOffer_nothing hx htop (by rw [hk, itemRange_clear, if_pos hnothing])]
      exact hgiven .done
    · rw [takeOffer_first hx htop hi (hfirst hsome),
        beginStep_clear (s := { s with sweep := some (sw.ranged i first first) }) (sw := sw.ranged ..) rfl hk hheld]
      exact settle_of_sameBut (sameBut_refl _) hl hv
    · rw [takeOffer_first hx htop hi (hfirst hsome),
        beginStep_lost (s := { s with sweep := some (sw.ranged i first first) }) (sw := sw.ranged ..) hk hlost]
      exact settle_giveResult (s := { s with sweep := some (ranged first first) }) rfl hi hl hv .partly
    · rw [takeOffer_again hx htop, hm, Option.getD_some, beginStep_clear hsw hk hheld]
      exact settle_of_sameBut (sameBut_refl _) hl hv
    · rw [takeOffer_again hx htop, beginStep_lost hk hlost]
      exact hgiven .partly

end Sys2Proof.Proofs
end

section
/-! PROOFS. What refuses a request before its own checks: the tag check, the form check, the volume and generation checks (R51 to R53). -/

namespace Sys2Proof.Machine

open Sys2Proof.Safety

/-! ## The first check that fails (R52) -/

theorem firstFail_cons_true {b : Bool} (h : b = true) (c : Code) (l : List (Bool × Code)) : firstFail ((b, c) :: l) = some c := by
  rw [firstFail, if_pos h]

theorem firstFail_cons_false {b : Bool} (h : b = false) (c : Code) (l : List (Bool × Code)) : firstFail ((b, c) :: l) = firstFail l := by
  rw [firstFail, h]
  rfl

/-- A request whose taking comes to a refusal is refused as claims say it. -/
theorem exec_refused {kind : ReqKind} {ch : Channel} {r : Request} {s : State} {code : Code} (hst : (s.port ch).stage = .request r)
    (hk : r.kind = kind) (hl : RepliesLawful s) (h : admitAs kind ch r s = refuse ch r code s) :
    ∃ t, exec (commandOf kind ch) s = .next t ∧ Refused ch r code s t :=
  ⟨_, (exec_commandOf hst hk).trans (congrArg _ h), refused_of_lawful hl ch r code⟩

/-! ## The tag check and the form check (R51, R52) -/

theorem tagCheck_inUse {s : State} {ch : Channel} {r : Request} (h : s.tagInUse ch r.tag = true) :
    s.tagCheck ch r = some .duplicateTag := firstFail_cons_true h _ _

theorem tagCheck_255 {s : State} {ch : Channel} {r : Request} (h : s.tagInUse ch r.tag = false) (h' : r.tag = 255) :
    s.tagCheck ch r = some .badRequest := by
  rw [State.tagCheck, firstFail_cons_false h, firstFail_cons_true (decide_eq_true h')]

/-- The tag check is the first of every request kind. -/
theorem admitAs_tagFails {s : State} {ch : Channel} {r : Request} {c : Code} (h : s.tagCheck ch r = some c) (kind : ReqKind) :
    admitAs kind ch r s = refuse ch r c s := by
  cases kind <;>
    simp only [admitAs, admitRead, admitWrite, admitAppend, admitFlush, admitCancel, admitClaim, admitMapRead, admitMapLoad, admitMapStore,
      admitDefectRead, admitClear, admitScan, admitSweepHalt, admitContext, admitSettingsLoad, admitStatus, admitEventAck, admitFaultRead,
      admitTimeSet, h]

theorem emptyOperands_none {r : Request} (h : decide (r.length ≠ 0) = true) : emptyOperands r = none := if_neg (of_decide_eq_true h)

/-- The form check is the second of every request kind. -/
theorem admitAs_formFails {s : State} {ch : Channel} {r : Request} (htag : s.tagCheck ch r = none) (h : formFails ch r = true) :
    admitAs r.kind ch r s = refuse ch r .badRequest s := by
  unfold formFails at h
  cases hk : r.kind <;> rw [hk] at h
  case flush | mapRead | defectRead | sweepHalt | status | faultRead =>
    simp only [admitAs, admitFlush, admitMapRead, admitDefectRead, admitSweepHalt, admitStatus, admitFaultRead, htag, emptyOperands_none h]
  all_goals
    have hnone := Option.isNone_iff_eq_none.1 h
    simp only [admitAs, admitRead, admitWrite, admitAppend, admitCancel, admitClaim, admitMapLoad, admitMapStore, admitClear, admitScan,
      admitContext, admitSettingsLoad, admitEventAck, admitTimeSet, htag, hnone]

/-! ## The volume and generation checks (R53) -/

theorem stale_of_not_fresh {s : State} {ch : Channel} (h : ¬ Fresh ch s) : s.stale ch = true := by
  rw [not_or] at h
  exact decide_eq_true h

section Volume

variable {s : State} {ch : Channel}

theorem transactionVolume_notMounted (h : s.volume.state = .absent ∨ s.volume.state = .mounting) :
    s.transactionVolume ch = some .notMounted :=
  firstFail_cons_true (by simpa [State.noVolume] using h) _ _

theorem transactionVolume_leaving (h : s.volume.state = .draining ∨ s.volume.state = .storing ∨ s.volume.state = .releasing) :
    s.transactionVolume ch = some .volumeLeaving := by
  rw [State.transactionVolume, firstFail_cons_false (by rcases h with h | h | h <;> simp [State.noVolume, h])]
  exact firstFail_cons_true (by simpa [State.volumeClosing] using h) _ _

theorem transactionVolume_stale (hv : s.volume.state = .mounted) (h : ¬ Fresh ch s) : s.transactionVolume ch = some .staleVolume := by
  simp [State.transactionVolume, State.noVolume, State.volumeClosing, firstFail, hv, stale_of_not_fresh h]

theorem tableReadVolume_notMounted (h : s.volume.state = .absent ∨ s.volume.state = .mounting ∨ s.volume.state = .storing
    ∨ s.volume.state = .releasing) : s.tableReadVolume ch = some .notMounted :=
  firstFail_cons_true (by simpa [State.noVolume, State.volumeClosing, or_assoc] using h) _ _

theorem tableReadVolume_stale (hv : s.volume.state = .mounted ∨ s.volume.state = .draining) (h : ¬ Fresh ch s) :
    s.tableReadVolume ch = some .staleVolume := by
  rcases hv with hv | hv <;>
    simp [State.tableReadVolume, State.noVolume, State.volumeClosing, firstFail, hv, stale_of_not_fresh h]

theorem claimVolume_notMounted (h : s.volume.state = .absent ∨ s.volume.state = .mounting) : s.claimVolume ch = some .notMounted :=
  firstFail_cons_true (by simpa [State.noVolume] using h) _ _

theorem claimVolume_leaving (h : s.volume.state = .storing ∨ s.volume.state = .releasing) : s.claimVolume ch = some .volumeLeaving := by
  rw [State.claimVolume, firstFail_cons_false (by rcases h with h | h <;> simp [State.noVolume, h])]
  exact firstFail_cons_true (by simpa [State.volumeClosing] using h) _ _

theorem claimVolume_stale (hv : s.volume.state = .mounted ∨ s.volume.state = .draining) (h : ¬ Fresh ch s) :
    s.claimVolume ch = some .staleVolume := by
  rcases hv with hv | hv <;> simp [State.claimVolume, State.noVolume, State.volumeClosing, firstFail, hv, stale_of_not_fresh h]

end Volume

/-! ## Requests whose tag and form are good -/

theorem holdsController_not {s : State} {ch : Channel} (h : s.ctlClaim.holder ≠ some ch) : s.holdsController ch = false := by
  simp [State.holdsController, h]

theorem exists_of_not_isNone {α : Type} {o : Option α} (h : o.isNone = false) : ∃ a, o = some a :=
  Option.isSome_iff_exists.1 (by simpa using h)

section Formed

variable {s : State} {ch : Channel} {r : Request} {c : Code} (htag : s.tagCheck ch r = none) (hform : formFails ch r = false)

include htag hform

/-- The volume check comes next for a data transaction, a CLEAR and a SCAN (R53). -/
theorem admitAs_volumeFails (hk : r.kind ∈ [ReqKind.read, .write, .append, .clear, .scan]) (h : s.transactionVolume ch = some c) :
    admitAs r.kind ch r s = refuse ch r c s := by
  unfold formFails at hform
  simp only [List.mem_cons, List.not_mem_nil, or_false] at hk
  rcases hk with hk | hk | hk | hk | hk <;> rw [hk] at hform ⊢ <;>
    · obtain ⟨o, ho⟩ := exists_of_not_isNone hform
      simp only [admitAs, admitRead, admitWrite, admitAppend, admitClear, admitScan, htag, ho, h]

/-- The controller claim comes next for a MAP-LOAD and a MAP-STORE (R45). -/
theorem admitAs_notController (hk : r.kind = .mapLoad ∨ r.kind = .mapStore) (h : s.holdsController ch = false) :
    admitAs r.kind ch r s = refuse ch r .claimRequired s := by
  unfold formFails at hform
  rcases hk with hk | hk <;> rw [hk] at hform ⊢ <;>
    · obtain ⟨o, ho⟩ := exists_of_not_isNone hform
      simp only [admitAs, admitMapLoad, admitMapStore, htag, ho, h, firstFail]
      rfl

/-- With the controller claim held the volume check of a MAP-LOAD and a MAP-STORE follows (R45, R53). -/
theorem admitAs_mapVolumeFails (hk : r.kind = .mapLoad ∨ r.kind = .mapStore) (hctl : s.holdsController ch = true)
    (h : s.transactionVolume ch = some c) : admitAs r.kind ch r s = refuse ch r c s := by
  unfold formFails at hform
  have hholds : firstFail [(!s.holdsController ch, Code.claimRequired)] = none := firstFail_cons_false (by rw [hctl]; rfl) _ _
  rcases hk with hk | hk <;> rw [hk] at hform ⊢ <;>
    · obtain ⟨o, ho⟩ := exists_of_not_isNone hform
      simp only [admitAs, admitMapLoad, admitMapStore, htag, ho, h, hholds]

/-- The volume check comes next for a MAP-READ and a DEFECT-READ (R53). -/
theorem admitAs_tableReadFails (hk : r.kind = .mapRead ∨ r.kind = .defectRead) (h : s.tableReadVolume ch = some c) :
    admitAs r.kind ch r s = refuse ch r c s := by
  unfold formFails at hform
  rcases hk with hk | hk <;> rw [hk] at hform ⊢ <;>
    · have hlen : emptyOperands r = some () := emptyOperands_some (by simpa using hform)
      simp only [admitAs, admitMapRead, admitDefectRead, htag, hlen, h]

end Formed

/-- Checks 5 to 7 of R35 that fail refuse a CLAIM. -/
theorem admitClaim_refused {s : State} {ch : Channel} {r : Request} {o : ClaimOperands} {c : Code} (htag : s.tagCheck ch r = none)
    (ho : claimOperands ch r = some o) (h : s.claimTargetCheck ch o.target = some c) : admitClaim ch r s = refuse ch r c s := by
  simp only [admitClaim, htag, ho, h]

/-- The volume check of a CLAIM on an extent (R35, R53). -/
theorem claimTargetCheck_volume {s : State} {ch : Channel} {k : Slot} {c : Code} (h : s.claimVolume ch = some c) :
    s.claimTargetCheck ch (.extent k) = some c := by
  simp only [State.claimTargetCheck, h]

end Sys2Proof.Machine

namespace Sys2Proof.Proofs

open Sys2Proof.Machine Sys2Proof.Safety

/-- Settles O19, row by row of R53's table, each row by the state the volume is in. -/
theorem volumeAndGenerationChecks : Obligations.VolumeAndGenerationChecks := by
  intro kind ch r s ⟨hst, hk, htag, h255⟩ hform hl v refusedWith
  subst hk
  have ht := tagCheck_none htag h255
  refine ⟨fun hkind hctl => ?_, fun hkind => ?_, fun hkind => ⟨fun hv => ?_, fun hv hf => ?_⟩,
    fun o k hkind ho hx => ?_⟩
  · exact exec_refused hst rfl hl (admitAs_notController ht hform hkind (holdsController_not hctl))
  · have hfails : ∀ {c}, s.transactionVolume ch = some c → refusedWith c := fun h => by
      refine exec_refused hst rfl hl ?_
      rcases hkind with hkind | ⟨hkind, hctl⟩
      · exact admitAs_volumeFails ht hform hkind h
      · exact admitAs_mapVolumeFails ht hform (by simpa using hkind) (holdsController_of hctl) h
    exact ⟨fun hv => hfails (transactionVolume_notMounted hv), fun hv => hfails (transactionVolume_leaving hv),
      fun hv hf => hfails (transactionVolume_stale hv hf)⟩
  · exact exec_refused hst rfl hl (admitAs_tableReadFails ht hform hkind (tableReadVolume_notMounted hv))
  · exact exec_refused hst rfl hl (admitAs_tableReadFails ht hform hkind (tableReadVolume_stale hv hf))
  · have hfails : ∀ {c}, s.claimVolume ch = some c → refusedWith c := fun h => by
      refine exec_refused hst rfl hl ?_
      rw [hkind]
      exact admitClaim_refused ht ho (by rw [hx]; exact claimTargetCheck_volume h)
    exact ⟨fun hv => hfails (claimVolume_notMounted hv), fun hv => hfails (claimVolume_leaving hv),
      fun hv hf => hfails (claimVolume_stale hv hf)⟩

end Sys2Proof.Proofs
end

section
/-! PROOFS. The forms of the requests' bodies, read to the values that their words hold (R29, R35, R52, R54 to R59, R62, R186, R187). -/

namespace Sys2Proof.Machine

open Sys2Proof.Safety

/-! ## READ, WRITE and APPEND (R54 to R57) -/

/-- The two words that begin a READ, WRITE or APPEND: the slot and the flags, and the count (R186). -/
def Headed (o : DataOperands) (w c : Word) : Prop :=
  w.toNat / 256 % 16 = 0 ∧ o.slot.val = w.toNat % 256 ∧ o.flags = flagsOf w ∧ 1 ≤ c.toNat ∧ c.toNat ≤ 8 ∧ o.count = c.toNat

theorem headed_headSlot {o : DataOperands} {w c : Word} (h : Headed o w c) : headSlot w = some o.slot :=
  headSlot_eq_some.2 ⟨h.1, h.2.1⟩

theorem headed_of_headSlot {w c : Word} {k : Slot} (hk : headSlot w = some k) (h1 : 1 ≤ c.toNat) (h8 : c.toNat ≤ 8) (m : Nat) :
    Headed { slot := k, first := m, count := c.toNat, flags := flagsOf w } w c := by
  obtain ⟨hmid, hslot⟩ := headSlot_eq_some.1 hk
  exact ⟨hmid, hslot, rfl, h1, h8, rfl⟩

theorem readOperands_iff (r : Request) (o : DataOperands) :
    readOperands r = some o ↔
      ∃ w c f, r.body = [w, c, f] ∧ r.length = 3 ∧ Headed o w c ∧ f.toNat ≤ 7655 ∧ o.first = f.toNat
        ∧ o.flags.quiet = false ∧ o.flags.medium = false ∧ o.flags.force = false := by
  constructor
  · intro h
    unfold readOperands at h
    split at h
    · rename_i w c f hb
      split at h
      · rename_i k hk
        split at h
        · rename_i hc
          obtain ⟨hlen, h1, h8, hf, hq, hm, hforce⟩ := hc
          cases h
          exact ⟨w, c, f, hb, hlen, headed_of_headSlot hk h1 h8 _, hf, rfl, hq, hm, hforce⟩
        · cases h
      · cases h
    · cases h
  · rintro ⟨w, c, f, hb, hlen, hhead, hf, hfirst, hq, hm, hforce⟩
    have hk := headed_headSlot hhead
    obtain ⟨-, -, hflags, h1, h8, hcount⟩ := hhead
    obtain ⟨slot, first, count, flags⟩ := o
    subst hflags hcount hfirst
    simp only [readOperands, hb, hk]
    exact if_pos ⟨hlen, h1, h8, hf, hq, hm, hforce⟩

theorem writeOperands_iff (r : Request) (o : DataOperands) :
    writeOperands r = some o ↔
      ∃ w c f, r.body = [w, c, f] ∧ r.length = 3 + 256 * c.toNat ∧ Headed o w c ∧ f.toNat ≤ 7655 ∧ o.first = f.toNat := by
  constructor
  · intro h
    unfold writeOperands at h
    split at h
    · rename_i w c f hb
      split at h
      · rename_i k hk
        split at h
        · rename_i hc
          obtain ⟨h1, h8, hlen, hf⟩ := hc
          cases h
          exact ⟨w, c, f, hb, hlen, headed_of_headSlot hk h1 h8 _, hf, rfl⟩
        · cases h
      · cases h
    · cases h
  · rintro ⟨w, c, f, hb, hlen, hhead, hf, hfirst⟩
    have hk := headed_headSlot hhead
    obtain ⟨-, -, hflags, h1, h8, hcount⟩ := hhead
    obtain ⟨slot, first, count, flags⟩ := o
    subst hflags hcount hfirst
    simp only [writeOperands, hb, hk]
    exact if_pos ⟨h1, h8, hlen, hf⟩

theorem appendOperands_iff (r : Request) (o : DataOperands) :
    appendOperands r = some o ↔
      ∃ w c, r.body = [w, c] ∧ r.length = 2 + 256 * c.toNat ∧ Headed o w c ∧ o.first = 0 ∧ o.flags.force = false := by
  constructor
  · intro h
    unfold appendOperands at h
    split at h
    · rename_i w c hb
      split at h
      · rename_i k hk
        split at h
        · rename_i hc
          obtain ⟨h1, h8, hlen, hforce⟩ := hc
          cases h
          exact ⟨w, c, hb, hlen, headed_of_headSlot hk h1 h8 _, rfl, hforce⟩
        · cases h
      · cases h
    · cases h
  · rintro ⟨w, c, hb, hlen, hhead, hfirst, hforce⟩
    have hk := headed_headSlot hhead
    obtain ⟨-, -, hflags, h1, h8, hcount⟩ := hhead
    obtain ⟨slot, first, count, flags⟩ := o
    subst hflags hcount hfirst
    simp only [appendOperands, hb, hk]
    exact if_pos ⟨h1, h8, hlen, hforce⟩

/-! ## CLAIM (R35, R187) -/

theorem holderOf_iff (w : Word) (h : Option Channel) :
    holderOf w = some h ↔ (w = 0 ∧ h = none) ∨ (w = 1 ∧ h = some .A) ∨ (w = 2 ∧ h = some .B) := by
  unfold holderOf
  by_cases h0 : w = 0
  · subst h0
    simp [eq_comm]
  · by_cases h1 : w = 1
    · subst h1
      simp [eq_comm]
    · by_cases h2 : w = 2
      · subst h2
        simp [eq_comm]
      · rw [if_neg h0, if_neg h1, if_neg h2]
        exact ⟨fun e => (nomatch e), fun e => by rcases e with ⟨hw, -⟩ | ⟨hw, -⟩ | ⟨hw, -⟩ <;> contradiction⟩

theorem claimTargetOf_iff (w : Word) (x : ClaimTarget) :
    claimTargetOf w = some x ↔ (w = 32 ∧ x = .controller) ∨ ∃ k : Slot, w.toNat = k.val ∧ x = .extent k := by
  unfold claimTargetOf
  by_cases hw : w = 32
  · subst hw
    rw [if_pos rfl, Option.some.injEq]
    exact ⟨fun h => .inl ⟨rfl, h.symm⟩, fun h => h.elim (fun h => h.2.symm) (fun ⟨k, hk, _⟩ => absurd hk k.isLt.ne')⟩
  · simp only [hw, if_false, false_and, false_or, Option.map_eq_some_iff, slotOf_eq_some]
    exact exists_congr (fun k => and_congr eq_comm eq_comm)

theorem claimOperands_iff (ch : Channel) (r : Request) (o : ClaimOperands) :
    claimOperands ch r = some o ↔
      ∃ target eh et nh nt lease, r.body = [target, eh, et, nh, nt, lease] ∧ claimTargetOf target = some o.target
        ∧ holderOf eh = some o.expHolder ∧ o.expToken = et.toNat ∧ holderOf nh = some o.newHolder ∧ o.newToken = nt.toNat
        ∧ o.lease = lease.toNat ∧ (o.newHolder = none ∨ o.newHolder = some ch) ∧ (o.expHolder = none ↔ o.expToken = 0)
        ∧ (o.newHolder = none ↔ o.newToken = 0) ∧ (o.lease = 0 ∨ (100 ≤ o.lease ∧ o.lease ≤ 60000))
        ∧ (o.newHolder = none → o.lease = 0) := by
  constructor
  · intro h
    unfold claimOperands at h
    split at h
    · rename_i target eh et nh nt lease hb
      split at h
      · rename_i x eHolder nHolder hx heh hnh
        split at h
        · rename_i hc
          obtain ⟨hself, hexp, hnew, hlease, hfree⟩ := hc
          cases h
          exact ⟨target, eh, et, nh, nt, lease, hb, hx, heh, rfl, hnh, rfl, rfl, hself, (pairLawful_iff ..).1 hexp,
            (pairLawful_iff ..).1 hnew, hlease, hfree⟩
        · cases h
      · cases h
    · cases h
  · rintro ⟨target, eh, et, nh, nt, lease, hb, hx, heh, het, hnh, hnt, hle, hself, hexp, hnew, hlease, hfree⟩
    obtain ⟨x, eHolder, eToken, nHolder, nToken, le⟩ := o
    subst het hnt hle
    simp only [claimOperands, hb, hx, heh, hnh]
    exact if_pos ⟨hself, (pairLawful_iff ..).2 hexp, (pairLawful_iff ..).2 hnew, hlease, hfree⟩

/-! ## The lists of slots of CLEAR and SCAN (R59, R164) -/

theorem slotsOf_exists {ws : List Word} : (∃ js, slotsOf ws = some js) ↔ ∀ w ∈ ws, w.toNat ≤ 31 := by
  induction ws with
  | nil => simp [slotsOf]
  | cons w ws ih =>
    rw [List.forall_mem_cons, ← ih, ← slotOf_isSome (n := w.toNat)]
    cases hw : slotOf w.toNat <;> cases hws : slotsOf ws <;> simp [slotsOf, hw, hws]

/-- A slot's first place among slots is that of its number among their numbers. -/
theorem idxOf_val (js : List Slot) (k : Slot) : js.idxOf k = (js.map (fun j => j.val)).idxOf k.val := by
  induction js with
  | nil => rfl
  | cons j js ih =>
    by_cases h : j = k
    · simp [h]
    · rw [List.map_cons, List.idxOf_cons_ne _ h, List.idxOf_cons_ne _ (fun e => h (Fin.ext e)), ih]

theorem mem_iff_val_mem (js : List Slot) (k : Slot) : k ∈ js ↔ k.val ∈ js.map (fun j => j.val) := by
  rw [List.mem_map]
  exact ⟨fun h => ⟨k, h, rfl⟩, fun ⟨j, hj, hv⟩ => Fin.ext hv ▸ hj⟩

/-- A list in strictly rising order of a measure is determined by its members. -/
theorem eq_of_pairwise_lt {α : Type} (f : α → Nat) {l m : List α} (hl : l.Pairwise (fun a b => f a < f b))
    (hm : m.Pairwise (fun a b => f a < f b)) (h : ∀ a, a ∈ l ↔ a ∈ m) : l = m := by
  have nodup : ∀ {l : List α}, l.Pairwise (fun a b => f a < f b) → l.Nodup := fun hl => hl.imp (fun hlt e => by subst e; omega)
  exact List.Perm.eq_of_pairwise (fun a b _ _ hab hba => absurd hab (by omega)) hl hm
    ((List.perm_ext_iff_of_nodup (nodup hl) (nodup hm)).2 h)

/-- Slot words read, each slot kept once at its first place: the slots named, in the order of their first places. -/
theorem slotsOf_dedup {ws : List Word} {ks : List Slot} :
    (slotsOf ws).map dedupFirst = some ks ↔
      (∀ w ∈ ws, w.toNat ≤ 31) ∧ (∀ k : Slot, k ∈ ks ↔ k.val ∈ ws.map (fun w => w.toNat))
        ∧ ks.Pairwise (fun j k => (ws.map (fun w => w.toNat)).idxOf j.val < (ws.map (fun w => w.toNat)).idxOf k.val) := by
  have hread : ∀ js, slotsOf ws = some js → (∀ k : Slot, k ∈ dedupFirst js ↔ k.val ∈ ws.map (fun w => w.toNat))
      ∧ (dedupFirst js).Pairwise (fun j k => (ws.map (fun w => w.toNat)).idxOf j.val < (ws.map (fun w => w.toNat)).idxOf k.val) := by
    intro js hjs
    rw [← slotsOf_eq_some.1 hjs]
    refine ⟨fun k => mem_dedupFirst.trans (mem_iff_val_mem js k), (dedupFirst_pairwise js).imp (fun {j k} h => ?_)⟩
    rwa [← idxOf_val, ← idxOf_val]
  constructor
  · intro h
    obtain ⟨js, hjs, rfl⟩ := Option.map_eq_some_iff.1 h
    exact ⟨slotsOf_exists.1 ⟨js, hjs⟩, hread js hjs⟩
  · rintro ⟨hle, hmem, hpair⟩
    obtain ⟨js, hjs⟩ := slotsOf_exists.2 hle
    obtain ⟨hmem', hpair'⟩ := hread js hjs
    rw [hjs, Option.map_some, eq_of_pairwise_lt (fun k : Slot => (ws.map (fun w => w.toNat)).idxOf k.val) hpair' hpair
      (fun k => (hmem' k).trans (hmem k).symm)]

theorem sweepOperands_iff (r : Request) (ks : List Slot) :
    sweepOperands r = some ks ↔
      ∃ n ws, r.body = n :: ws ∧ 1 ≤ n.toNat ∧ n.toNat ≤ 8 ∧ ws.length = n.toNat ∧ (slotsOf ws).map dedupFirst = some ks := by
  unfold sweepOperands
  cases r.body with
  | nil => simp
  | cons n ws =>
    dsimp only
    split
    · rename_i hc
      obtain ⟨h1, h8, hlen⟩ := hc
      exact ⟨fun h => ⟨n, ws, rfl, h1, h8, hlen, h⟩, fun ⟨_, _, hb, _, _, _, h⟩ => by cases hb; exact h⟩
    · rename_i hc
      refine ⟨fun h => (nomatch h), fun ⟨_, _, hb, h1, h8, hlen, _⟩ => ?_⟩
      cases hb
      exact absurd ⟨h1, h8, hlen⟩ hc

/-! ## MAP-LOAD (R29) -/

theorem mapLoadOperands_iff (r : Request) (cs : List Change) :
    mapLoadOperands r = some cs ↔
      ∃ n ws, r.body = n :: ws ∧ 1 ≤ n.toNat ∧ n.toNat ≤ 32 ∧ changesOf n.toNat ws = some (cs, []) := by
  unfold mapLoadOperands
  cases r.body with
  | nil => simp
  | cons n ws =>
    dsimp only
    split
    · rename_i hc
      obtain ⟨h1, h32⟩ := hc
      constructor
      · intro h
        split at h
        · rename_i ds hds
          cases h
          exact ⟨n, ws, rfl, h1, h32, hds⟩
        · cases h
      · rintro ⟨_, _, hb, _, _, h⟩
        cases hb
        rw [h]
    · rename_i hc
      refine ⟨fun h => (nomatch h), fun ⟨_, _, hb, h1, h32, _⟩ => ?_⟩
      cases hb
      exact absurd ⟨h1, h32⟩ hc

/-! ## Bodies of one or two words (R58, R61, R62) -/

theorem longOf_toNat (hi lo : Word) : (longOf hi lo).toNat = hi.toNat * 65536 + lo.toNat := by
  rw [longOf, BitVec.toNat_append, ← Nat.shiftLeft_add_eq_or_of_lt lo.isLt, Nat.shiftLeft_eq]

theorem longOf_eq_iff (hi lo : Word) (v : BitVec 32) : longOf hi lo = v ↔ v.toNat = hi.toNat * 65536 + lo.toNat := by
  rw [← longOf_toNat, ← BitVec.toNat_inj]
  exact eq_comm

theorem mapStoreOperands_iff (r : Request) (serial : BitVec 32) :
    mapStoreOperands r = some serial ↔ ∃ hi lo, r.body = [hi, lo] ∧ serial.toNat = hi.toNat * 65536 + lo.toNat := by
  unfold mapStoreOperands
  split
  · rename_i hi lo hb
    rw [Option.some.injEq, longOf_eq_iff]
    exact ⟨fun h => ⟨hi, lo, hb, h⟩, fun ⟨_, _, hb', h⟩ => by rw [hb] at hb'; cases hb'; exact h⟩
  · rename_i hno
    exact ⟨fun h => (nomatch h), fun ⟨hi, lo, hb, _⟩ => absurd hb (hno hi lo)⟩

/-- A clock value is read as a volume serial is. -/
theorem timeSetOperands_eq (r : Request) : timeSetOperands r = mapStoreOperands r := rfl

theorem cancelOperands_iff (r : Request) (tag : Nat) :
    cancelOperands r = some tag ↔ ∃ w, r.body = [w] ∧ w.toNat ≤ 255 ∧ tag = w.toNat := by
  unfold cancelOperands
  split
  · rename_i w hb
    constructor
    · intro h
      split at h
      · rename_i hle
        cases h
        exact ⟨w, hb, hle, rfl⟩
      · cases h
    · rintro ⟨_, hb', hle, rfl⟩
      cases hb.symm.trans hb'
      exact if_pos hle
  · rename_i hno
    exact ⟨fun h => (nomatch h), fun ⟨w, hb, _⟩ => absurd hb (hno w)⟩

/-- The kinds that a word below 128 names are its value. -/
theorem setWidth_eq_iff {n : Nat} {w : Word} (h : w.toNat < 2 ^ n) (v : BitVec n) : w.setWidth n = v ↔ v.toNat = w.toNat := by
  rw [← BitVec.toNat_inj, BitVec.toNat_setWidth, Nat.mod_eq_of_lt h]
  exact eq_comm

theorem eventAckOperands_iff (r : Request) (kinds : EventSet) :
    eventAckOperands r = some kinds ↔ ∃ w, r.body = [w] ∧ w.toNat ≤ 127 ∧ kinds.toNat = w.toNat := by
  have hlt : ∀ w : Word, w < 128 ↔ w.toNat ≤ 127 := fun w => by
    rw [BitVec.lt_def]
    exact Nat.lt_succ_iff
  unfold eventAckOperands
  split
  · rename_i w hb
    constructor
    · intro h
      split at h
      · rename_i hw
        have hle := (hlt w).1 hw
        exact ⟨w, hb, hle, (setWidth_eq_iff (n := 7) (Nat.lt_succ_iff.2 hle) kinds).1 (Option.some.inj h)⟩
      · cases h
    · rintro ⟨_, hb', hle, hv⟩
      cases hb.symm.trans hb'
      rw [if_pos ((hlt w).2 hle), (setWidth_eq_iff (n := 7) (Nat.lt_succ_iff.2 hle) kinds).2 hv]
  · rename_i hno
    exact ⟨fun h => (nomatch h), fun ⟨w, hb, _⟩ => absurd hb (hno w)⟩

end Sys2Proof.Machine

namespace Sys2Proof.Proofs

open Sys2Proof.Machine Sys2Proof.Safety

/-- Settles O18: the tag check before the form check in every kind's taking, then form by form. -/
theorem tagThenFormCheck : Obligations.TagThenFormCheck := by
  refine ⟨fun kind ch r s hst hk hl => ?_, fun kind ch r s ⟨hst, hk, htag, h255⟩ hform hl => ?_,
    fun r o => ⟨readOperands_iff r o, writeOperands_iff r o, appendOperands_iff r o⟩, fun ch r o => ?_, fun r ks => ?_, fun r cs => ?_,
    fun r => ⟨cancelOperands_iff r, mapStoreOperands_iff r, ?_, eventAckOperands_iff r⟩⟩
  · intro inUse
    have huse : s.tagInUse ch r.tag = true ↔ inUse := tagInUse_iff s ch r.tag
    refine ⟨fun h => exec_refused hst hk hl (admitAs_tagFails (tagCheck_inUse (huse.2 h)) kind), fun h h255 => ?_⟩
    exact exec_refused hst hk hl (admitAs_tagFails (tagCheck_255 (Bool.eq_false_iff.2 (mt huse.1 h)) h255) kind)
  · exact exec_refused hst hk hl (hk ▸ admitAs_formFails (tagCheck_none htag h255) hform)
  · rw [claimOperands_iff]
    simp only [claimTargetOf_iff, holderOf_iff]
  · rw [sweepOperands_iff]
    simp only [slotsOf_dedup]
  · rw [mapLoadOperands_iff]
    simp only [changesOf_eq_some, List.append_nil]
    rfl
  · intro v
    rw [timeSetOperands_eq]
    exact mapStoreOperands_iff r v

end Sys2Proof.Proofs
end

section
/-! PROOFS. The checks of READ, WRITE, APPEND, CLEAR, SCAN and CLAIM on their extents (R35, R54 to R56, R59). -/

namespace Sys2Proof.Machine

open Sys2Proof.Safety

/-- What a request finds wrong with the extent of a slot: that it is absent, or what its own checks of the extent find. -/
def State.extentFault (s : State) (k : Slot) (checks : Extent → Option Code) : Option Code := (s.extent k).elim (some .noExtent) checks

theorem extentFault_absent {s : State} {k : Slot} (h : s.extent k = none) (checks : Extent → Option Code) :
    s.extentFault k checks = some .noExtent := by
  rw [State.extentFault, h, Option.elim_none]

theorem extentFault_present {s : State} {k : Slot} {e : Extent} (h : s.extent k = some e) (checks : Extent → Option Code) :
    s.extentFault k checks = checks e := by
  rw [State.extentFault, h, Option.elim_some]

/-! ## The checks as claims say them -/

/-- The checks of a READ on a present extent, in the order of R54. -/
def State.readChecks (ch : Channel) (o : DataOperands) (e : Extent) : Option Code :=
  firstFail [(decide (o.first + o.count > e.defn.size), .outOfExtent), (!e.defn.mayRead ch, .noRight), (e.clearing, .extentClearing)]

theorem readChecks_eq (ch : Channel) (o : DataOperands) (e : Extent) :
    State.readChecks ch o e =
      if o.first + o.count > (e.defn.last - e.defn.first + 1) * 24 then some .outOfExtent
      else if e.defn.mayRead ch = false then some .noRight
      else if e.clearing = true then some .extentClearing
      else none := by
  simp only [State.readChecks, firstFail, decide_eq_true_eq, Bool.not_eq_true']
  rfl

/-- A listed defect among the sectors of a WRITE, in the words of the claims (R55, R134). -/
theorem anyListed_iff (s : State) (base first count : Nat) :
    (List.range count).any (fun i => s.listed base (first + i)) = true ↔
      ∃ i < count, ∃ d ∈ s.seq.defects, d.cylinder = base + (first + i) / 24 ∧ d.head = (first + i) % 24 / 12
        ∧ d.sector = (first + i) % 12 := by
  simp only [List.any_eq_true, List.mem_range, State.listed, Defect.atAddress, decide_eq_true_eq]
  rfl

theorem writeChecks_eq (s : State) (ch : Channel) (o : DataOperands) (e : Extent) :
    s.writeChecks ch o e =
      if o.first + o.count > (e.defn.last - e.defn.first + 1) * 24 then some .outOfExtent
      else if e.defn.kind = .append then some .appendOnly
      else if e.defn.mayWrite ch = false then some .noRight
      else if e.clearing = true then some .extentClearing
      else if e.defn.kind = .guarded ∧ (s.claim (.extent o.slot)).holder ≠ some ch then some .claimRequired
      else if s.ownerActive .protect = true then some .writeProtected
      else if o.flags.force = false ∧ ∃ i < o.count, ∃ d ∈ s.seq.defects, d.cylinder = e.defn.first + (o.first + i) / 24
          ∧ d.head = (o.first + i) % 24 / 12 ∧ d.sector = (o.first + i) % 12 then some .defectiveSector
      else none := by
  simp only [State.writeChecks, firstFail, decide_eq_true_eq, Bool.not_eq_true', Bool.and_eq_true, beq_iff_eq, bne_iff_ne, anyListed_iff]
  rfl

theorem appendChecks_eq (s : State) (ch : Channel) (o : DataOperands) (e : Extent) {f : Fill} (hf : e.fill = some f) :
    s.appendChecks ch o e =
      if e.defn.kind ≠ .append then some .badRequest
      else if e.defn.mayWrite ch = false then some .noRight
      else if e.clearing = true then some .extentClearing
      else if s.ownerActive .protect = true then some .writeProtected
      else if f.state = .unknown then some .fillUnknown
      else if f.mark + f.pending + o.count > (e.defn.last - e.defn.first + 1) * 24 then some .extentFull
      else none := by
  simp only [State.appendChecks, firstFail, hf, Option.map_some, decide_eq_true_eq, Bool.not_eq_true', bne_iff_ne, ne_eq, beq_iff_eq,
    Option.some.injEq]
  rfl

/-- The checks of an APPEND before those of the fill fields (R56). -/
theorem appendChecks_unfilled (s : State) (ch : Channel) (o : DataOperands) (e : Extent) {code : Code} (hf : e.fill = none)
    (h : (if e.defn.kind ≠ .append then some Code.badRequest
      else if e.defn.mayWrite ch = false then some .noRight
      else if e.clearing = true then some .extentClearing
      else if s.ownerActive .protect = true then some .writeProtected
      else none) = some code) : s.appendChecks ch o e = some code := by
  simp only [State.appendChecks, firstFail, hf, Bool.not_eq_true', bne_iff_ne]
  split_ifs at h ⊢ <;> exact h

/-! ## READ, WRITE and APPEND checked (R54 to R56) -/

section Checked

variable {s : State} {ch : Channel} {r : Request} {o : DataOperands} {e : Extent} {c : Code} (htag : s.tagCheck ch r = none)
  (hm : Mounted ch s)

include htag hm

theorem admitRead_refused (ho : readOperands r = some o) (h : s.extentFault o.slot (State.readChecks ch o) = some c) :
    admitRead ch r s = refuse ch r c s := by
  have hv := transactionVolume_none hm
  cases hx : s.extent o.slot with
  | none =>
    rw [extentFault_absent hx] at h
    cases h
    simp only [admitRead, htag, ho, hv, hx]
  | some e =>
    rw [extentFault_present hx, State.readChecks] at h
    simp only [admitRead, htag, ho, hv, hx, h]

theorem admitRead_passes (ho : readOperands r = some o) (hx : s.extent o.slot = some e) (h : State.readChecks ch o e = none) :
    admitRead ch r s = joinOrWait ch r (s.dataEntry ch r .read o e.defn none) s := by
  rw [State.readChecks] at h
  simp only [admitRead, htag, ho, transactionVolume_none hm, hx, h]

theorem admitWrite_refused (ho : writeOperands r = some o) (h : s.extentFault o.slot (s.writeChecks ch o) = some c) :
    admitWrite ch r s = refuse ch r c s := by
  have hv := transactionVolume_none hm
  cases hx : s.extent o.slot with
  | none =>
    rw [extentFault_absent hx] at h
    cases h
    simp only [admitWrite, htag, ho, hv, hx]
  | some e =>
    rw [extentFault_present hx] at h
    simp only [admitWrite, htag, ho, hv, hx, h]

theorem admitWrite_passes (ho : writeOperands r = some o) (hx : s.extent o.slot = some e) (h : s.writeChecks ch o e = none) :
    admitWrite ch r s =
      if s.mayPost e.defn o then post ch r (s.newPosted ch r .write o e.defn (s.admissionToken o.slot e)) s
      else joinOrWait ch r (s.dataEntry ch r .write o e.defn (s.admissionToken o.slot e)) s := by
  simp only [admitWrite, htag, ho, transactionVolume_none hm, hx, h]

theorem admitAppend_refused (ho : appendOperands r = some o) (h : s.extentFault o.slot (s.appendChecks ch o) = some c) :
    admitAppend ch r s = refuse ch r c s := by
  have hv := transactionVolume_none hm
  cases hx : s.extent o.slot with
  | none =>
    rw [extentFault_absent hx] at h
    cases h
    simp only [admitAppend, htag, ho, hv, hx]
  | some e =>
    rw [extentFault_present hx] at h
    simp only [admitAppend, htag, ho, hv, hx, h]

theorem admitAppend_passes (ho : appendOperands r = some o) (hx : s.extent o.slot = some e) (h : s.appendChecks ch o e = none) :
    admitAppend ch r s =
      if s.mayPost e.defn o then post ch r (s.newPosted ch r .append o e.defn none) (reserveAppend o.slot o.count s)
      else if s.hasPlace ch then joinWork ch (s.dataEntry ch r .append o e.defn none) (reserveAppend o.slot o.count s)
      else waitForPlace ch r s := by
  simp only [admitAppend, htag, ho, transactionVolume_none hm, hx, h]

end Checked

/-! ## The list of a CLEAR or SCAN (R59) -/

/-- What a CLEAR finds wrong with a present extent. -/
def State.clearChecks (s : State) (ch : Channel) (k : Slot) (e : Extent) : Option Code :=
  if e.defn.mayWrite ch = false then some .noRight
  else if e.defn.kind = .guarded ∧ (s.claim (.extent k)).holder ≠ some ch then some .claimRequired
  else none

/-- What a SCAN finds wrong with a present extent. -/
def scanChecks (ch : Channel) (e : Extent) : Option Code := if e.defn.mayRead ch = false then some .noRight else none

theorem sweepSlotCheck_clear (s : State) (ch : Channel) (k : Slot) :
    s.sweepSlotCheck ch .clear k = s.extentFault k (s.clearChecks ch k) := by
  unfold State.sweepSlotCheck State.extentFault
  cases s.extent k with
  | none => rfl
  | some e =>
    simp only [Option.elim_some, State.clearChecks, firstFail, Bool.not_eq_true', Bool.and_eq_true, beq_iff_eq, bne_iff_ne]

theorem sweepSlotCheck_scan (s : State) (ch : Channel) (k : Slot) : s.sweepSlotCheck ch .scan k = s.extentFault k (scanChecks ch) := by
  unfold State.sweepSlotCheck State.extentFault
  cases s.extent k with
  | none => rfl
  | some e => cases h : e.defn.mayRead ch <;> simp [scanChecks, h]

/-- The first slot of the list that fails gives the outcome. -/
theorem sweepListCheck_first {s : State} {ch : Channel} {kind : SweepKind} {pre : List Slot} {k : Slot} {c : Code}
    (hpre : ∀ j ∈ pre, s.sweepSlotCheck ch kind j = none) (hk : s.sweepSlotCheck ch kind k = some c) (post : List Slot) :
    s.sweepListCheck ch kind (pre ++ k :: post) = some c := by
  induction pre with
  | nil => simp only [List.nil_append, State.sweepListCheck, hk]
  | cons j pre ih =>
    obtain ⟨hj, hrest⟩ := List.forall_mem_cons.1 hpre
    simp only [List.cons_append, State.sweepListCheck, hj, ih hrest]

/-- A list with no slot that fails passes. -/
theorem sweepListCheck_none {s : State} {ch : Channel} {kind : SweepKind} {ks : List Slot}
    (h : ∀ k ∈ ks, s.sweepSlotCheck ch kind k = none) : s.sweepListCheck ch kind ks = none := by
  induction ks with
  | nil => rfl
  | cons k ks ih =>
    obtain ⟨hk, hrest⟩ := List.forall_mem_cons.1 h
    simp only [State.sweepListCheck, hk, ih hrest]

theorem admitClear_refused {s : State} {ch : Channel} {r : Request} {ks : List Slot} {c : Code} (htag : s.tagCheck ch r = none)
    (hm : Mounted ch s) (ho : sweepOperands r = some ks) (h : s.sweepListCheck ch .clear ks = some c) :
    admitClear ch r s = refuse ch r c s := by
  simp only [admitClear, htag, ho, transactionVolume_none hm, h]

theorem admitScan_refused {s : State} {ch : Channel} {r : Request} {ks : List Slot} {c : Code} (htag : s.tagCheck ch r = none)
    (hm : Mounted ch s) (ho : sweepOperands r = some ks) (h : s.sweepListCheck ch .scan ks = some c) :
    admitScan ch r s = refuse ch r c s := by
  simp only [admitScan, htag, ho, transactionVolume_none hm, h]

/-- A CLAIM on an absent slot (R35). -/
theorem claimTargetCheck_absent {s : State} {ch : Channel} {k : Slot} (hv : s.volume.state = .mounted ∨ s.volume.state = .draining)
    (hf : Fresh ch s) (hx : s.extent k = none) : s.claimTargetCheck ch (.extent k) = some .noExtent := by
  simp [State.claimTargetCheck, claimVolume_none hv hf, hx]

end Sys2Proof.Machine

namespace Sys2Proof.Proofs

open Sys2Proof.Machine Sys2Proof.Safety

/-- Settles O20: each kind's checks as a chain, behind the check that the extent is present. -/
theorem extentRefusals : Obligations.ExtentRefusals := by
  refine ⟨fun ch r o s ⟨hst, hk, htag, h255⟩ ho hm hl code h => ?_, fun ch r o s ⟨hst, hk, htag, h255⟩ ho hm hl code h => ?_,
    fun ch r o s ⟨hst, hk, htag, h255⟩ ho hm hl _ code h => ?_, fun ch r ks pre post k s ⟨hst, hk, htag, h255⟩ ho hm hl => ?_,
    fun ch r ks pre post k s ⟨hst, hk, htag, h255⟩ ho hm hl => ?_, fun ch r o k s ⟨hst, hk, htag, h255⟩ ho hx hv hf hnone hl => ?_⟩
  · refine exec_refused (kind := .read) hst hk hl (admitRead_refused (tagCheck_none htag h255) hm ho ?_)
    cases hx : s.extent o.slot with
    | none => rw [hx] at h; rw [extentFault_absent hx]; exact h
    | some e => rw [hx] at h; rw [extentFault_present hx, readChecks_eq]; exact h
  · refine exec_refused (kind := .write) hst hk hl (admitWrite_refused (tagCheck_none htag h255) hm ho ?_)
    cases hx : s.extent o.slot with
    | none => rw [hx] at h; rw [extentFault_absent hx]; exact h
    | some e => rw [hx] at h; rw [extentFault_present hx, writeChecks_eq]; exact h
  · refine exec_refused (kind := .append) hst hk hl (admitAppend_refused (tagCheck_none htag h255) hm ho ?_)
    cases hx : s.extent o.slot with
    | none => rw [hx] at h; rw [extentFault_absent hx]; exact h
    | some e =>
      rw [hx] at h
      rw [extentFault_present hx]
      cases hf : e.fill with
      | none => simp only [hf] at h; exact appendChecks_unfilled s ch o e hf h
      | some f => simp only [hf] at h; rw [appendChecks_eq s ch o e hf]; exact h
  · intro fault hks hpre code hcode
    have hfault : ∀ j, s.sweepSlotCheck ch .clear j = fault j := fun j => by
      rw [sweepSlotCheck_clear, State.extentFault]
      show _ = (match s.extent j with | none => _ | some e => _)
      cases s.extent j <;> rfl
    have hlist := sweepListCheck_first (fun j hj => (hfault j).trans (hpre j hj)) ((hfault k).trans hcode) post
    exact exec_refused (kind := .clear) hst hk hl (admitClear_refused (tagCheck_none htag h255) hm ho (hks ▸ hlist))
  · intro fault hks hpre code hcode
    have hfault : ∀ j, s.sweepSlotCheck ch .scan j = fault j := fun j => by
      rw [sweepSlotCheck_scan, State.extentFault]
      show _ = (match s.extent j with | none => _ | some e => _)
      cases s.extent j <;> rfl
    have hlist := sweepListCheck_first (fun j hj => (hfault j).trans (hpre j hj)) ((hfault k).trans hcode) post
    exact exec_refused (kind := .scan) hst hk hl (admitScan_refused (tagCheck_none htag h255) hm ho (hks ▸ hlist))
  · refine exec_refused (kind := .claim) hst hk hl (admitClaim_refused (tagCheck_none htag h255) ho ?_)
    rw [hx]
    exact claimTargetCheck_absent hv hf hnone

end Sys2Proof.Proofs
end

section
/-! PROOFS. Requests admitted: the work entries and posted writes that READ, WRITE, APPEND, FLUSH and MAP-STORE become, or the wait for a
place (R48, R54 to R58, R61, R102, R108). -/

namespace Sys2Proof.Machine

open Sys2Proof.Safety

/-! ## A place, or a wait (R48, R71) -/

theorem hasPlace_iff (s : State) (ch : Channel) : s.hasPlace ch = true ↔ PlaceFor ch s := decide_eq_true_iff

theorem joinOrWait_place {s : State} {ch : Channel} (h : PlaceFor ch s) (r : Request) (e : Entry) :
    joinOrWait ch r e s = joined ch e s := if_pos ((hasPlace_iff s ch).2 h)

theorem joinOrWait_full {s : State} {ch : Channel} (h : ¬ PlaceFor ch s) (r : Request) (e : Entry) :
    joinOrWait ch r e s = waits ch r s := if_neg (mt (hasPlace_iff s ch).1 h)

/-- A request whose taking comes to a state leaves it. -/
theorem exec_taken {kind : ReqKind} {ch : Channel} {r : Request} {s t : State} (hst : (s.port ch).stage = .request r)
    (hk : r.kind = kind) (h : admitAs kind ch r s = t) : exec (commandOf kind ch) s = .next t :=
  (exec_commandOf hst hk).trans (congrArg _ h)

/-! ## Entries and posted writes in the words of the claims (R19, R50, R72, R85, R102) -/

theorem classFor_eq (d : Definition) (o : DataOperands) : classFor d o.flags.urgent = workClass d o := by
  simp only [classFor, workClass, Bool.and_eq_true]

theorem dataEntry_eq (s : State) (ch : Channel) (r : Request) (kind : WorkKind) (o : DataOperands) (d : Definition) (token : Option Nat) :
    s.dataEntry ch r kind o d token = dataEntryOf ch r kind o d token s := by
  simp only [State.dataEntry, classFor_eq]
  rfl

theorem newPosted_write (s : State) (ch : Channel) (r : Request) (o : DataOperands) (d : Definition) (token : Option Nat) :
    s.newPosted ch r .write o d token = postedOf ch r .write (some o.first) o d token s := by
  simp only [State.newPosted, classFor_eq]
  rfl

theorem newPosted_append (s : State) (ch : Channel) (r : Request) (o : DataOperands) (d : Definition) (token : Option Nat) :
    s.newPosted ch r .append o d token = postedOf ch r .append none o d token s := by
  simp only [State.newPosted, classFor_eq]
  rfl

theorem mayPost_iff (s : State) (d : Definition) (o : DataOperands) : s.mayPost d o = true ↔ Posts d o s := by
  simp only [State.mayPost, Bool.and_eq_true, Bool.not_eq_true', decide_eq_true_eq, and_assoc]

/-- A posted write joins the posted list under the law of R177 (R102). -/
theorem post_of_lawful {s : State} (hl : RepliesLawful s) (ch : Channel) (r : Request) (p : Posted) :
    post ch r p s =
      completed ch r .posted (if p.kind = .append then .append none else .none) { s with posted := s.posted ++ [p] } := by
  rw [post, complete_of_lawful (s := { s with posted := s.posted ++ [p] }) hl]
  cases p.kind <;> rfl

/-! ## Checks that pass -/

theorem readChecks_none {ch : Channel} {o : DataOperands} {e : Extent}
    (hend : o.first + o.count ≤ (e.defn.last - e.defn.first + 1) * 24) (hright : e.defn.mayRead ch = true) (hclear : e.clearing = false) :
    State.readChecks ch o e = none := by
  simp [readChecks_eq, hend, hright, hclear]

theorem writeChecks_none {s : State} {ch : Channel} {o : DataOperands} {e : Extent}
    (hend : o.first + o.count ≤ (e.defn.last - e.defn.first + 1) * 24) (hkind : e.defn.kind ≠ .append) (hright : e.defn.mayWrite ch = true)
    (hclear : e.clearing = false) (hclaim : e.defn.kind = .guarded → (s.claim (.extent o.slot)).holder = some ch)
    (hprot : s.ownerActive .protect = false)
    (hgood : o.flags.force = true ∨ ∀ i < o.count, ∀ d ∈ s.seq.defects, ¬ (d.cylinder = e.defn.first + (o.first + i) / 24
      ∧ d.head = (o.first + i) % 24 / 12 ∧ d.sector = (o.first + i) % 12)) : s.writeChecks ch o e = none := by
  rw [writeChecks_eq, if_neg hend.not_gt, if_neg hkind, if_neg (by simp [hright]), if_neg (by simp [hclear]),
    if_neg (fun h => h.2 (hclaim h.1)), if_neg (by simp [hprot]), if_neg]
  rintro ⟨hforce, i, hi, d, hd, hat⟩
  rcases hgood with h | h
  · exact absurd h (by simp [hforce])
  · exact h i hi d hd hat

theorem appendChecks_none {s : State} {ch : Channel} {o : DataOperands} {e : Extent} {f : Fill} (hkind : e.defn.kind = .append)
    (hright : e.defn.mayWrite ch = true) (hclear : e.clearing = false) (hprot : s.ownerActive .protect = false) (hf : e.fill = some f)
    (hknown : f.state = .known) (hroom : f.mark + f.pending + o.count ≤ (e.defn.last - e.defn.first + 1) * 24) :
    s.appendChecks ch o e = none := by
  simp [appendChecks_eq s ch o e hf, hkind, hright, hclear, hprot, hknown, hroom]

/-- The sectors of an admitted APPEND join appends pending (R25). -/
theorem reserveAppend_eq {s : State} {k : Slot} {e : Extent} {f : Fill} (hx : s.extent k = some e) (hf : e.fill = some f) (n : Nat) :
    reserveAppend k n s = updExtent k (fun x => { x with fill := some { f with pending := f.pending + n } }) s := by
  have hget : s.extents.get k = some e := hx
  simp only [reserveAppend, updFill, updExtent, hget, Option.map_some, hf]

/-- An APPEND names no sector. -/
theorem appendOperands_first {r : Request} {o : DataOperands} (h : appendOperands r = some o) : o.first = 0 := by
  obtain ⟨_, _, -, -, -, hfirst, -⟩ := (appendOperands_iff r o).1 h
  exact hfirst

/-! ## FLUSH and MAP-STORE (R58, R61, R108) -/

theorem admitFlush_none {s : State} {ch : Channel} {r : Request} (htag : s.tagCheck ch r = none) (hlen : r.length = 0)
    (h : s.posted.filter (fun p => p.channel = ch) = []) : admitFlush ch r s = complete ch r .done .none s := by
  simp only [admitFlush, htag, emptyOperands_some hlen]
  exact if_neg (fun hany => by
    obtain ⟨p, hp, hch⟩ := List.any_eq_true.1 hany
    exact List.filter_eq_nil_iff.1 h p hp hch)

theorem admitFlush_some {s : State} {ch : Channel} {r : Request} (htag : s.tagCheck ch r = none) (hlen : r.length = 0)
    (h : s.posted.filter (fun p => p.channel = ch) ≠ []) : admitFlush ch r s = joinOrWait ch r (s.flushEntry ch r) s := by
  simp only [admitFlush, htag, emptyOperands_some hlen]
  refine if_pos (List.any_eq_true.2 ?_)
  by_contra hno
  exact h (List.filter_eq_nil_iff.2 (fun p hp hch => hno ⟨p, hp, hch⟩))

/-- A MAP-STORE from the holder of the controller claim, with the volume usable. -/
theorem admitMapStore_checked {s : State} {ch : Channel} {r : Request} {serial : BitVec 32} (htag : s.tagCheck ch r = none)
    (ho : mapStoreOperands r = some serial) (hctl : s.ctlClaim.holder = some ch) (hm : Mounted ch s) :
    admitMapStore ch r s =
      if s.ownerActive .protect then refuse ch r .writeProtected s
      else joinOrWait ch r { s.newEntry ch r .mapStore .setup with serial := serial } s := by
  have hholds : firstFail [(!s.holdsController ch, Code.claimRequired)] = none :=
    firstFail_cons_false (by rw [holdsController_of hctl]; rfl) _ _
  simp only [admitMapStore, htag, ho, hholds, transactionVolume_none hm]

end Sys2Proof.Machine

namespace Sys2Proof.Proofs

open Sys2Proof.Machine Sys2Proof.Safety

/-- Settles O21: the checks pass, and the request is posted, joins the work list or waits. -/
theorem dataTransactionsAdmitted : Obligations.DataTransactionsAdmitted := by
  refine ⟨fun ch r o e s ⟨hst, hk, htag, h255⟩ ho hm hx hend hright hclear => ?_,
    fun ch r o e s ⟨hst, hk, htag, h255⟩ ho hm hx hend hkind hright hclear hclaim hprot hgood hl => ?_,
    fun ch r o e f s ⟨hst, hk, htag, h255⟩ ho hm hx hkind hright hclear hprot hf hknown hroom hl => ?_⟩
  · have hadmit := admitRead_passes (tagCheck_none htag h255) hm ho hx (readChecks_none hend hright hclear)
    rw [dataEntry_eq] at hadmit
    exact ⟨fun hp => exec_taken (kind := .read) hst hk (hadmit.trans (joinOrWait_place hp ..)),
      fun hp => exec_taken (kind := .read) hst hk (hadmit.trans (joinOrWait_full hp ..))⟩
  · intro token
    have hadmit := admitWrite_passes (tagCheck_none htag h255) hm ho hx
      (writeChecks_none hend hkind hright hclear hclaim hprot hgood)
    rw [dataEntry_eq, newPosted_write, post_of_lawful hl] at hadmit
    refine ⟨fun hpost => ?_, fun hpost hp => ?_, fun hpost hp => ?_⟩ <;>
      refine exec_taken (kind := .write) hst hk (hadmit.trans ?_)
    · exact if_pos ((mayPost_iff s e.defn o).2 hpost)
    · exact (if_neg (mt (mayPost_iff s e.defn o).1 hpost)).trans (joinOrWait_place hp ..)
    · exact (if_neg (mt (mayPost_iff s e.defn o).1 hpost)).trans (joinOrWait_full hp ..)
  · intro u
    have hadmit := admitAppend_passes (tagCheck_none htag h255) hm ho hx
      (appendChecks_none hkind hright hclear hprot hf hknown hroom)
    have hu : RepliesLawful u := hl
    rw [dataEntry_eq, newPosted_append, reserveAppend_eq hx hf, post_of_lawful hu] at hadmit
    refine ⟨fun hpost => ?_, fun hpost hp => ?_, fun hpost hp => ?_⟩ <;>
      refine exec_taken (kind := .append) hst hk (hadmit.trans ?_)
    · exact if_pos ((mayPost_iff s e.defn o).2 hpost)
    · rw [if_neg (mt (mayPost_iff s e.defn o).1 hpost), if_pos ((hasPlace_iff s ch).2 hp)]
      exact congrArg (fun n => joined ch { dataEntryOf ch r .append o e.defn none s with first := n } u) (appendOperands_first ho)
    · rw [if_neg (mt (mayPost_iff s e.defn o).1 hpost), if_neg (mt (hasPlace_iff s ch).1 hp)]
      rfl

/-- Settles O22: a FLUSH by whether the channel has a posted write, a MAP-STORE by PROTECT, each by whether there is a place. -/
theorem flushAndMapStoreAdmitted : Obligations.FlushAndMapStoreAdmitted := by
  refine ⟨fun ch r s ⟨hst, hk, htag, h255⟩ hlen hl => ?_, fun ch r serial s ⟨hst, hk, htag, h255⟩ ho hctl hm hl => ?_⟩
  · intro mine
    have ht := tagCheck_none htag h255
    refine ⟨fun h => ?_, fun h hp => ?_, fun h hp => ?_⟩ <;> refine exec_taken (kind := .flush) hst hk ?_
    · exact (admitFlush_none ht hlen h).trans (complete_of_lawful hl ..)
    · exact (admitFlush_some ht hlen h).trans (joinOrWait_place hp ..)
    · exact (admitFlush_some ht hlen h).trans (joinOrWait_full hp ..)
  · have hadmit := admitMapStore_checked (tagCheck_none htag h255) ho hctl hm
    refine ⟨fun hprot => ?_, fun hprot hp => ?_, fun hprot hp => ?_⟩
    · exact exec_refused (kind := .mapStore) hst hk hl (hadmit.trans (if_pos hprot))
    · exact exec_taken (kind := .mapStore) hst hk
        (hadmit.trans ((if_neg (Bool.eq_false_iff.1 hprot)).trans (joinOrWait_place hp ..)))
    · exact exec_taken (kind := .mapStore) hst hk
        (hadmit.trans ((if_neg (Bool.eq_false_iff.1 hprot)).trans (joinOrWait_full hp ..)))

end Sys2Proof.Proofs
end

section
/-! PROOFS. A retaken request: admission does not look at the stage that it takes the request from (R48). -/

namespace Sys2Proof.Machine

open Sys2Proof.Safety

/-- A state with something else in a channel's stage. -/
def restaged (ch : Channel) (st : Stage) (s : State) : State := s.updPort ch (fun p => { p with stage := st })

section Restaged

variable (ch : Channel) (st : Stage) (s : State) (r : Request)

theorem restaged_tagCheck : (restaged ch st s).tagCheck ch r = s.tagCheck ch r := by
  cases ch <;> rfl

theorem restaged_transactionVolume : (restaged ch st s).transactionVolume ch = s.transactionVolume ch := by
  cases ch <;> rfl

theorem restaged_dataEntry (kind : WorkKind) (o : DataOperands) (d : Definition) (token : Option Nat) :
    (restaged ch st s).dataEntry ch r kind o d token = s.dataEntry ch r kind o d token := by
  cases ch <;> rfl

theorem restaged_newEntry (kind : WorkKind) (c : WorkClass) : (restaged ch st s).newEntry ch r kind c = s.newEntry ch r kind c := by
  cases ch <;> rfl

theorem restaged_newPosted (kind : PostedKind) (o : DataOperands) (d : Definition) (token : Option Nat) :
    (restaged ch st s).newPosted ch r kind o d token = s.newPosted ch r kind o d token := by
  cases ch <;> rfl

theorem restaged_flushEntry : (restaged ch st s).flushEntry ch r = s.flushEntry ch r := by
  cases ch <;> rfl

/-! Each way in which such a request leaves the stage, or stays in it, puts something else there. -/

theorem formReply_restaged (reply : Reply) : formReply ch reply (restaged ch st s) = formReply ch reply s := by
  rw [formReply, restaged, updPort_updPort]
  rfl

theorem refuse_restaged (c : Code) : refuse ch r c (restaged ch st s) = refuse ch r c s := by
  rw [refuse, formReply_restaged]
  rfl

theorem complete_restaged (c : Code) (body : Body) : complete ch r c body (restaged ch st s) = complete ch r c body s :=
  formReply_restaged ch st { s with nextOrder := s.nextOrder + 1 } _

theorem post_restaged (p : Posted) : post ch r p (restaged ch st s) = post ch r p s :=
  complete_restaged ch st { s with posted := s.posted ++ [p] } r _ _

theorem waitForPlace_restaged : waitForPlace ch r (restaged ch st s) = waitForPlace ch r s := updPort_updPort ..

theorem joinWork_restaged (e : Entry) : joinWork ch e (restaged ch st s) = joinWork ch e s := by
  cases ch <;> rfl

theorem joinOrWait_restaged (e : Entry) : joinOrWait ch r e (restaged ch st s) = joinOrWait ch r e s := by
  rw [joinOrWait, joinWork_restaged, waitForPlace_restaged]
  rfl

/-! ## The five kinds that may wait -/

theorem admitRead_restaged : admitRead ch r (restaged ch st s) = admitRead ch r s := by
  simp only [admitRead, restaged_tagCheck, restaged_transactionVolume, restaged_dataEntry, refuse_restaged, joinOrWait_restaged]
  rfl

theorem admitWrite_restaged : admitWrite ch r (restaged ch st s) = admitWrite ch r s := by
  simp only [admitWrite, restaged_tagCheck, restaged_transactionVolume, restaged_dataEntry, restaged_newPosted, refuse_restaged,
    post_restaged, joinOrWait_restaged]
  rfl

theorem admitAppend_restaged : admitAppend ch r (restaged ch st s) = admitAppend ch r s := by
  have hreserve : ∀ k n, reserveAppend k n (restaged ch st s) = restaged ch st (reserveAppend k n s) := fun _ _ => rfl
  simp only [admitAppend, restaged_tagCheck, restaged_transactionVolume, restaged_dataEntry, restaged_newPosted, refuse_restaged, hreserve,
    post_restaged, joinWork_restaged, waitForPlace_restaged]
  rfl

theorem admitFlush_restaged : admitFlush ch r (restaged ch st s) = admitFlush ch r s := by
  simp only [admitFlush, restaged_tagCheck, restaged_flushEntry, refuse_restaged, complete_restaged, joinOrWait_restaged]
  rfl

theorem admitMapStore_restaged : admitMapStore ch r (restaged ch st s) = admitMapStore ch r s := by
  simp only [admitMapStore, restaged_tagCheck, restaged_transactionVolume, restaged_newEntry, refuse_restaged, joinOrWait_restaged]
  rfl

end Restaged

/-- A request of a kind that may wait is retaken as it is taken. -/
theorem retakeRequest_eq {ch : Channel} {r : Request} (h : r.kind ∈ [ReqKind.read, .write, .append, .flush, .mapStore]) (st : Stage)
    (s : State) : admitAs r.kind ch r (restaged ch st s) = retakeRequest ch r s := by
  simp only [List.mem_cons, List.not_mem_nil, or_false] at h
  unfold retakeRequest
  rcases h with h | h | h | h | h <;> rw [h]
  · exact admitRead_restaged ..
  · exact admitWrite_restaged ..
  · exact admitAppend_restaged ..
  · exact admitFlush_restaged ..
  · exact admitMapStore_restaged ..

end Sys2Proof.Machine

namespace Sys2Proof.Proofs

open Sys2Proof.Machine Sys2Proof.Safety

/-- Settles O33: what admission does with a request does not depend on what stands in its stage. -/
theorem requestRetake : Obligations.RequestRetake := by
  intro ch r s hst hk
  have hexec : exec (.requestRetake ch) s = .next (retakeRequest ch r s) := by
    show execRequestRetake ch s = _
    rw [execRequestRetake, hst]
  exact ⟨_, hexec, exec_taken (updPort_port_same ..▸ rfl) rfl (retakeRequest_eq hk ..)⟩

end Sys2Proof.Proofs
end

section
/-! PROOFS. CLEAR and SCAN admitted: a sweep opened or joined (R59, R164, R165). -/

namespace Sys2Proof.Machine

open Sys2Proof.Safety

/-! ## The items of a sweep (R163, R164) -/

theorem newItem_clear (s : State) (n : Nat) (k : Slot) :
    s.newItem .clear n k =
      { slot := k, order := n, token := (s.extent k).bind (fun e => tokenOf k e.defn s), top := none, failed := false, result := none } := by
  unfold State.newItem tokenOf
  cases s.extent k <;> rfl

/-! ## The sweep opened (R164) -/

/-- The state in which a CLEAR has opened its sweep, its extents not yet marked. -/
def clearOpened (ch : Channel) (r : Request) (ks : List Slot) (s : State) : State :=
  { s.updPort ch (fun p => { p with stage := .empty }) with
    nextOrder := s.nextOrder + 1
    sweep := some {
      kind := .clear, channel := ch, tag := r.tag, verify := (s.port ch).context.verify
      items := ks.map (fun k =>
        { slot := k, order := s.nextOrder, token := (s.extent k).bind (fun e => tokenOf k e.defn s), top := none,
          failed := false, result := none })
      window := some 400, current := none, sector := none, halt := false, cause := none, discard := false } }

theorem openSweep_clear (ch : Channel) (r : Request) (ks : List Slot) (s : State) :
    openSweep ch r .clear ks s = markSlots true ks (clearOpened ch r ks s) := by
  have hitem : s.newItem .clear s.nextOrder = _ := funext (newItem_clear s s.nextOrder)
  simp only [openSweep, hitem]
  rfl

/-! ## The open window joined (R165) -/

/-- The slots of a CLEAR that the sweep does not have yet. -/
def Sweep.newSlots (sw : Sweep) (ks : List Slot) : List Slot := ks.filter (fun k => decide (∀ it ∈ sw.items, it.slot ≠ k))

theorem newSlots_eq (sw : Sweep) (ks : List Slot) : ks.filter (fun k => !sw.items.any (fun it => it.slot = k)) = sw.newSlots ks := by
  refine List.filter_congr (fun k _ => ?_)
  rw [Bool.eq_iff_iff]
  simp

/-- The state in which the sweep has the slots of a joining CLEAR that it did not have yet, not yet marked. -/
def clearJoined (sw : Sweep) (ks : List Slot) (s : State) : State :=
  { s with sweep := some { sw with items := sw.items ++ (sw.newSlots ks).map (fun k =>
      { slot := k, order := s.nextOrder, token := (s.extent k).bind (fun e => tokenOf k e.defn s), top := none,
        failed := false, result := none }) } }

theorem joinSweep_full {sw : Sweep} {ks : List Slot} (h : sw.items.length + (sw.newSlots ks).length > 8) (ch : Channel) (r : Request)
    (s : State) : joinSweep ch r sw ks s = refuse ch r .sweepFull s := by
  simp only [joinSweep, newSlots_eq]
  exact if_pos h

theorem joinSweep_joins {sw : Sweep} {ks : List Slot} (h : sw.items.length + (sw.newSlots ks).length ≤ 8) (ch : Channel) (r : Request)
    (s : State) :
    joinSweep ch r sw ks s = complete ch r .joined .none (markSlots true (sw.newSlots ks) (clearJoined sw ks s)) := by
  have hitem : s.newItem .clear s.nextOrder = _ := funext (newItem_clear s s.nextOrder)
  simp only [joinSweep, newSlots_eq, hitem]
  exact if_neg h.not_gt

theorem markSlots_repliesLawful (on : Bool) (ks : List Slot) {s : State} (h : RepliesLawful s) : RepliesLawful (markSlots on ks s) := by
  rw [markSlots_frame]
  exact h

/-! ## CLEAR and SCAN checked -/

section Sweeps

variable {s : State} {ch : Channel} {r : Request} {ks : List Slot} (htag : s.tagCheck ch r = none)
  (ho : sweepOperands r = some ks) (hm : Mounted ch s)

theorem clearList_passes (h : ∀ k ∈ ks, ∃ e, s.extent k = some e ∧ e.defn.mayWrite ch = true
    ∧ (e.defn.kind = .guarded → (s.claim (.extent k)).holder = some ch)) : s.sweepListCheck ch .clear ks = none := by
  refine sweepListCheck_none (fun k hk => ?_)
  obtain ⟨e, hx, hright, hclaim⟩ := h k hk
  rw [sweepSlotCheck_clear, extentFault_present hx, State.clearChecks, if_neg (by simp [hright]), if_neg (fun hg => hg.2 (hclaim hg.1))]

theorem scanList_passes (h : ∀ k ∈ ks, ∃ e, s.extent k = some e ∧ e.defn.mayRead ch = true) : s.sweepListCheck ch .scan ks = none := by
  refine sweepListCheck_none (fun k hk => ?_)
  obtain ⟨e, hx, hright⟩ := h k hk
  rw [sweepSlotCheck_scan, extentFault_present hx, scanChecks, if_neg (by simp [hright])]

include htag ho hm

theorem admitClear_protected (hlist : s.sweepListCheck ch .clear ks = none) (hprot : s.ownerActive .protect = true) :
    admitClear ch r s = refuse ch r .writeProtected s := by
  simp only [admitClear, htag, ho, transactionVolume_none hm, hlist, hprot, if_true]

theorem admitClear_opens (hlist : s.sweepListCheck ch .clear ks = none) (hprot : s.ownerActive .protect = false) (hsw : s.sweep = none) :
    admitClear ch r s = markSlots true ks (clearOpened ch r ks s) := by
  simp only [admitClear, htag, ho, transactionVolume_none hm, hlist, hprot, hsw, Bool.false_eq_true, if_false]
  exact openSweep_clear ..

/-- A CLEAR that finds a sweep open. -/
theorem admitClear_finds {sw : Sweep} (hlist : s.sweepListCheck ch .clear ks = none) (hprot : s.ownerActive .protect = false)
    (hsw : s.sweep = some sw) :
    admitClear ch r s =
      if sw.kind = .clear ∧ sw.window.isSome ∧ sw.channel = ch then joinSweep ch r sw ks s else refuse ch r .sweepBusy s := by
  simp only [admitClear, htag, ho, transactionVolume_none hm, hlist, hprot, hsw, Bool.false_eq_true, if_false]

theorem admitScan_checked (hlist : s.sweepListCheck ch .scan ks = none) :
    admitScan ch r s = if s.sweep.isSome then refuse ch r .sweepBusy s else openSweep ch r .scan ks s := by
  simp only [admitScan, htag, ho, transactionVolume_none hm, hlist]

end Sweeps

end Sys2Proof.Machine

namespace Sys2Proof.Proofs

open Sys2Proof.Machine Sys2Proof.Safety

/-- Settles O27: with no sweep open by PROTECT, with one by whose it is, whether its window is open, and how many extents it would have. -/
theorem clearOpensJoinsOrIsBusy : Obligations.ClearOpensJoinsOrIsBusy := by
  refine ⟨fun ch r ks s ⟨hst, hk, htag, h255⟩ ho hm hgood hl => ?_, fun ch r ks sw s ⟨hst, hk, htag, h255⟩ ho hm hgood hl hprot hsw => ?_⟩
  · have ht := tagCheck_none htag h255
    have hlist := clearList_passes hgood
    refine ⟨fun hprot => exec_refused (kind := .clear) hst hk hl (admitClear_protected ht ho hm hlist hprot), fun hprot hsw => ?_⟩
    exact ⟨_, exec_taken (kind := .clear) hst hk (admitClear_opens ht ho hm hlist hprot hsw),
      markSlots_extent true ks (clearOpened ch r ks s), markSlots_frame true ks (clearOpened ch r ks s)⟩
  · intro new
    have hadmit := admitClear_finds (tagCheck_none htag h255) ho hm (clearList_passes hgood) hprot hsw
    refine ⟨fun hother => ?_, fun hkind hwin hch hmany => ?_, fun hkind hwin hch hfew => ?_⟩
    · exact exec_refused (kind := .clear) hst hk hl (hadmit.trans (if_neg hother))
    · rw [if_pos ⟨hkind, hwin, hch⟩, joinSweep_full hmany] at hadmit
      exact exec_refused (kind := .clear) hst hk hl hadmit
    · have hlaw := markSlots_repliesLawful true (sw.newSlots ks) (s := clearJoined sw ks s) hl
      rw [if_pos ⟨hkind, hwin, hch⟩, joinSweep_joins hfew, complete_of_lawful hlaw] at hadmit
      exact ⟨_, exec_taken (kind := .clear) hst hk hadmit, markSlots_extent true new (clearJoined sw ks s),
        markSlots_frame true new (clearJoined sw ks s)⟩

/-- Settles O28, by whether a sweep is open. -/
theorem scanOpensSweep : Obligations.ScanOpensSweep := by
  intro ch r ks s ⟨hst, hk, htag, h255⟩ ho hm hgood hl
  have hadmit := admitScan_checked (tagCheck_none htag h255) ho hm (scanList_passes hgood)
  refine ⟨fun hsw => exec_refused (kind := .scan) hst hk hl (hadmit.trans (if_pos hsw)), fun hsw => ?_⟩
  exact exec_taken (kind := .scan) hst hk (hadmit.trans (if_neg (by simp [hsw])))

end Sys2Proof.Proofs
end

section
/-! PROOFS. CONTEXT and SETTINGS-LOAD: their bodies, what they accept, and what they leave (R63 to R66, R180, R187). -/

namespace Sys2Proof.Machine

open Sys2Proof.Safety

/-! ## The body of a CONTEXT (R187) -/

/-- The words of a CONTEXT's body, the check span as an absent field. -/
def RawContext.words (raw : RawContext) : List Word :=
  raw.gen :: ((match raw.span with | none => [0] | some (x, y, i) => [1, x, y, i])
    ++ [raw.verify, raw.attnMask, raw.delay, raw.lineMask])

theorem contextOperands_iff (r : Request) (raw : RawContext) : contextOperands r = some raw ↔ r.body = raw.words := by
  constructor
  · intro h
    unfold contextOperands at h
    split at h
    · rename_i hb
      split at h
      · rename_i hp
        cases h
        rw [hb, hp]
        rfl
      · cases h
    · rename_i hb
      split at h
      · rename_i hp
        cases h
        rw [hb, hp]
        rfl
      · cases h
    · cases h
  · intro hb
    obtain ⟨gen, span, verify, attnMask, delay, lineMask⟩ := raw
    cases span <;> simp only [contextOperands, hb, RawContext.words] <;> rfl

/-! ## The fields of a context (R63, R64) -/

/-- The fields of a CONTEXT other than the check span are in range. -/
def RawContext.fieldsOk (raw : RawContext) : Prop :=
  raw.gen.toNat ≤ 255 ∧ (raw.verify = 0 ∨ raw.verify = 1) ∧ raw.attnMask.toNat < 128 ∧ raw.delay.toNat ≤ 15 ∧ raw.lineMask.toNat < 64

/-- The check span that a CONTEXT names. -/
def RawContext.checkSpan (raw : RawContext) : Option CheckSpan :=
  raw.span.map (fun p => { first := p.1.toNat, last := p.2.1.toNat, insert := p.2.2.toNat })

/-- The context that a CONTEXT's words hold. -/
def RawContext.context (raw : RawContext) : Context :=
  { expectedGen := raw.gen.toNat, span := raw.checkSpan, verify := raw.verify == 1, attnMask := raw.attnMask.setWidth 7,
    attnDelay := raw.delay.toNat, lineMask := raw.lineMask.setWidth 6 }

/-- The check span of a CONTEXT, if it names one, is in range. -/
def RawContext.spanGood (raw : RawContext) : Prop :=
  ∀ x y i, raw.span = some (x, y, i) → x.toNat ≤ 255 ∧ y.toNat ≤ 255 ∧ i.toNat ≤ 255 ∧ x.toNat ≤ y.toNat
    ∧ ¬ (x.toNat ≤ i.toNat ∧ i.toNat ≤ y.toNat)

theorem spanOk_iff (x y i : Nat) : spanOk x y i = true ↔ x ≤ 255 ∧ y ≤ 255 ∧ i ≤ 255 ∧ x ≤ y ∧ ¬ (x ≤ i ∧ i ≤ y) := by
  rw [spanOk, decide_eq_true_eq]
  refine and_congr_right (fun _ => and_congr_right (fun _ => and_congr_right (fun _ => and_congr_right (fun _ => ?_))))
  omega

theorem contextOf_eq_some (raw : RawContext) (c : Context) :
    contextOf raw = some c ↔ (raw.fieldsOk ∧ raw.spanGood) ∧ raw.context = c := by
  obtain ⟨gen, span, verify, attnMask, delay, lineMask⟩ := raw
  unfold contextOf
  split
  · rename_i hfields
    have hok : RawContext.fieldsOk { gen, span, verify, attnMask, delay, lineMask } := hfields
    cases span with
    | none =>
      have hspan : RawContext.spanGood { gen, span := none, verify, attnMask, delay, lineMask } := fun _ _ _ h => nomatch h
      rw [Option.some.injEq]
      exact ⟨fun h => ⟨⟨hok, hspan⟩, h⟩, fun h => h.2⟩
    | some p =>
      obtain ⟨x, y, i⟩ := p
      have hspan : RawContext.spanGood { gen, span := some (x, y, i), verify, attnMask, delay, lineMask } ↔
          spanOk x.toNat y.toNat i.toNat = true := by
        rw [spanOk_iff]
        exact ⟨fun h => h x y i rfl, fun h _ _ _ he => by cases he; exact h⟩
      rw [hspan]
      dsimp only
      split
      · rename_i hgood
        rw [Option.some.injEq]
        exact ⟨fun h => ⟨⟨hok, hgood⟩, h⟩, fun h => h.2⟩
      · rename_i hbad
        exact ⟨fun h => (nomatch h), fun h => absurd h.1.2 hbad⟩
  · rename_i hfields
    exact ⟨fun h => (nomatch h), fun h => absurd h.1.1 hfields⟩

theorem contextOf_isSome (raw : RawContext) : (contextOf raw).isSome ↔ raw.fieldsOk ∧ raw.spanGood := by
  rw [Option.isSome_iff_exists]
  exact ⟨fun ⟨c, h⟩ => ((contextOf_eq_some raw c).1 h).1, fun h => ⟨_, (contextOf_eq_some raw _).2 ⟨h, rfl⟩⟩⟩

/-- What the words of a context in range hold. -/
theorem context_holds {raw : RawContext} (h : raw.fieldsOk) :
    raw.context.expectedGen = raw.gen.toNat ∧ (raw.context.verify = true ↔ raw.verify = 1)
      ∧ raw.context.attnMask.toNat = raw.attnMask.toNat ∧ raw.context.attnDelay = raw.delay.toNat
      ∧ raw.context.lineMask.toNat = raw.lineMask.toNat ∧ raw.context.span = raw.checkSpan := by
  obtain ⟨-, -, hattn, -, hline⟩ := h
  exact ⟨rfl, beq_iff_eq, (setWidth_eq_iff (n := 7) hattn _).1 rfl, rfl, (setWidth_eq_iff (n := 6) hline _).1 rfl, rfl⟩

/-! ## A context loaded (R64, R180) -/

theorem loadContext_eq (p : Port) (c : Context) :
    p.loadContext c =
      { p with
        context := c
        attnTimer := if c.attnDelay = 0 then none else p.attnTimer
        events := if c.attnDelay = 0 ∧ p.attnTimer.isSome then p.events ||| 1 else p.events } := by
  unfold Port.loadContext
  by_cases hrun : c.attnDelay = 0 ∧ p.attnTimer.isSome
  · rw [if_pos hrun, if_pos hrun, if_pos hrun.1]
    rfl
  · have htimer : (if c.attnDelay = 0 then none else p.attnTimer) = p.attnTimer := by
      split
      · rename_i hd
        exact (Option.not_isSome_iff_eq_none.1 (fun h => hrun ⟨hd, h⟩)).symm
      · rfl
    rw [if_neg hrun, if_neg hrun, htimer]

theorem loadContext_repliesLawful (ch : Channel) (c : Context) {s : State} (h : RepliesLawful s) :
    RepliesLawful (s.updPort ch (fun p => p.loadContext c)) := by
  refine repliesLawful_congr h (fun d => ?_)
  rw [updPort_port]
  split
  · subst_vars
    rw [loadContext_eq]
    exact ⟨rfl, rfl⟩
  · exact ⟨rfl, rfl⟩

/-! ## The words of the settings (R65, R187) -/

theorem settingsOperands_iff (r : Request) (ws : List Word) : settingsOperands r = some ws ↔ r.body = ws ∧ ws.length = 25 := by
  unfold settingsOperands
  split
  · rename_i hlen
    rw [Option.some.injEq]
    exact ⟨fun h => ⟨h, h ▸ hlen⟩, fun h => h.1⟩
  · rename_i hlen
    exact ⟨fun h => (nomatch h), fun h => absurd (h.1 ▸ h.2) hlen⟩

/-- Five words make a row of the class table in the ranges of R65. -/
def rowWordsOk (d l r w y : Nat) : Prop := d ≤ 5000 ∧ l ≤ 1 ∧ r ≤ 7 ∧ w ≤ 7 ∧ y ≤ 1

/-- The row of the class table that five words hold. -/
def rowOfWords (d l r w y : Nat) : ClassRow :=
  { deadline := d, lateAction := if l = 0 then .mark else .abandon, readRetries := r, writeRetries := w, yields := decide (y = 1) }

theorem word_le_one (w : Word) : (w = 0 ∨ w = 1) ↔ w.toNat ≤ 1 := by
  rw [← BitVec.toNat_inj, ← BitVec.toNat_inj]
  exact ⟨fun h => by rcases h with h | h <;> rw [h] <;> decide, fun h => by
    have : w.toNat = 0 ∨ w.toNat = 1 := by omega
    exact this⟩

theorem word_eq_zero (w : Word) : w = 0 ↔ w.toNat = 0 := BitVec.toNat_inj.symm

theorem word_eq_one (w : Word) : w = 1 ↔ w.toNat = 1 := BitVec.toNat_inj.symm

theorem beq_one (w : Word) : (w == 1) = decide (w.toNat = 1) := by
  rw [Bool.eq_iff_iff, beq_iff_eq, decide_eq_true_eq, word_eq_one]

theorem classRowOf_eq_some (d l r w y : Word) (row : ClassRow) :
    classRowOf [d, l, r, w, y] = some row ↔
      rowWordsOk d.toNat l.toNat r.toNat w.toNat y.toNat ∧ rowOfWords d.toNat l.toNat r.toNat w.toNat y.toNat = row := by
  have hrow : ClassRow.mk d.toNat (if l = 0 then .mark else .abandon) r.toNat w.toNat (y == 1) =
      rowOfWords d.toNat l.toNat r.toNat w.toNat y.toNat := by
    simp only [rowOfWords, word_eq_zero l, beq_one]
  simp only [classRowOf, word_le_one, hrow]
  split
  · rename_i hok
    rw [Option.some.injEq]
    exact ⟨fun h => ⟨hok, h⟩, fun h => h.2⟩
  · rename_i hbad
    exact ⟨fun h => (nomatch h), fun h => absurd h.1 hbad⟩

/-- Word `i` of a list, as a number. -/
def wordAt (ws : List Word) (i : Nat) : Nat := (ws.getD i 0).toNat

/-- A class's five words in a list of settings are in range. -/
def classWordsOk (ws : List Word) (c : WorkClass) : Prop :=
  rowWordsOk (wordAt ws (5 * c.code)) (wordAt ws (5 * c.code + 1)) (wordAt ws (5 * c.code + 2)) (wordAt ws (5 * c.code + 3))
    (wordAt ws (5 * c.code + 4))

/-- The row of a class that a list of settings holds. -/
def classRowAt (ws : List Word) (c : WorkClass) : ClassRow :=
  rowOfWords (wordAt ws (5 * c.code)) (wordAt ws (5 * c.code + 1)) (wordAt ws (5 * c.code + 2)) (wordAt ws (5 * c.code + 3))
    (wordAt ws (5 * c.code + 4))

/-- Five words of a list from a place on. -/
theorem take_five {ws : List Word} {i : Nat} (h : i + 5 ≤ ws.length) :
    (ws.drop i).take 5 = [ws.getD i 0, ws.getD (i + 1) 0, ws.getD (i + 2) 0, ws.getD (i + 3) 0, ws.getD (i + 4) 0] := by
  refine List.ext_getElem (by simp; omega) (fun j hj hj' => ?_)
  have hj5 : j < 5 := hj'
  rw [List.getElem_take, List.getElem_drop]
  interval_cases j <;> exact (List.getD_eq_getElem ws 0 (by omega)).symm

/-- The row that a class's five words make. -/
theorem classRowOf_at {ws : List Word} (hlen : ws.length = 25) (c : WorkClass) (row : ClassRow) :
    classRowOf ((ws.drop (5 * c.code)).take 5) = some row ↔ classWordsOk ws c ∧ classRowAt ws c = row := by
  have hc : 5 * c.code + 5 ≤ ws.length := by
    rw [hlen]
    cases c <;> decide
  rw [take_five hc, classRowOf_eq_some]
  rfl

/-- The last five words of the settings are in range (R65, R66). -/
def tailWordsOk (ws : List Word) : Prop :=
  8 ≤ wordAt ws 20 ∧ wordAt ws 20 ≤ 16 ∧ 8 ≤ wordAt ws 21 ∧ wordAt ws 21 ≤ 16 ∧ wordAt ws 20 + wordAt ws 21 ≤ 24
    ∧ 1000 ≤ wordAt ws 22 ∧ wordAt ws 22 ≤ 30000 ∧ wordAt ws 23 ≤ 1 ∧ wordAt ws 24 ≤ 1

/-- The settings that a list of 25 words holds. -/
def settingsAt (ws : List Word) : Settings :=
  { urgent := classRowAt ws .urgent, setup := classRowAt ws .setup, log := classRowAt ws .log, bulk := classRowAt ws .bulk
    quotaA := wordAt ws 20, quotaB := wordAt ws 21, drainTimeout := wordAt ws 22, storeOnUnload := decide (wordAt ws 23 = 1)
    powerMode := if wordAt ws 24 = 0 then .sectorEnd else .immediate }

theorem settingsOf_eq_some {ws : List Word} (hlen : ws.length = 25) (new : Settings) :
    settingsOf ws = some new ↔ ((∀ c, classWordsOk ws c) ∧ tailWordsOk ws) ∧ settingsAt ws = new := by
  have hclass : ∀ c row, classRowOf ((ws.drop (5 * WorkClass.code c)).take 5) = some row → classWordsOk ws c ∧ classRowAt ws c = row :=
    fun c row => (classRowOf_at hlen c row).1
  have htail : ws.drop 20 = [ws.getD 20 0, ws.getD 21 0, ws.getD 22 0, ws.getD 23 0, ws.getD 24 0] := by
    rw [← take_five (i := 20) (by omega), List.take_of_length_le (by rw [List.length_drop]; omega)]
  constructor
  · intro h
    unfold settingsOf at h
    split at h
    · rename_i u st l b qa qb dt so pm hu hs hl hb ht
      split at h
      · rename_i hok
        obtain ⟨hu, rfl⟩ := hclass .urgent u hu
        obtain ⟨hs, rfl⟩ := hclass .setup st hs
        obtain ⟨hl, rfl⟩ := hclass .log l hl
        obtain ⟨hb, rfl⟩ := hclass .bulk b hb
        rw [htail] at ht
        cases ht
        simp only [word_le_one] at hok
        refine ⟨⟨fun c => by cases c <;> assumption, hok⟩, ?_⟩
        cases h
        simp only [settingsAt, word_eq_zero, beq_one]
        rfl
      · cases h
    · cases h
  · rintro ⟨⟨hclasses, hok⟩, rfl⟩
    have hrow : ∀ c, classRowOf ((ws.drop (5 * WorkClass.code c)).take 5) = some (classRowAt ws c) :=
      fun c => (classRowOf_at hlen c _).2 ⟨hclasses c, rfl⟩
    have hu : classRowOf (ws.take 5) = some (classRowAt ws .urgent) := hrow .urgent
    have hs : classRowOf ((ws.drop 5).take 5) = some (classRowAt ws .setup) := hrow .setup
    have hl : classRowOf ((ws.drop 10).take 5) = some (classRowAt ws .log) := hrow .log
    have hb : classRowOf ((ws.drop 15).take 5) = some (classRowAt ws .bulk) := hrow .bulk
    simp only [settingsOf, hu, hs, hl, hb, htail, word_le_one]
    refine (if_pos hok).trans ?_
    simp only [settingsAt, word_eq_zero, beq_one]
    rfl

theorem settingsOf_isSome {ws : List Word} (hlen : ws.length = 25) :
    (settingsOf ws).isSome ↔ (∀ c, classWordsOk ws c) ∧ tailWordsOk ws := by
  rw [Option.isSome_iff_exists]
  exact ⟨fun ⟨new, h⟩ => ((settingsOf_eq_some hlen new).1 h).1, fun h => ⟨_, (settingsOf_eq_some hlen _).2 ⟨h, rfl⟩⟩⟩

/-! ## SETTINGS-LOAD checked (R66) -/

section SettingsLoad

variable {s : State} {ch : Channel} {r : Request} {ws : List Word} (htag : s.tagCheck ch r = none) (ho : settingsOperands r = some ws)

include htag ho

theorem admitSettingsLoad_unclaimed (hctl : s.holdsController ch = false) :
    admitSettingsLoad ch r s = refuse ch r .claimRequired s := by
  simp only [admitSettingsLoad, htag, ho, hctl, if_true]

theorem admitSettingsLoad_bad (hctl : s.holdsController ch = true) (h : settingsOf ws = none) :
    admitSettingsLoad ch r s = refuse ch r .badSettings s := by
  simp only [admitSettingsLoad, htag, ho, hctl, h]
  rfl

theorem admitSettingsLoad_good {new : Settings} (hctl : s.holdsController ch = true) (h : settingsOf ws = some new) :
    admitSettingsLoad ch r s =
      if s.holding .A > new.quotaA ∨ s.holding .B > new.quotaB then refuse ch r .quotaInUse s
      else topUpBoth (complete ch r .done .none { s with settings := new }) := by
  simp only [admitSettingsLoad, htag, ho, hctl, h]
  rfl

end SettingsLoad

end Sys2Proof.Machine

namespace Sys2Proof.Proofs

open Sys2Proof.Machine Sys2Proof.Safety

/-- Settles O30: a CONTEXT by what its words hold; a SETTINGS-LOAD by the claim, then by what its words hold, then by the holdings. -/
theorem contextAndSettingsLoaded : Obligations.ContextAndSettingsLoaded := by
  refine ⟨fun ch r raw s ⟨hst, hk, htag, h255⟩ ho hl => ⟨fun hbad => ?_, fun c hc => ?_⟩, contextOperands_iff, settingsOperands_iff,
    fun raw => ⟨?_, fun c hc => ?_⟩, fun ch r ws s ⟨hst, hk, htag, h255⟩ ho hl => ?_, fun ws hlen => ?_⟩
  · refine exec_refused (kind := .context) hst hk hl ?_
    simp only [admitAs, admitContext, tagCheck_none htag h255, ho, hbad]
  · refine exec_taken (kind := .context) hst hk ?_
    simp only [admitAs, admitContext, tagCheck_none htag h255, ho, hc]
    rw [complete_of_lawful (loadContext_repliesLawful ch c hl)]
    simp only [loadContext_eq]
  · rw [contextOf_isSome]
    simp only [RawContext.fieldsOk, RawContext.spanGood, and_assoc]
  · obtain ⟨⟨hfields, -⟩, rfl⟩ := (contextOf_eq_some raw c).1 hc
    exact context_holds hfields
  · have ht := tagCheck_none htag h255
    refine ⟨fun hctl => ?_, fun hctl hbad => ?_, fun new hctl hnew hused => ?_, fun new hctl hnew hA hB => ?_⟩
    · exact exec_refused (kind := .settingsLoad) hst hk hl (admitSettingsLoad_unclaimed ht ho (holdsController_not hctl))
    · exact exec_refused (kind := .settingsLoad) hst hk hl (admitSettingsLoad_bad ht ho (holdsController_of hctl) hbad)
    · exact exec_refused (kind := .settingsLoad) hst hk hl
        ((admitSettingsLoad_good ht ho (holdsController_of hctl) hnew).trans (if_pos hused))
    · have hadmit := (admitSettingsLoad_good ht ho (holdsController_of hctl) hnew).trans (if_neg (by omega))
      rw [complete_of_lawful (s := { s with settings := new }) hl] at hadmit
      exact ⟨_, exec_taken (kind := .settingsLoad) hst hk hadmit, sameButReservations_topUpBoth _⟩
  · intro w
    refine ⟨settingsOf_isSome hlen, fun new hnew => ?_⟩
    obtain ⟨-, rfl⟩ := (settingsOf_eq_some hlen new).1 hnew
    exact ⟨fun c => by cases c <;> rfl, rfl, rfl, rfl, decide_eq_true_iff, rfl⟩

end Sys2Proof.Proofs
end

section
/-! PROOFS. A reply formed in the stage in the step in which another became due before it (R177): as if the older one had been placed first. -/

namespace Sys2Proof.Machine

open Sys2Proof.Safety

/-! ## Placing looks neither at the stage's reply nor at the due list as it stood -/

theorem placeReply_due (ch : Channel) (d : Due) (x : List Due) (s : State) :
    placeReply ch d (s.updPort ch (fun p => { p with due := x })) = (placeReply ch d s).updPort ch (fun p => { p with due := x }) := by
  cases d with
  | stage =>
    have hstage : ((s.updPort ch (fun p => { p with due := x })).port ch).stage = (s.port ch).stage := by rw [updPort_port_same]
    unfold placeReply
    dsimp only
    rw [hstage]
    split
    · rw [updPort_updPort, updPort_updPort]
    · rfl
  | entry n =>
    have hentry : (s.updPort ch (fun p => { p with due := x })).entry n = s.entry n := rfl
    unfold placeReply
    dsimp only
    rw [hentry]
    split
    · cases ch <;> rfl
    · rfl
  | sweep c => cases ch <;> rfl

/-- What a due list gives out does not depend on what stood there. -/
theorem placeList_due (ch : Channel) (ds x : List Due) (s : State) :
    placeList ch ds (s.updPort ch (fun p => { p with due := x })) = placeList ch ds s := by
  induction ds generalizing s with
  | nil => exact updPort_updPort ..
  | cons d ds ih =>
    unfold placeList
    rw [updPort_port_same]
    split
    · rw [placeReply_due, ih]
    · exact updPort_updPort ..

theorem restaged_queue (ch : Channel) (st : Stage) (s : State) : ((restaged ch st s).port ch).queue = (s.port ch).queue := by
  rw [restaged, updPort_port_same]

/-- A reply that is not the stage's is placed alike whatever reply stands in the stage. -/
theorem placeReply_restaged (ch : Channel) {d : Due} (h : d ≠ .stage) (r : Reply) (s : State) :
    placeReply ch d (restaged ch (.reply r) s) = restaged ch (.reply r) (placeReply ch d s) := by
  cases d with
  | stage => exact absurd rfl h
  | entry n =>
    have hentry : (restaged ch (.reply r) s).entry n = s.entry n := rfl
    unfold placeReply
    dsimp only
    rw [hentry]
    split
    · cases ch <;> rfl
    · rfl
  | sweep c => cases ch <;> rfl

/-! ## The stage's reply as the youngest of a due list -/

theorem formReply_eq (ch : Channel) (r : Reply) (s : State) :
    formReply ch r s = placeList ch ((s.port ch).due ++ [.stage]) (restaged ch (.reply r) s) := by
  have hdue : ((addDue ch .stage (restaged ch (.reply r) s)).port ch).due = (s.port ch).due ++ [.stage] := by
    rw [addDue, restaged, updPort_updPort, updPort_port_same]
  show placeDue ch (addDue ch .stage (restaged ch (.reply r) s)) = _
  rw [placeDue, hdue, addDue, updPort_congr (g := fun p => { p with due := (s.port ch).due ++ [.stage] })
    (by rw [restaged, updPort_port_same]), placeList_due]

/-- A due list given out with the stage's new reply behind it: the list first, then the reply formed. -/
theorem placeList_stage (ch : Channel) (r : Reply) (ds : List Due) (s : State)
    (hroom : (s.port ch).queue.length < 4 → Due.stage ∉ ds) :
    placeList ch (ds ++ [.stage]) (restaged ch (.reply r) s) = formReply ch r (placeList ch ds s) := by
  induction ds generalizing s with
  | nil =>
    have hdue : ((placeList ch [] s).port ch).due = [] := by rw [placeList, updPort_port_same]
    rw [formReply_eq, hdue, placeList, restaged, restaged, updPort_updPort, ← placeList_due ch _ [] (s.updPort ..), updPort_updPort]
  | cons d ds ih =>
    rw [List.cons_append, placeList, placeList, restaged_queue]
    split
    · rename_i hq
      have hnot := hroom hq
      rw [List.mem_cons, not_or] at hnot
      obtain ⟨hd, hds⟩ := hnot
      rw [placeReply_restaged ch (Ne.symm hd), ih _ (fun _ => hds)]
    · rename_i hfull
      have hfull' : ¬ ((s.updPort ch (fun p => { p with due := d :: ds })).port ch).queue.length < 4 := by rwa [updPort_port_same]
      rw [formReply_eq, updPort_port_same, List.cons_append, placeList, restaged_queue, if_neg hfull', restaged, restaged, updPort_updPort,
        updPort_updPort, updPort_updPort]

/-- Where a queue has room and the stage's reply is not yet due, a reply formed in the stage is formed behind what was due before it. -/
theorem formReply_placeDue {ch : Channel} {s : State} (hroom : (s.port ch).queue.length < 4 → Due.stage ∉ (s.port ch).due) (r : Reply) :
    formReply ch r s = formReply ch r (placeDue ch s) := by
  rw [formReply_eq, placeList_stage ch r _ s hroom]
  rfl

/-! ## A reply formed while another channel's is due -/

/-- Forming a reply at a port that keeps the law of R177, whatever the other port does. -/
theorem formReply_of_port {ch : Channel} {s : State}
    (hdue : (s.port ch).due ≠ [] → (s.port ch).queue.length = 4) (r : Reply) : formReply ch r s = replied ch r s := by
  rw [formReply_eq]
  by_cases hq : (s.port ch).queue.length < 4
  · have hnil : (s.port ch).due = [] := by
      by_contra hne
      exact absurd (hdue hne) hq.ne
    have hstage : ((restaged ch (.reply r) s).port ch).stage = .reply r := by rw [restaged, updPort_port_same]
    rw [hnil, List.nil_append, placeList, restaged_queue, if_pos hq, placeReply, hstage, placeList, updPort_updPort, restaged,
      updPort_updPort]
    exact updPort_congr (by rw [if_pos hq, ← hnil])
  · have hfull : placeList ch ((s.port ch).due ++ [.stage]) (restaged ch (.reply r) s)
        = (restaged ch (.reply r) s).updPort ch (fun p => { p with due := (s.port ch).due ++ [.stage] }) := by
      cases (s.port ch).due with
      | nil => rw [List.nil_append, placeList, restaged_queue, if_neg hq]
      | cons d ds => rw [List.cons_append, placeList, restaged_queue, if_neg hq]
    rw [hfull, restaged, updPort_updPort]
    exact updPort_congr (by rw [if_neg hq])

/-- Changes of the two ports commute. -/
theorem updPort_comm (s : State) (ch : Channel) (f g : Port → Port) :
    (s.updPort ch f).updPort ch.other g = (s.updPort ch.other g).updPort ch f := by
  cases ch <;> rfl

/-! ## A sweep's completion due before a reply formed in the same step (R173, R177) -/

/-- A sweep's completion placed as far as the queue has room. -/
def sweepPlaced (ch : Channel) (c : Completion) (s : State) : State :=
  s.updPort ch (fun p => if p.queue.length < 4 then { p with queue := p.queue ++ [.completion c] } else { p with due := p.due ++ [.sweep c] })

theorem placeBoth_sweepDue {s : State} (hl : RepliesLawful s) (ch : Channel) (c : Completion) :
    placeBoth (addDue ch (.sweep c) s) = sweepPlaced ch c s := placeBoth_addDue_sweep hl ch c

theorem sweepPlaced_lawful {s : State} (hl : RepliesLawful s) (ch : Channel) (c : Completion) : RepliesLawful (sweepPlaced ch c s) := by
  intro d
  rw [sweepPlaced, updPort_port]
  split
  · obtain ⟨hlen, hdue⟩ := hl ch
    split
    · rename_i hq
      refine ⟨by rw [List.length_append]; exact hq, fun hne => ?_⟩
      exact absurd (hdue hne) hq.ne
    · rename_i hq
      exact ⟨hlen, fun _ => hlen.antisymm (not_lt.1 hq)⟩
  · exact hl d

/-- A reply formed while a sweep's completion is due: the completion is placed first. -/
theorem placeBoth_formReply_sweep {s : State} (hl : RepliesLawful s) (ch x : Channel) (c : Completion) (r : Reply) :
    placeBoth (formReply ch r (addDue x (.sweep c) s)) = replied ch r (sweepPlaced x c s) := by
  have hlaw := sweepPlaced_lawful hl x c
  by_cases hx : x = ch
  · subst hx
    have hroom : ((addDue x (.sweep c) s).port x).queue.length < 4 → Due.stage ∉ ((addDue x (.sweep c) s).port x).due := by
      rw [addDue, updPort_port_same]
      intro hq hmem
      rcases List.mem_append.1 hmem with h | h
      · exact absurd ((hl x).2 (List.ne_nil_of_mem h)) hq.ne
      · exact absurd (List.mem_singleton.1 h) (by simp)
    have hother : ((addDue x (.sweep c) s).port x.other).due ≠ [] → ((addDue x (.sweep c) s).port x.other).queue.length = 4 := by
      rw [addDue, updPort_port_other]
      exact (hl x.other).2
    rw [formReply_placeDue hroom, ← placeBoth_of_other hother, placeBoth_sweepDue hl, formReply_of_lawful hlaw]
    exact placeBoth_of_lawful (replied_lawful hlaw x r)
  · obtain rfl : x = ch.other := eq_other_of_ne hx
    have hport : (addDue ch.other (.sweep c) s).port ch = s.port ch := by rw [addDue, updPort_port, if_neg (Ne.symm hx)]
    rw [formReply_of_port (by rw [hport]; exact (hl ch).2)]
    have hcomm : replied ch r (addDue ch.other (.sweep c) s) = addDue ch.other (.sweep c) (replied ch r s) := (updPort_comm ..).symm
    rw [hcomm, placeBoth_sweepDue (replied_lawful hl ch r)]
    exact updPort_comm ..

end Sys2Proof.Machine
end

section
/-! PROOFS. O23: a CANCEL and its target (R58, R87, R177). -/

namespace Sys2Proof.Machine

open Sys2Proof.Safety

/-! ## The state that an entry's end leaves -/

theorem entryLeft_lawful {s : State} (hl : RepliesLawful s) (e : Entry) : RepliesLawful (entryLeft e s) :=
  repliesLawful_congr hl (fun c => by cases c <;> simp only [entryLeft, dueAgain_eq, State.port, PerChannel.get, and_self])

/-- The end of an entry keeps the law of R177. -/
theorem entryEnded_lawful {s : State} (hl : RepliesLawful s) (e : Entry) (code : Code) : RepliesLawful (entryEnded e code s) := by
  obtain ⟨g, hg⟩ := pendingReleased_extents e
  rw [entryEnded_eq, hg, endingPlaced]
  have hl' : RepliesLawful { s with extents := g s.extents } := hl
  have hother : ∀ f : Port → Port, ∀ c, c ≠ e.channel → (({ s with extents := g s.extents } : State).updPort e.channel f).port c = s.port c :=
    fun f c hc => by rw [updPort_port, if_neg hc]; rfl
  split
  · exact entryLeft_lawful hl' e
  · split
    · rename_i hq
      refine entryLeft_lawful (fun c => ?_) e
      by_cases hc : c = e.channel
      · subst hc
        rw [updPort_port_same]
        refine ⟨by rw [List.length_append]; exact hq, fun hne => ?_⟩
        exact absurd ((hl' e.channel).2 hne) hq.ne
      · rw [hother _ c hc]
        exact hl c
    · rename_i hq
      refine repliesLawful_congr (s := ({ s with extents := g s.extents } : State).updPort e.channel
        (fun p => { p with due := p.due ++ [.entry e.order] })) (fun c => ?_) (fun _ => ⟨rfl, rfl⟩)
      by_cases hc : c = e.channel
      · subst hc
        rw [updPort_port_same]
        exact ⟨(hl' e.channel).1, fun _ => (hl' e.channel).1.antisymm (not_lt.1 hq)⟩
      · rw [hother _ c hc]
        exact hl c

/-- The end of an entry touches the ports, the extents and the work list alone. -/
theorem entryEnded_frame (e : Entry) (code : Code) (s : State) :
    entryEnded e code s =
      { s with
        ports := (entryEnded e code s).ports, extents := (entryEnded e code s).extents, work := (entryEnded e code s).work } := by
  obtain ⟨g, hg⟩ := pendingReleased_extents e
  rw [entryEnded_eq, hg, endingPlaced]
  split
  · rfl
  · split <;> rfl

/-- The state in which admissions have used this many orders. -/
def withNextOrder (n : Nat) (s : State) : State := { s with nextOrder := n }

theorem endingPlaced_nextOrder (e : Entry) (code : Code) (n : Nat) (s : State) :
    endingPlaced e code (withNextOrder n s) = withNextOrder n (endingPlaced e code s) := by
  have hport : (withNextOrder n s).port e.channel = s.port e.channel := rfl
  unfold endingPlaced
  rw [hport]
  split
  · rfl
  · by_cases hq : (s.port e.channel).queue.length < 4
    · rw [if_pos hq, if_pos hq]
      rfl
    · rw [if_neg hq, if_neg hq]
      rfl

theorem entryEnded_nextOrder (e : Entry) (code : Code) (n : Nat) (s : State) :
    entryEnded e code (withNextOrder n s) = withNextOrder n (entryEnded e code s) := by
  obtain ⟨g, hg⟩ := pendingReleased_extents e
  rw [entryEnded_eq, entryEnded_eq, hg, hg]
  exact endingPlaced_nextOrder e code n { s with extents := g s.extents }

theorem endEntry_nextOrder (m : Nat) (code : Code) (n : Nat) (s : State) :
    endEntry m code (withNextOrder n s) = withNextOrder n (endEntry m code s) := by
  have hentry : (withNextOrder n s).entry m = s.entry m := rfl
  unfold endEntry
  rw [hentry]
  dsimp only
  repeat' split
  all_goals rfl

/-- One more admission order is used: the law of the orders stands (R50). -/
theorem ordersLawful_next {s : State} (ho : OrdersLawful s) : OrdersLawful (withNextOrder (s.nextOrder + 1) s) := by
  obtain ⟨hnd, hwork, hposted⟩ := ho
  exact ⟨hnd, fun e he => Nat.lt_succ_of_lt (hwork e he), fun p hp => Nat.lt_succ_of_lt (hposted p hp)⟩

/-- A channel's entry ends and a reply is formed in that channel's stage: the entry's completion goes first (R177). -/
theorem formReply_endEntry {s : State} (ho : OrdersLawful s) (hl : RepliesLawful s) {e : Entry} (he : e ∈ s.work) (code : Code) (r : Reply) :
    formReply e.channel r (endEntry e.order code s) = replied e.channel r (entryEnded e code s) := by
  have hroom : ((endEntry e.order code s).port e.channel).queue.length < 4 →
      Due.stage ∉ ((endEntry e.order code s).port e.channel).due := by
    obtain ⟨g, hg⟩ := pendingReleased_extents e
    have hport : ∀ c, (pendingReleased e s).port c = s.port c := fun c => by rw [hg]; rfl
    have hold : (s.port e.channel).queue.length < 4 → Due.stage ∉ (s.port e.channel).due := fun hq hmem =>
      absurd ((hl e.channel).2 (List.ne_nil_of_mem hmem)) hq.ne
    rw [endEntry_some (entry_of_mem ho he)]
    split
    · obtain ⟨hqueue, hdue, -⟩ := dropEntry_port e.order (pendingReleased e s) e.channel
      rw [hqueue, hdue, hport]
      exact hold
    · rw [addDue_port, if_pos rfl]
      show ((pendingReleased e s).port e.channel).queue.length < 4 → _ ∉ ((pendingReleased e s).port e.channel).due ++ _
      rw [hport]
      intro hq hmem
      rcases List.mem_append.1 hmem with h | h
      · exact hold hq h
      · exact absurd (List.mem_singleton.1 h) (by simp)
  rw [formReply_placeDue hroom, placeDue_endEntry ho hl he, formReply_of_lawful (entryEnded_lawful hl e code)]

theorem completed_lawful {s : State} (hl : RepliesLawful s) (ch : Channel) (r : Request) (code : Code) (body : Body) :
    RepliesLawful (completed ch r code body s) := replied_lawful (s := withNextOrder (s.nextOrder + 1) s) hl ch _

theorem completed_volume (ch : Channel) (r : Request) (code : Code) (body : Body) (s : State) :
    (completed ch r code body s).volume = s.volume := rfl

/-! ## CANCEL checked (R58, R87) -/

section Cancel

variable {s : State} {ch : Channel} {r : Request} {tag : Nat} (htag : s.tagCheck ch r = none) (ho : cancelOperands r = some tag)

include htag ho

theorem admitCancel_notFound (h : s.cancelTarget ch tag = none) : admitCancel ch r s = refuse ch r .notFound s := by
  simp only [admitCancel, htag, ho, h]

theorem admitCancel_found {e : Entry} (h : s.cancelTarget ch tag = some e) :
    admitCancel ch r s =
      if e.state = .queued then settle (complete ch r .done .none (endEntry e.order .cancelled s)) else refuse ch r .tooLate s := by
  simp only [admitCancel, htag, ho, h]

end Cancel

/-- A target of the channel ended, the CANCEL's own completion formed behind it, and the step settled. -/
theorem settle_cancelled {s : State} (ho : OrdersLawful s) (hl : RepliesLawful s) (hv : s.volume.state = .mounted) {e : Entry}
    (he : e ∈ s.work) (r : Request) :
    SameButReservations (completed e.channel r .done .none (entryEnded e .cancelled s))
      (settle (complete e.channel r .done .none (endEntry e.order .cancelled s))) := by
  have hnext : (endEntry e.order .cancelled s).nextOrder = s.nextOrder := by rw [endEntry_frame]
  have hnext' : (entryEnded e .cancelled s).nextOrder = s.nextOrder := by rw [entryEnded_frame]
  have hended := formReply_endEntry (ordersLawful_next ho) (s := withNextOrder (s.nextOrder + 1) s) hl he .cancelled
    (.completion (r.completion .done .none))
  rw [endEntry_nextOrder, entryEnded_nextOrder] at hended
  have hcomplete : complete e.channel r .done .none (endEntry e.order .cancelled s) =
      completed e.channel r .done .none (entryEnded e .cancelled s) := by
    rw [complete, completed, hnext, hnext']
    exact hended
  rw [hcomplete]
  refine settle_of_mounted (completed_lawful (entryEnded_lawful hl e .cancelled) _ _ _ _) ?_
  rw [completed_volume, entryEnded_frame]
  exact hv

end Sys2Proof.Machine

namespace Sys2Proof.Proofs

open Sys2Proof.Machine Sys2Proof.Safety

/-- Settles O23, by what the target tag finds. -/
theorem cancelTaken : Obligations.CancelTaken := by
  intro ch r tag s ⟨hst, hk, htag, h255⟩ ho hl
  have ht := tagCheck_none htag h255
  refine ⟨fun hno => ?_, fun e hfind hstate => ?_, fun e hfind hstate horders hv => ?_⟩
  · have hnone : s.cancelTarget ch tag = none := List.find?_eq_none.2 (fun e he h => hno e he (of_decide_eq_true h))
    exact exec_refused (kind := .cancel) hst hk hl (admitCancel_notFound ht ho hnone)
  · exact exec_refused (kind := .cancel) hst hk hl ((admitCancel_found ht ho hfind).trans (if_neg hstate))
  · obtain ⟨rfl, -⟩ := of_decide_eq_true (List.find?_some (p := fun e : Entry => decide (e.channel = ch ∧ e.tag = tag)) hfind)
    exact ⟨_, exec_taken (kind := .cancel) hst hk ((admitCancel_found ht ho hfind).trans (if_pos hstate)),
      settle_cancelled horders hl hv (List.mem_of_find?_eq_some hfind) r⟩

end Sys2Proof.Proofs
end

section
/-! PROOFS. O29: a SWEEP-HALT (R60, R171, R173). -/

namespace Sys2Proof.Machine

open Sys2Proof.Safety

theorem stepInProgress_iff (s : State) : s.stepInProgress = true ↔ ∃ a, s.seq.access = some a ∧ a.owner = .sweep := by
  unfold State.stepInProgress
  cases s.seq.access <;> simp

/-- A halted sweep's items without a result are PARTIAL (R171). -/
theorem fillResults_halt (sw : Sweep) : sw.fillResults (some .halt) = sw.items.mapIdx (fun _ it => (it.slot, it.result.getD .partly)) := by
  unfold Sweep.fillResults
  congr 1
  funext i it
  cases it.result <;> rfl

/-- A halt with no step in progress, the SWEEP-HALT's own completion behind the sweep's (log 30), once what is due has been placed. -/
theorem placeBoth_halted {s : State} {sw : Sweep} (hsw : s.sweep = some sw) (hl : RepliesLawful s) (ch : Channel) (r : Request) :
    placeBoth (complete ch r .done .none (endSweep (some .halt) s)) = completed ch r .done .none (sweepHalted sw s) := by
  have hover : placeBoth (endSweep (some .halt) s) = sweepHalted sw s :=
    placeBoth_endSweep hsw hl (fillResults_halt sw)
  have hgone : RepliesLawful (sweepGone sw s) := sweepGone_repliesLawful sw hl
  rw [← hover, endSweep_eq hsw]
  split
  · rw [placeBoth_of_lawful hgone, complete_of_lawful hgone]
    exact placeBoth_of_lawful (completed_lawful hgone _ _ _ _)
  · rw [placeBoth_sweepDue hgone]
    exact placeBoth_formReply_sweep (s := withNextOrder (s.nextOrder + 1) (sweepGone sw s)) hgone ch sw.channel _ _

/-- A sweep that a halt waits in (R171): the cause of a stop that waits already stands (log 36). -/
def Sweep.halting (sw : Sweep) : Sweep := { sw with halt := true, cause := some (sw.cause.getD .halt) }

theorem haltSweep_waits {s : State} {sw : Sweep} (hsw : s.sweep = some sw) (h : ∃ a, s.seq.access = some a ∧ a.owner = .sweep) :
    haltSweep s = { s with sweep := some sw.halting } := by
  simp only [haltSweep, hsw, (stepInProgress_iff s).2 h, if_true, Sweep.halting]

theorem haltSweep_ends {s : State} {sw : Sweep} (hsw : s.sweep = some sw) (h : ∀ a, s.seq.access = some a → a.owner ≠ .sweep) :
    haltSweep s = endSweep (some .halt) s := by
  have hstep : ¬ s.stepInProgress = true := fun hin => by
    obtain ⟨a, ha, howner⟩ := (stepInProgress_iff s).1 hin
    exact h a ha howner
  simp only [haltSweep, hsw]
  exact if_neg hstep

theorem complete_volume (ch : Channel) (r : Request) (code : Code) (body : Body) (s : State) :
    (complete ch r code body s).volume = s.volume := by
  rw [complete, formReply_eq, placeList_frame]
  rfl

/-! ## SWEEP-HALT checked -/

section SweepHalt

variable {s : State} {ch : Channel} {r : Request} {sw : Sweep} (htag : s.tagCheck ch r = none) (hlen : r.length = 0)

include htag hlen

theorem admitSweepHalt_none (hsw : s.sweep = none) : admitSweepHalt ch r s = refuse ch r .notFound s := by
  simp only [admitSweepHalt, htag, emptyOperands_some hlen, hsw]

theorem admitSweepHalt_some (hsw : s.sweep = some sw) :
    admitSweepHalt ch r s =
      if sw.channel ≠ ch ∧ s.holdsController ch = false then refuse ch r .claimRequired s
      else settle (complete ch r .done .none (haltSweep s)) := by
  simp only [admitSweepHalt, htag, emptyOperands_some hlen, hsw]

/-- A SWEEP-HALT from the opening channel, or from the holder of the controller claim. -/
theorem admitSweepHalt_halts (hsw : s.sweep = some sw) (hmay : sw.channel = ch ∨ s.ctlClaim.holder = some ch) :
    admitSweepHalt ch r s = settle (complete ch r .done .none (haltSweep s)) := by
  rw [admitSweepHalt_some htag hlen hsw]
  refine if_neg (fun ⟨hother, hctl⟩ => ?_)
  rw [holdsController_of (hmay.resolve_left hother)] at hctl
  exact Bool.noConfusion hctl

end SweepHalt

end Sys2Proof.Machine

namespace Sys2Proof.Proofs

open Sys2Proof.Machine Sys2Proof.Safety

/-- Settles O29, by whose sweep is open and by whether a step is in progress. -/
theorem sweepHalt : Obligations.SweepHalt := by
  intro ch r s ⟨hst, hk, htag, h255⟩ hlen hl
  have ht := tagCheck_none htag h255
  refine ⟨fun hsw => ?_, fun sw hsw hother hctl => ?_, fun sw a hsw hmay hv ha howner => ?_, fun sw hsw hmay hv hno => ?_⟩
  · exact exec_refused (kind := .sweepHalt) hst hk hl (admitSweepHalt_none ht hlen hsw)
  · exact exec_refused (kind := .sweepHalt) hst hk hl
      ((admitSweepHalt_some ht hlen hsw).trans (if_pos ⟨hother, holdsController_not hctl⟩))
  · refine ⟨_, exec_taken (kind := .sweepHalt) hst hk (admitSweepHalt_halts ht hlen hsw hmay), ?_⟩
    have hlaw : RepliesLawful { s with sweep := some sw.halting } := hl
    rw [haltSweep_waits hsw ⟨a, ha, howner⟩, complete_of_lawful hlaw]
    exact settle_of_mounted (completed_lawful hlaw _ _ _ _) hv
  · refine ⟨_, exec_taken (kind := .sweepHalt) hst hk (admitSweepHalt_halts ht hlen hsw hmay), ?_⟩
    have hvol : (complete ch r .done .none (endSweep (some .halt) s)).volume.state = .mounted := by
      rw [complete_volume, endSweep_frame]
      exact hv
    rw [haltSweep_ends hsw hno, ← placeBoth_halted hsw hl]
    exact settle_bare (by simp [hvol]) (by simp [hvol])

end Sys2Proof.Proofs
end

section
/-! PROOFS. The lists that the laws of R50, R71, R103 and R106 speak of: the operations of the machine that leave them as they are. -/

namespace Sys2Proof.Machine

open Sys2Proof.Safety

/-- What the laws of the work list ask of an entry: its admission order and its channel. -/
def Entry.key (e : Entry) : Nat × Channel := (e.order, e.channel)

/-- The lists as their laws see them: the keys of the entries, the orders of the posted writes, the fault logs and the next order. -/
def State.ledger (s : State) : List (Nat × Channel) × List Nat × PerChannel FaultLog × Nat :=
  (s.work.map Entry.key, s.posted.map (fun p => p.order), s.logs, s.nextOrder)

/-! ## The plain updates -/

@[simp] theorem ledger_mk {ports logs settings extents ctlClaim extClaims work posted nextOrder direction seq ctlBuffer volume sweep
    sweepSeen levels acted powerPeriod powerTaken powerOwed powerEarly clock medium pending takers} :
    State.ledger ⟨ports, logs, settings, extents, ctlClaim, extClaims, work, posted, nextOrder, direction, seq, ctlBuffer, volume, sweep,
      sweepSeen, levels, acted, powerPeriod, powerTaken, powerOwed, powerEarly, clock, medium, pending, takers⟩ =
        (work.map Entry.key, posted.map (fun p => p.order), logs, nextOrder) := rfl

@[simp] theorem ledger_eta (s : State) : (s.work.map Entry.key, s.posted.map (fun p => p.order), s.logs, s.nextOrder) = s.ledger := rfl

theorem foldl_ledger {α : Type} {f : State → α → State} (h : ∀ s a, (f s a).ledger = s.ledger) (l : List α) (s : State) :
    (l.foldl f s).ledger = s.ledger := by
  induction l generalizing s with
  | nil => rfl
  | cons a l ih => rw [List.foldl_cons, ih, h]

/-- Entries changed but for their orders and channels. -/
theorem work_ledger {f : Entry → Entry} (h : ∀ x, (f x).order = x.order ∧ (f x).channel = x.channel) (s : State) :
    ({ s with work := s.work.map f } : State).ledger = s.ledger := by
  have hkeys : (s.work.map f).map Entry.key = s.work.map Entry.key := by
    rw [List.map_map]
    exact List.map_congr_left (fun x _ => Prod.ext (h x).1 (h x).2)
  unfold State.ledger
  rw [hkeys]

section Operations

variable (s : State) (ch : Channel) (r : Request) (n m : Nat) (k : Slot) (ks : List Slot) (code : Code) (a : Access) (torn : Bool)
  (cause : DefectCause) (e : Entry)

@[simp] theorem updPort_ledger (f : Port → Port) : (s.updPort ch f).ledger = s.ledger := rfl
@[simp] theorem raise_ledger (ev : EventKind) : (raise ch ev s).ledger = s.ledger := rfl
@[simp] theorem raiseBoth_ledger (ev : EventKind) : (raiseBoth ev s).ledger = s.ledger := rfl
@[simp] theorem takeLine_ledger (l : Line) (on : Bool) : (takeLine l on s).ledger = s.ledger := rfl
@[simp] theorem placeFreed_ledger : (placeFreed s).ledger = s.ledger := rfl
@[simp] theorem addDue_ledger (d : Due) : (addDue ch d s).ledger = s.ledger := rfl
@[simp] theorem updExtent_ledger (f : Extent → Extent) : (updExtent k f s).ledger = s.ledger := rfl
@[simp] theorem updFill_ledger (f : Fill → Fill) : (updFill k f s).ledger = s.ledger := rfl
@[simp] theorem lowerPending_ledger : (lowerPending k n s).ledger = s.ledger := rfl
@[simp] theorem reserveAppend_ledger : (reserveAppend k n s).ledger = s.ledger := rfl
@[simp] theorem updSeq_ledger (f : Sequencer → Sequencer) : (updSeq f s).ledger = s.ledger := rfl
@[simp] theorem updAccess_ledger (f : Access → Access) : (updAccess f s).ledger = s.ledger := rfl
@[simp] theorem issueRestore_ledger : (issueRestore s).ledger = s.ledger := rfl
@[simp] theorem issueStop_ledger : (issueStop s).ledger = s.ledger := rfl
@[simp] theorem startSearch_ledger : (startSearch a s).ledger = s.ledger := rfl
@[simp] theorem endAccess_ledger : (endAccess s).ledger = s.ledger := rfl
@[simp] theorem countFailure_ledger (further : Bool) : (countFailure further s).ledger = s.ledger := rfl
@[simp] theorem enterNotSafe_ledger : (enterNotSafe s).ledger = s.ledger := rfl
@[simp] theorem enterNoCartridge_ledger : (enterNoCartridge s).ledger = s.ledger := rfl
@[simp] theorem enterOffline_ledger : (enterOffline s).ledger = s.ledger := rfl
@[simp] theorem enterReleasing_ledger : (enterReleasing s).ledger = s.ledger := rfl
@[simp] theorem storeEnds_ledger : (storeEnds s).ledger = s.ledger := rfl
@[simp] theorem setMount_ledger (stage : MountStage) : (setMount stage s).ledger = s.ledger := rfl
@[simp] theorem mountComplete_ledger : (mountComplete s).ledger = s.ledger := rfl
@[simp] theorem setSweepSector_ledger : (setSweepSector m s).ledger = s.ledger := rfl
@[simp] theorem failItem_ledger : (failItem s).ledger = s.ledger := rfl
@[simp] theorem noteMapLoad_ledger : (noteMapLoad s).ledger = s.ledger := rfl
@[simp] theorem setReceiver_ledger (v : Receiver) : (setReceiver ch v s).ledger = s.ledger := rfl
@[simp] theorem addStop_ledger (c : Stop) : (addStop c s).ledger = s.ledger := rfl
@[simp] theorem waitForPlace_ledger : (waitForPlace ch r s).ledger = s.ledger := rfl
@[simp] theorem arrive_ledger : (arrive n s).ledger = s.ledger := rfl
@[simp] theorem setClaim_ledger (x : ClaimTarget) (c : ClaimRecord) : (setClaim x c s).ledger = s.ledger := by
  cases x <;> rfl

@[simp] theorem updEntry_ledger {f : Entry → Entry} (h : ∀ x, (f x).order = x.order ∧ (f x).channel = x.channel) :
    (updEntry n f s).ledger = s.ledger :=
  work_ledger (fun x => by split; exacts [h x, ⟨rfl, rfl⟩]) s

@[simp] theorem updPosted_ledger {f : Posted → Posted} (h : ∀ p, (f p).order = p.order) : (updPosted n f s).ledger = s.ledger := by
  have horders : (s.posted.map (fun p => if p.order = n then f p else p)).map (fun p => p.order) = s.posted.map (fun p => p.order) := by
    rw [List.map_map]
    exact List.map_congr_left (fun p _ => by simp only [Function.comp]; split; exacts [h p, rfl])
  unfold State.ledger updPosted
  rw [horders]

@[simp] theorem markSlots_ledger (on : Bool) : (markSlots on ks s).ledger = s.ledger := foldl_ledger (fun s k => updExtent_ledger s k _) ks s

@[simp] theorem topUp_ledger : (topUp ch s).ledger = s.ledger :=
  foldl_ledger (fun s e => by unfold topUpOne; split; exacts [updEntry_ledger _ _ (fun _ => ⟨rfl, rfl⟩), rfl]) s.work s

@[simp] theorem topUpBoth_ledger : (topUpBoth s).ledger = s.ledger := by simp [topUpBoth]

@[simp] theorem recordDefect_ledger (c h : Nat) : (recordDefect c h n cause s).ledger = s.ledger := by
  unfold recordDefect
  (repeat' split) <;> rfl

@[simp] theorem removeDefect_ledger (c h : Nat) : (removeDefect c h n s).ledger = s.ledger := rfl

@[simp] theorem putHeader_ledger (i : Nat) (hr : HeaderRecord) : (putHeader i hr s).ledger = s.ledger := by
  unfold putHeader
  split <;> rfl

@[simp] theorem putData_ledger (i : Nat) (st : HeaderState) (d : DataRecord) : (putData i st d s).ledger = s.ledger := by
  unfold putData
  split <;> rfl

@[simp] theorem tear_ledger : (tear s).ledger = s.ledger := by
  unfold tear
  (repeat' split) <;> simp

/-! ## The sweep, and the ends of a drain (R157, R158, R160, R167 to R174) -/

@[simp] theorem endSweep_ledger (c : Option StopCause) : (endSweep c s).ledger = s.ledger := by
  rw [endSweep_frame]
  rfl

@[simp] theorem haltSweep_ledger : (haltSweep s).ledger = s.ledger := by
  unfold haltSweep
  (repeat' split) <;> simp

@[simp] theorem giveResult_ledger (x : SweepResult) : (giveResult x s).ledger = s.ledger := by
  unfold giveResult nextItem
  (repeat' split) <;> simp

@[simp] theorem stepEnded_ledger (x : Option SweepResult) : (stepEnded x s).ledger = s.ledger := by
  unfold stepEnded stopAfterStep
  (repeat' split) <;> simp

@[simp] theorem stepUnmade_ledger : (stepUnmade s).ledger = s.ledger := stepEnded_ledger ..

@[simp] theorem clearingStepDone_ledger : (clearingStepDone k m s).ledger = s.ledger := by
  unfold clearingStepDone passComplete
  split <;> simp

@[simp] theorem clearingStepFailed_ledger : (clearingStepFailed k m s).ledger = s.ledger := by
  unfold clearingStepFailed
  dsimp only
  (repeat' split) <;> simp

@[simp] theorem scanningStepEnded_ledger (size : Nat) (failed : Bool) : (scanningStepEnded m size failed s).ledger = s.ledger := by
  unfold scanningStepEnded
  (repeat' split) <;> simp

@[simp] theorem fillAsLastDone_ledger : (fillAsLastDone m k s).ledger = s.ledger := rfl

@[simp] theorem stepSeekError_ledger : (stepSeekError s).ledger = s.ledger := by
  unfold stepSeekError stopAfterStep
  (repeat' split) <;> simp

@[simp] theorem drainCheck_ledger : (drainCheck s).ledger = s.ledger := by
  unfold drainCheck drainEnds
  dsimp only
  (repeat' split) <;> simp

@[simp] theorem releaseStop_ledger : (releaseStop s).ledger = s.ledger := by
  unfold releaseStop
  split <;> simp

/-! ## The sequencer (R115 to R122) -/

@[simp] theorem approach_ledger : (approach s).ledger = s.ledger := by
  unfold approach issueSeek
  (repeat' split) <;> simp

@[simp] theorem nextPassage_ledger : (nextPassage s).ledger = s.ledger := by
  unfold nextPassage recalibrate
  (repeat' split) <;> simp

@[simp] theorem turnTo_ledger : (turnTo m s).ledger = s.ledger := by simp [turnTo]

@[simp] theorem beginAccess_ledger : (beginAccess a s).ledger = s.ledger := by simp [beginAccess]

@[simp] theorem noteCheck_ledger (c : AddressCheck) : (noteCheck c s).ledger = s.ledger := by
  unfold noteCheck
  split <;> simp

@[simp] theorem openGate_ledger : (openGate a s).ledger = s.ledger := by
  unfold openGate
  split <;> simp

@[simp] theorem beginPassage_ledger : (beginPassage a s).ledger = s.ledger := by simp [beginPassage]

@[simp] theorem headerFill_ledger : (headerFill a s).ledger = s.ledger := by
  unfold headerFill
  (repeat' split) <;> simp

@[simp] theorem beginLabelWrite_ledger (o : Owner) (serial : BitVec 32) : (beginLabelWrite o serial s).ledger = s.ledger := by
  simp [beginLabelWrite]

/-! ## A run's entry or posted write, kept in its list (R83, R84, R89, R99, R102, R141) -/

@[simp] theorem grantRead_ledger : (grantRead e s).ledger = s.ledger := by
  simp [grantRead]

@[simp] theorem grantWrite_ledger : (grantWrite e s).ledger = s.ledger := by
  simp [grantWrite]

@[simp] theorem grantAppend_ledger : (grantAppend e m s).ledger = s.ledger := by
  simp [grantAppend]

@[simp] theorem park_ledger (o : Owner) : (park o torn s).ledger = s.ledger := by
  unfold park
  split <;> simp

@[simp] theorem reportSector_ledger (c : Condition) : (reportSector a c s).ledger = s.ledger := by
  unfold reportSector reportCondition
  split <;> simp

@[simp] theorem creditRun_ledger : (creditRun a s).ledger = s.ledger := by
  unfold creditRun
  split <;> simp

@[simp] theorem dropBuffer_ledger : (dropBuffer a s).ledger = s.ledger := by
  unfold dropBuffer
  split <;> simp

@[simp] theorem countCommitted_ledger : (countCommitted a s).ledger = s.ledger := by
  unfold countCommitted
  split <;> simp

@[simp] theorem countTorn_ledger : (countTorn a s).ledger = s.ledger := by
  unfold countTorn
  dsimp only
  (repeat' split) <;> simp

@[simp] theorem stopRun_ledger : (stopRun a torn s).ledger = s.ledger := by simp [stopRun]

@[simp] theorem drainStop_ledger : (drainStop a s).ledger = s.ledger := by
  unfold drainStop
  split <;> simp

@[simp] theorem reportTornAppend_ledger : (reportTornAppend s).ledger = s.ledger := by
  unfold reportTornAppend
  (repeat' split) <;> simp

@[simp] theorem dataWritten_ledger : (dataWritten a s).ledger = s.ledger := by simp [dataWritten]

/-! ## The sweep's offer, the mount, and the lines (R137 to R143, R150 to R153, R168) -/

@[simp] theorem beginStep_ledger (sw : Sweep) (it : SweepItem) (x : Extent) : (beginStep sw it x m s).ledger = s.ledger := by
  unfold beginStep
  split <;> simp

@[simp] theorem offerSweep_ledger : (offerSweep s).ledger = s.ledger := by
  unfold offerSweep takeOffer
  dsimp only
  (repeat' split) <;> simp

@[simp] theorem mountAdvance_ledger : (mountAdvance s).ledger = s.ledger := by
  unfold mountAdvance beginLabelRead beginProbe
  (repeat' split) <;> simp

@[simp] theorem searchFrom_ledger : (searchFrom n s).ledger = s.ledger := by
  unfold searchFrom
  (repeat' split) <;> simp

@[simp] theorem labelFound_ledger (l : Option Label) : (labelFound l s).ledger = s.ledger := by
  unfold labelFound
  split <;> simp

@[simp] theorem probeFound_ledger (found : Option HeaderState) : (probeFound found s).ledger = s.ledger := by
  unfold probeFound
  dsimp only
  (repeat' split) <;> simp

@[simp] theorem mountAccessEnds_ledger {f : State → State} (h : ∀ s, (f s).ledger = s.ledger) : (mountAccessEnds f s).ledger = s.ledger := by
  unfold mountAccessEnds
  dsimp only
  split <;> simp [h]

@[simp] theorem beginMount_ledger : (beginMount s).ledger = s.ledger := by
  unfold beginMount
  dsimp only
  (repeat' split) <;> simp

@[simp] theorem seqDeparts_ledger : (seqDeparts s).ledger = s.ledger := by
  unfold seqDeparts
  dsimp only
  (repeat' split) <;> simp

@[simp] theorem protectSweep_ledger : (protectSweep s).ledger = s.ledger := by
  unfold protectSweep
  (repeat' split) <;> simp

@[simp] theorem monitorTakes_ledger (l : Line) (active : Bool) : (monitorTakes l active s).ledger = s.ledger := by
  unfold monitorTakes periodChange beginPeriod endPeriod
  dsimp only
  (repeat' split) <;> simp

@[simp] theorem applyChange_ledger (g : Slot × Option Definition) : (applyChange ch s g).ledger = s.ledger := by
  unfold applyChange
  dsimp only
  split <;> simp

end Operations

end Sys2Proof.Machine
end

section
/-! PROOFS. O7: the capacities of R71, R103 and R106 and the orders of R50, kept where entries and posted writes leave their lists, where a
fault is logged or read, and where admission adds to the lists. -/

namespace Sys2Proof.Machine

open Sys2Proof.Safety

/-- The state `s`, reached from `u`, keeps what held at `u` of the capacities of the lists and of the admission orders. -/
structure LimitsKept (u s : State) : Prop where
  work : WorkLawful u → WorkLawful s
  posted : PostedLawful u → PostedLawful s
  orders : OrdersLawful u → OrdersLawful s

theorem LimitsKept.refl (u : State) : LimitsKept u u := ⟨id, id, id⟩

theorem LimitsKept.trans {u s t : State} (h : LimitsKept u s) (h' : LimitsKept s t) : LimitsKept u t :=
  ⟨fun w => h'.work (h.work w), fun w => h'.posted (h.posted w), fun w => h'.orders (h.orders w)⟩

/-- Nothing has joined the lists from `s` to `t`: what left, left the others in their order; the logs keep within their limits. -/
structure Shrunk (s t : State) : Prop where
  work : (t.work.map Entry.key).Sublist (s.work.map Entry.key)
  posted : (t.posted.map (fun p => p.order)).Sublist (s.posted.map (fun p => p.order))
  logs : ∀ ch, (s.logs.get ch).entries.length ≤ 4 ∧ (s.logs.get ch).overflow ≤ 255 →
    (t.logs.get ch).entries.length ≤ 4 ∧ (t.logs.get ch).overflow ≤ 255
  next : s.nextOrder ≤ t.nextOrder

theorem ofChannel_length (l : List Entry) (ch : Channel) :
    (l.filter (fun e => e.channel = ch)).length = ((l.map Entry.key).filter (fun x => x.2 = ch)).length := by
  rw [List.filter_map, List.length_map]
  rfl

theorem orders_of_keys (l : List Entry) : (l.map Entry.key).map Prod.fst = l.map (fun e => e.order) := by
  rw [List.map_map]
  rfl

theorem Shrunk.limits {s t : State} (h : Shrunk s t) : LimitsKept s t where
  work := fun ⟨hall, heach⟩ => by
    have hlen : t.work.length ≤ s.work.length := by simpa using h.work.length_le
    refine ⟨hlen.trans hall, fun ch => le_trans ?_ (heach ch)⟩
    rw [ofChannel_length, ofChannel_length]
    exact (h.work.filter _).length_le
  posted := fun ⟨hlen, hlogs⟩ => ⟨le_trans (by simpa using h.posted.length_le) hlen, fun ch => h.logs ch (hlogs ch)⟩
  orders := fun ⟨hn, hw, hp⟩ => by
    have hwork : (t.work.map (fun e => e.order)).Sublist (s.work.map (fun e => e.order)) := by
      simpa only [orders_of_keys] using h.work.map Prod.fst
    refine ⟨hn.sublist (hwork.append h.posted), fun e he => ?_, fun p hp' => ?_⟩
    · obtain ⟨x, hx, heq⟩ := List.mem_map.1 (hwork.subset (List.mem_map_of_mem he))
      exact heq ▸ (hw x hx).trans_le h.next
    · obtain ⟨x, hx, heq⟩ := List.mem_map.1 (h.posted.subset (List.mem_map_of_mem hp'))
      exact heq ▸ (hp x hx).trans_le h.next

theorem shrunk_of_ledger {s t : State} (h : t.ledger = s.ledger) : Shrunk s t := by
  simp only [State.ledger, Prod.mk.injEq] at h
  obtain ⟨hw, hp, hl, hn⟩ := h
  exact ⟨hw ▸ List.Sublist.refl _, hp ▸ List.Sublist.refl _, fun ch hch => hl ▸ hch, hn.ge⟩

variable {u s t : State} {ch : Channel} {r : Request} {n m : Nat} {k : Slot} {code : Code} {a : Access} {torn : Bool} {cause : DefectCause}

/-- A step on that leaves the lists as they were. -/
theorem LimitsKept.same (h : LimitsKept u s) (hs : t.ledger = s.ledger) : LimitsKept u t := h.trans (shrunk_of_ledger hs).limits

theorem LimitsKept.topUpBoth (h : LimitsKept u s) : LimitsKept u (topUpBoth s) := h.same (topUpBoth_ledger s)

theorem LimitsKept.foldl {α : Type} {f : State → α → State} (hf : ∀ s x, LimitsKept u s → LimitsKept u (f s x)) (l : List α)
    (h : LimitsKept u s) : LimitsKept u (l.foldl f s) := by
  induction l generalizing s with
  | nil => exact h
  | cons x l ih => exact ih (hf s x h)

/-! ## What leaves the lists (R71, R103), what is logged (R106), an order used (R50) -/

theorem LimitsKept.workFiltered (h : LimitsKept u s) (f : Entry → Bool) : LimitsKept u { s with work := s.work.filter f } :=
  h.trans (Shrunk.limits ⟨List.filter_sublist.map _, List.Sublist.refl _, fun _ => id, le_rfl⟩)

theorem LimitsKept.dropEntry (h : LimitsKept u s) : LimitsKept u (dropEntry n s) := (h.workFiltered _).same (placeFreed_ledger _)

theorem LimitsKept.postedFiltered (h : LimitsKept u s) (f : Posted → Bool) : LimitsKept u { s with posted := s.posted.filter f } :=
  h.trans (Shrunk.limits ⟨List.Sublist.refl _, List.filter_sublist.map _, fun _ => id, le_rfl⟩)

theorem LimitsKept.orderUsed (h : LimitsKept u s) : LimitsKept u { s with nextOrder := s.nextOrder + 1 } :=
  h.trans (Shrunk.limits ⟨List.Sublist.refl _, List.Sublist.refl _, fun _ => id, Nat.le_succ _⟩)

/-- A log replaced by one that is within the limits where the old one is. -/
theorem LimitsKept.logSet (h : LimitsKept u s) {l : FaultLog}
    (hl : (s.logs.get ch).entries.length ≤ 4 ∧ (s.logs.get ch).overflow ≤ 255 → l.entries.length ≤ 4 ∧ l.overflow ≤ 255) :
    LimitsKept u { s with logs := s.logs.set ch l } := by
  refine h.trans (Shrunk.limits ⟨List.Sublist.refl _, List.Sublist.refl _, fun c hc => ?_, le_rfl⟩)
  dsimp only
  rw [get_set_log]
  split
  · next heq => exact hl (heq ▸ hc)
  · exact hc

theorem record_limits (l : FaultLog) (e : FaultEntry) (h : l.entries.length ≤ 4 ∧ l.overflow ≤ 255) :
    (l.record e).entries.length ≤ 4 ∧ (l.record e).overflow ≤ 255 := by
  obtain ⟨hlen, hover⟩ := h
  unfold FaultLog.record
  split
  · exact ⟨by simpa using (by omega : l.entries.length + 1 ≤ 4), hover⟩
  · exact ⟨hlen, Nat.min_le_left ..⟩

theorem LimitsKept.logFault (h : LimitsKept u s) (p : Posted) : LimitsKept u (logFault code s p) := h.logSet (record_limits _ _)

/-! ## Endings of work (R90, R91, R104, R108, R158) -/

theorem LimitsKept.endEntry (h : LimitsKept u s) : LimitsKept u (endEntry n code s) := by
  cases he : s.entry n with
  | none => exact (endEntry_none he code).symm ▸ h
  | some e =>
    obtain rfl : e.order = n := entry_order he
    have hreleased : LimitsKept u (pendingReleased e s) := h.same (by unfold pendingReleased; split <;> simp)
    rw [endEntry_some he]
    split
    · exact hreleased.dropEntry
    · exact hreleased.same (by simp [Entry.finishedWith])

theorem LimitsKept.endEntries (h : LimitsKept u s) (ns : List Nat) : LimitsKept u (endEntries ns code s) :=
  h.foldl (fun _ _ h => h.endEntry) ns

theorem LimitsKept.postedLeaves (h : LimitsKept u s) (fault : Bool) : LimitsKept u (postedLeaves n fault s) := by
  have hgone : LimitsKept u (postedGone n fault s) :=
    (h.postedFiltered (fun p => p.order ≠ n)).same
      (work_ledger (f := Entry.sawEnd n fault) (fun x => ⟨sawEnd_order n fault x, sawEnd_channel n fault x⟩)
        { s with posted := s.posted.filter (fun p => p.order ≠ n) })
  rw [postedLeaves_eq]
  refine hgone.foldl (fun s e hs => ?_) _
  obtain heq | ⟨-, -, heq⟩ := endFlush_eq s e
  · exact heq.symm ▸ hs
  · exact heq.symm ▸ hs.endEntry

theorem LimitsKept.leaveFaulted (h : LimitsKept u s) (p : Posted) : LimitsKept u (leaveFaulted p s) := by
  rw [leaveFaulted_eq]
  exact (h.same (by unfold postedTold; split <;> simp)).postedLeaves true

theorem LimitsKept.faultOne (h : LimitsKept u s) : LimitsKept u (faultOne n code s) := by
  unfold Machine.faultOne
  split
  · exact h
  · exact (h.logFault _).leaveFaulted _

theorem LimitsKept.faultAll (h : LimitsKept u s) (ns : List Nat) : LimitsKept u (faultAll ns code s) :=
  h.foldl (fun _ _ h => h.faultOne) ns

theorem LimitsKept.faultPosted (h : LimitsKept u s) : LimitsKept u (faultPosted n code s) := by
  unfold Machine.faultPosted
  split
  · exact (h.faultAll _).faultOne
  · exact h.faultOne

theorem LimitsKept.fillBecomesUnknown (h : LimitsKept u s) : LimitsKept u (fillBecomesUnknown k s) :=
  ((h.same (updFill_ledger ..)).endEntries _).foldl (fun _ _ h => h.faultPosted) _

theorem LimitsKept.drainExpiry (h : LimitsKept u s) : LimitsKept u (drainExpiry s) := by
  unfold Machine.drainExpiry endVolumeWork
  dsimp only
  split
  · split
    · exact ((h.endEntries _).faultAll _).same (endSweep_ledger ..)
    · exact (h.endEntries _).faultAll _
  · exact h

/-! ## Replies (R47, R177) -/

theorem LimitsKept.placeReply (h : LimitsKept u s) (d : Due) : LimitsKept u (placeReply ch d s) := by
  cases d with
  | stage => exact h.same (by simp only [Machine.placeReply]; split <;> simp)
  | entry n =>
    simp only [Machine.placeReply]
    split
    · exact (h.same (updPort_ledger ..)).dropEntry
    · exact h
  | sweep c => exact h.same (updPort_ledger ..)

theorem LimitsKept.placeDue (h : LimitsKept u s) : LimitsKept u (placeDue ch s) := by
  have hlist : ∀ (ds : List Due) (s : State), LimitsKept u s → LimitsKept u (placeList ch ds s) := by
    intro ds
    induction ds with
    | nil => exact fun s h => h.same (updPort_ledger ..)
    | cons d ds ih =>
      intro s h
      unfold placeList
      split
      · exact ih _ (h.placeReply d)
      · exact h.same (updPort_ledger ..)
  exact hlist _ s h

theorem LimitsKept.settle (h : LimitsKept u s) : LimitsKept u (settle s) := by
  have hplaced : LimitsKept u (placeBoth (Machine.topUpBoth (Machine.drainExpiry s))) := h.drainExpiry.topUpBoth.placeDue.placeDue
  exact hplaced.same (by simp [Machine.settle])

theorem LimitsKept.formReply (h : LimitsKept u s) (reply : Reply) : LimitsKept u (formReply ch reply s) :=
  LimitsKept.placeDue (h.same (t := addDue ch .stage (s.updPort ch (fun p => { p with stage := .reply reply }))) rfl)

theorem LimitsKept.complete (h : LimitsKept u s) (body : Body) : LimitsKept u (complete ch r code body s) := h.orderUsed.formReply _

theorem LimitsKept.refuse (h : LimitsKept u s) : LimitsKept u (refuse ch r code s) := (h.formReply _).same (topUp_ledger ..)

/-! ## What joins the lists (R47, R48, R57, R71, R102, R103) -/

/-- The next order is no one's yet. -/
theorem nextOrder_fresh (ho : OrdersLawful s) : s.nextOrder ∉ s.work.map (fun e => e.order) ++ s.posted.map (fun p => p.order) := by
  obtain ⟨-, hw, hp⟩ := ho
  intro hmem
  rcases List.mem_append.1 hmem with hmem | hmem
  · obtain ⟨x, hx, heq⟩ := List.mem_map.1 hmem
    exact absurd (hw x hx) (by omega)
  · obtain ⟨x, hx, heq⟩ := List.mem_map.1 hmem
    exact absurd (hp x hx) (by omega)

/-- The lists with one piece of work of the next order more have lawful orders once that order is used. -/
theorem ordersLawful_joined (ho : OrdersLawful s) (hnext : t.nextOrder = s.nextOrder + 1)
    (hperm : (t.work.map (fun e => e.order) ++ t.posted.map (fun p => p.order)).Perm
      (s.nextOrder :: (s.work.map (fun e => e.order) ++ s.posted.map (fun p => p.order)))) : OrdersLawful t := by
  have hpast : ∀ n ∈ t.work.map (fun e => e.order) ++ t.posted.map (fun p => p.order), n < t.nextOrder := by
    intro n hn
    obtain ⟨-, hw, hp⟩ := ho
    rw [hperm.mem_iff, List.mem_cons, List.mem_append, List.mem_map, List.mem_map] at hn
    obtain rfl | ⟨x, hx, rfl⟩ | ⟨x, hx, rfl⟩ := hn
    · omega
    · have := hw x hx
      omega
    · have := hp x hx
      omega
  exact ⟨hperm.nodup_iff.2 (List.nodup_cons.2 ⟨nextOrder_fresh ho, ho.1⟩),
    fun e he => hpast _ (List.mem_append_left _ (List.mem_map_of_mem he)), fun p hp => hpast _ (List.mem_append_right _ (List.mem_map_of_mem hp))⟩

/-- An entry of the next order joins a work list that has a place for its channel. -/
theorem LimitsKept.joinWork (h : LimitsKept u s) {e : Entry} (hplace : s.hasPlace e.channel = true) (ho : e.order = s.nextOrder) :
    LimitsKept u (joinWork ch e s) := by
  obtain ⟨hall, hown⟩ := of_decide_eq_true hplace
  refine h.trans ⟨fun ⟨_, heach⟩ => ⟨by simpa [Machine.joinWork] using hall, fun c => ?_⟩, id, fun hs => ordersLawful_joined hs rfl ?_⟩
  · have hc := heach c
    simp only [Machine.joinWork, List.filter_append, List.length_append, List.filter_cons, List.filter_nil]
    split
    · next heq =>
      obtain rfl := of_decide_eq_true heq
      exact hown
    · exact hc
  · simp only [Machine.joinWork, State.updPort_posted, List.map_append, List.map_cons, List.map_nil, List.append_assoc, ho]
    exact List.perm_middle

theorem LimitsKept.joinOrWait (h : LimitsKept u s) {e : Entry} (hc : e.channel = ch) (ho : e.order = s.nextOrder) :
    LimitsKept u (joinOrWait ch r e s) := by
  unfold Machine.joinOrWait
  split
  · next hplace => exact h.joinWork (hc ▸ hplace) ho
  · exact h.same (waitForPlace_ledger ..)

/-- A posted write of the next order joins a posted list that has a place. -/
theorem LimitsKept.post (h : LimitsKept u s) {p : Posted} (hroom : s.posted.length < 4) (ho : p.order = s.nextOrder) :
    LimitsKept u (post ch r p s) := by
  have hlists : LimitsKept s { s with posted := s.posted ++ [p], nextOrder := s.nextOrder + 1 } := by
    refine ⟨id, fun ⟨_, hlogs⟩ => ⟨by simpa using hroom, hlogs⟩, fun hs => ordersLawful_joined hs rfl ?_⟩
    simp only [List.map_append, List.map_cons, List.map_nil, ← List.append_assoc, ho]
    exact List.perm_append_singleton ..
  exact (h.trans hlists).formReply _

end Sys2Proof.Machine
end

section
/-! PROOFS. O7: admission keeps the capacities of the lists and the orders, whatever it does with a request (R47 to R66). -/

namespace Sys2Proof.Machine

open Sys2Proof.Safety

variable {u s : State} {ch : Channel} {r : Request} {body : Body}

/-! ## READ, WRITE, APPEND, FLUSH, MAP-STORE: the requests that may wait -/

theorem LimitsKept.admitRead (h : LimitsKept u s) : LimitsKept u (admitRead ch r s) := by
  unfold Machine.admitRead
  repeat' split
  exacts [h.refuse, h.refuse, h.refuse, h.refuse, h.refuse, h.joinOrWait rfl rfl]

theorem room_of_mayPost {d : Definition} {o : DataOperands} (h : s.mayPost d o = true) : s.posted.length < 4 :=
  of_decide_eq_true (Bool.and_eq_true_iff.1 h).2

theorem LimitsKept.admitWrite (h : LimitsKept u s) : LimitsKept u (admitWrite ch r s) := by
  unfold Machine.admitWrite
  repeat' split
  case isTrue hpost => exact h.post (room_of_mayPost hpost) rfl
  exacts [h.refuse, h.refuse, h.refuse, h.refuse, h.refuse, h.joinOrWait rfl rfl]

theorem LimitsKept.admitAppend (h : LimitsKept u s) : LimitsKept u (admitAppend ch r s) := by
  have hreserved : ∀ k n, LimitsKept u (reserveAppend k n s) := fun k n => h.same (reserveAppend_ledger ..)
  unfold Machine.admitAppend
  repeat' split
  case isTrue hpost => exact (hreserved ..).post (room_of_mayPost (s := s) hpost) rfl
  case isFalse.isTrue hplace => exact (hreserved ..).joinWork hplace rfl
  exacts [h.refuse, h.refuse, h.refuse, h.refuse, h.refuse, h.same (waitForPlace_ledger ..)]

theorem LimitsKept.admitFlush (h : LimitsKept u s) : LimitsKept u (admitFlush ch r s) := by
  unfold Machine.admitFlush
  repeat' split
  exacts [h.refuse, h.refuse, h.joinOrWait rfl rfl, h.complete _]

theorem LimitsKept.admitMapStore (h : LimitsKept u s) : LimitsKept u (admitMapStore ch r s) := by
  unfold Machine.admitMapStore
  repeat' split
  exacts [h.refuse, h.refuse, h.refuse, h.refuse, h.refuse, h.joinOrWait rfl rfl]

theorem LimitsKept.retakeRequest (h : LimitsKept u s) : LimitsKept u (retakeRequest ch r s) := by
  unfold Machine.retakeRequest
  split
  exacts [h.admitRead, h.admitWrite, h.admitAppend, h.admitFlush, h.admitMapStore, h]

theorem LimitsKept.retakeStage (h : LimitsKept u s) : LimitsKept u (retakeStage ch s) := by
  unfold Machine.retakeStage
  split
  exacts [h.retakeRequest, h]

/-! ## Requests whose effect is complete in the step -/

theorem LimitsKept.admitCancel (h : LimitsKept u s) : LimitsKept u (admitCancel ch r s) := by
  unfold Machine.admitCancel
  repeat' split
  exacts [h.refuse, h.refuse, h.refuse, (h.endEntry.complete _).settle, h.refuse]

theorem LimitsKept.admitClaim (h : LimitsKept u s) : LimitsKept u (admitClaim ch r s) := by
  unfold Machine.admitClaim
  dsimp only
  repeat' split
  exacts [h.refuse, h.refuse, h.refuse, (h.same (by simp)).complete _, (h.same (by simp)).complete _, h.complete _]

theorem LimitsKept.admitMapRead (h : LimitsKept u s) : LimitsKept u (admitMapRead ch r s) := by
  unfold Machine.admitMapRead
  repeat' split
  exacts [h.refuse, h.refuse, h.refuse, h.complete _]

theorem LimitsKept.admitMapLoad (h : LimitsKept u s) : LimitsKept u (admitMapLoad ch r s) := by
  have hchanges : ∀ gs : List (Slot × Option Definition), (gs.foldl (applyChange ch) s).ledger = s.ledger := fun gs =>
    foldl_ledger (fun s g => applyChange_ledger s ch g) gs s
  unfold Machine.admitMapLoad
  repeat' split
  exacts [h.refuse, h.refuse, h.refuse, h.refuse, h.refuse, h.refuse, (h.same (by simp [hchanges])).complete _]

theorem LimitsKept.admitDefectRead (h : LimitsKept u s) : LimitsKept u (admitDefectRead ch r s) := by
  unfold Machine.admitDefectRead
  repeat' split
  exacts [h.refuse, h.refuse, h.refuse, h.complete _]

theorem LimitsKept.openSweep (h : LimitsKept u s) (kind : SweepKind) (ks : List Slot) : LimitsKept u (openSweep ch r kind ks s) := by
  unfold Machine.openSweep
  cases kind with
  | clear => exact h.orderUsed.same (by simp)
  | scan => exact h.orderUsed.same (by simp)

theorem LimitsKept.joinSweep (h : LimitsKept u s) (sw : Sweep) (ks : List Slot) : LimitsKept u (joinSweep ch r sw ks s) := by
  unfold Machine.joinSweep
  dsimp only
  split
  exacts [h.refuse, (h.same (by simp)).complete _]

theorem LimitsKept.admitClear (h : LimitsKept u s) : LimitsKept u (admitClear ch r s) := by
  unfold Machine.admitClear
  repeat' split
  exacts [h.refuse, h.refuse, h.refuse, h.refuse, h.refuse, h.openSweep .., h.joinSweep .., h.refuse]

theorem LimitsKept.admitScan (h : LimitsKept u s) : LimitsKept u (admitScan ch r s) := by
  unfold Machine.admitScan
  repeat' split
  exacts [h.refuse, h.refuse, h.refuse, h.refuse, h.refuse, h.openSweep ..]

theorem LimitsKept.admitSweepHalt (h : LimitsKept u s) : LimitsKept u (admitSweepHalt ch r s) := by
  unfold Machine.admitSweepHalt
  repeat' split
  exacts [h.refuse, h.refuse, h.refuse, h.refuse, ((h.same (haltSweep_ledger s)).complete _).settle]

theorem LimitsKept.admitContext (h : LimitsKept u s) : LimitsKept u (admitContext ch r s) := by
  unfold Machine.admitContext
  repeat' split
  exacts [h.refuse, h.refuse, h.refuse, (h.same (updPort_ledger ..)).complete _]

theorem LimitsKept.admitSettingsLoad (h : LimitsKept u s) : LimitsKept u (admitSettingsLoad ch r s) := by
  unfold Machine.admitSettingsLoad
  repeat' split
  exacts [h.refuse, h.refuse, h.refuse, h.refuse, h.refuse, ((h.same (by rfl)).complete _).topUpBoth]

theorem LimitsKept.admitStatus (h : LimitsKept u s) : LimitsKept u (admitStatus ch r s) := by
  unfold Machine.admitStatus
  repeat' split
  exacts [h.refuse, h.refuse, h.complete _]

theorem LimitsKept.admitEventAck (h : LimitsKept u s) : LimitsKept u (admitEventAck ch r s) := by
  unfold Machine.admitEventAck
  repeat' split
  exacts [h.refuse, h.refuse, (h.same (updPort_ledger ..)).complete _]

theorem LimitsKept.admitFaultRead (h : LimitsKept u s) : LimitsKept u (admitFaultRead ch r s) := by
  unfold Machine.admitFaultRead
  repeat' split
  · exact h.refuse
  · exact h.refuse
  · refine LimitsKept.complete (h.logSet fun ⟨hlen, _⟩ => ⟨?_, Nat.zero_le _⟩) _
    exact (List.tail_sublist _).length_le.trans hlen

theorem LimitsKept.admitTimeSet (h : LimitsKept u s) : LimitsKept u (admitTimeSet ch r s) := by
  unfold Machine.admitTimeSet
  repeat' split
  exacts [h.refuse, h.refuse, h.refuse, (h.same (by rfl)).complete _]

/-- Whatever the kind of the request that the stage holds. -/
theorem LimitsKept.admitAs (h : LimitsKept u s) (kind : ReqKind) : LimitsKept u (admitAs kind ch r s) := by
  cases kind
  exacts [h.admitRead, h.admitWrite, h.admitAppend, h.admitFlush, h.admitCancel, h.admitClaim, h.admitMapRead, h.admitMapLoad, h.admitMapStore,
    h.admitDefectRead, h.admitClear, h.admitScan, h.admitSweepHalt, h.admitContext, h.admitSettingsLoad, h.admitStatus, h.admitEventAck,
    h.admitFaultRead, h.admitTimeSet]

theorem LimitsKept.takeRequest (h : LimitsKept u s) (kind : ReqKind) : LimitsKept u (takeRequest kind (Machine.admitAs kind) ch s) := by
  unfold Machine.takeRequest
  repeat' split
  exacts [h.admitAs kind, h, h]

end Sys2Proof.Machine
end

section
/-! PROOFS. O7: the work of the drive keeps the capacities of the lists and the orders: grants, run boundaries, cuts, stops, sectors read and
written (R79 to R84, R117, R122 to R146, R155, R158). -/

namespace Sys2Proof.Machine

open Sys2Proof.Safety

variable {u s : State} {ch : Channel} {n : Nat} {k : Slot} {code : Code} {a : Access} {torn : Bool} {cause : DefectCause}

/-! ## Grants (R83), and the choices under PROTECT (R79) -/

theorem LimitsKept.grantEntry (h : LimitsKept u s) : LimitsKept u (grantEntry n s) := by
  unfold Machine.grantEntry
  split
  · exact h
  · have hactive : LimitsKept u (updEntry n (fun x => { x with state := .active, deadline := none }) s) := h.same (by simp)
    dsimp only
    repeat' split
    exacts [hactive.same (by simp), hactive.same (by simp), hactive.endEntry, hactive.endEntry, hactive.same (by simp),
      hactive.same (by simp), hactive.same (by simp), hactive]

theorem LimitsKept.grantPosted (h : LimitsKept u s) : LimitsKept u (grantPosted n s) := by
  unfold Machine.grantPosted
  split
  · exact h
  · have hcommitting : LimitsKept u (updPosted n (fun x => { x with committing := true, tornNext := false }) s) := h.same (by simp)
    dsimp only
    repeat' split
    exacts [hcommitting.same (by simp), hcommitting.faultPosted, hcommitting.faultPosted, hcommitting.same (by simp)]

theorem LimitsKept.endProtected (h : LimitsKept u s) (o : Owner) : LimitsKept u (endProtected o s) := by
  unfold Machine.endProtected
  repeat' split
  exacts [h.endEntry, h.leaveFaulted _, h, h]

theorem LimitsKept.endProtectedChoices (h : LimitsKept u s) : LimitsKept u (endProtectedChoices s) := by
  have hchoices : ∀ (fuel : Nat) (s : State), LimitsKept u s → LimitsKept u (protectedChoices fuel s) := by
    intro fuel
    induction fuel with
    | zero => exact fun _ h => h
    | succ fuel ih =>
      intro s h
      unfold protectedChoices
      repeat' split
      · exact h
      · exact ih _ (LimitsKept.endProtected (h.same (by rfl)) _).topUpBoth
      · exact h
  unfold Machine.endProtectedChoices logProtected
  split
  · exact (hchoices _ s h).foldl (fun _ p h => h.logFault p) _
  · exact h

theorem LimitsKept.chooseAndGrant (h : LimitsKept u s) : LimitsKept u (chooseAndGrant s) := by
  unfold Machine.chooseAndGrant grant
  repeat' split
  exacts [h.same (offerSweep_ledger s), LimitsKept.grantEntry (h.same (by rfl)), LimitsKept.grantPosted (h.same (by rfl)), h.same rfl]

/-! ## Run boundaries (R84, R103, R104) -/

theorem LimitsKept.boundaryEntry (h : LimitsKept u s) (stop : Option Stop) : LimitsKept u (boundaryEntry stop n s) := by
  have hparked : LimitsKept u (park (.entry n) false s) := h.same (park_ledger ..)
  unfold Machine.boundaryEntry
  repeat' split
  exacts [h, h.endEntry, hparked, hparked, h.grantEntry, hparked]

theorem LimitsKept.boundaryPosted (h : LimitsKept u s) (stop : Option Stop) : LimitsKept u (boundaryPosted stop n s) := by
  have hparked : LimitsKept u (park (.posted n) false s) := h.same (park_ledger ..)
  unfold Machine.boundaryPosted
  repeat' split
  exacts [h, h.faultPosted, hparked, hparked, h.grantPosted, hparked]

theorem LimitsKept.finishPosted (h : LimitsKept u s) : LimitsKept u (finishPosted n s) := by
  unfold Machine.finishPosted commitPosted
  repeat' split
  exacts [h, h.faultPosted, h.postedLeaves false]

theorem LimitsKept.runEnds (h : LimitsKept u s) : LimitsKept u (runEnds a s) := by
  have hended : LimitsKept u (creditRun a (endAccess s)) := h.same (by simp)
  unfold Machine.runEnds
  dsimp only
  repeat' split
  exacts [hended, hended.endEntry, hended.topUpBoth.boundaryEntry _, hended, hended.finishPosted, hended.topUpBoth.boundaryPosted _, hended]

/-! ## Cuts and stops (R133, R140 to R146, R158) -/

theorem LimitsKept.endRun (h : LimitsKept u s) : LimitsKept u (endRun a code s) := by
  have hended : LimitsKept u (creditRun a (endAccess s)) := h.same (by simp)
  unfold Machine.endRun
  dsimp only
  split
  exacts [hended.endEntry, hended.faultPosted, hended]

theorem LimitsKept.cutRun (h : LimitsKept u s) : LimitsKept u (cutRun a torn s) := by
  unfold Machine.cutRun
  split
  exacts [h.endRun, h.same (stopRun_ledger ..)]

theorem LimitsKept.withSlot (h : LimitsKept u s) {f : Slot → State → State} (hf : ∀ k, LimitsKept u (f k s)) : LimitsKept u (withSlot a f s) := by
  unfold Machine.withSlot
  split
  exacts [hf _, h]

theorem LimitsKept.clearCut (h : LimitsKept u s) : LimitsKept u (clearCut n k s) := by
  unfold Machine.clearCut
  repeat' split
  exacts [h.fillBecomesUnknown, h, h]

theorem LimitsKept.appendPowerCut (h : LimitsKept u s) : LimitsKept u (appendPowerCut a k s) := by
  have htorn : LimitsKept u (countTorn a s) := h.same (countTorn_ledger ..)
  unfold Machine.appendPowerCut
  dsimp only
  repeat' split
  exacts [(LimitsKept.endRun (h.same (by simp))).fillBecomesUnknown, h.cutRun, htorn.runEnds, htorn.cutRun]

theorem LimitsKept.appendFaultCut (h : LimitsKept u s) : LimitsKept u (appendFaultCut a k s) := by
  unfold Machine.appendFaultCut
  split
  exacts [h.endRun.fillBecomesUnknown, h.endRun, (h.same (countTorn_ledger ..)).endRun]

/-- A clearing step that is cut is made again. -/
theorem LimitsKept.clearingCut (h : LimitsKept u s) :
    LimitsKept u (stepUnmade (endAccess (Machine.withSlot a (Machine.clearCut n) s))) := by
  have hcut : LimitsKept u (Machine.withSlot a (Machine.clearCut n) s) := h.withSlot (fun _ => h.clearCut)
  exact hcut.same (by simp)

theorem LimitsKept.powerCut (h : LimitsKept u s) : LimitsKept u (powerCut a s) := by
  have htear : LimitsKept u (tear s) := h.same (tear_ledger s)
  unfold Machine.powerCut
  dsimp only
  repeat' split
  exacts [htear.cutRun, htear.withSlot (fun _ => htear.appendPowerCut), htear.same (stopRun_ledger ..), htear.cutRun, htear.same rfl,
    htear.clearingCut, htear]

theorem LimitsKept.faultCut (h : LimitsKept u s) : LimitsKept u (faultCut a s) := by
  have htear : LimitsKept u (tear s) := h.same (tear_ledger s)
  unfold Machine.faultCut
  dsimp only
  repeat' split
  exacts [htear.endRun, htear.withSlot (fun _ => htear.appendFaultCut), htear.endRun, htear.same rfl, htear.same (stopRun_ledger ..),
    htear.clearingCut, htear.same (by simp), htear.same rfl, htear.same rfl]

theorem LimitsKept.takeStop (h : LimitsKept u s) (c : Stop) : LimitsKept u (takeStop a torn c s) := by
  unfold Machine.takeStop
  repeat' split
  exacts [h.powerCut, h.same (stopRun_ledger ..), h.same (by simp), h.same rfl, h.endRun]

theorem LimitsKept.stopAtCommandEnd (h : LimitsKept u s) {t : State} (hs : s.stopAtCommandEnd a = some t) : LimitsKept u t := by
  revert hs
  unfold State.stopAtCommandEnd
  (repeat' split) <;> rintro ⟨⟩
  exacts [h.same rfl, h.takeStop _, h.same (drainStop_ledger ..)]

/-! ## Sectors read and written (R22, R123 to R131) -/

theorem LimitsKept.sectorEnds (h : LimitsKept u s) : LimitsKept u (sectorEnds a s) := by
  unfold Machine.sectorEnds
  repeat' split
  exacts [h.runEnds, h.takeStop _, h.same (stopRun_ledger ..), h.same (turnTo_ledger ..)]

theorem LimitsKept.appendSectorEnds (h : LimitsKept u s) : LimitsKept u (appendSectorEnds a k s) := by
  unfold Machine.appendSectorEnds
  repeat' split
  exacts [h.runEnds, h.endRun, h.runEnds, h.takeStop _, h.same (stopRun_ledger ..), h.same (turnTo_ledger ..)]

theorem LimitsKept.sectorRead (h : LimitsKept u s) (ws : List Word) (c : Option Condition) : LimitsKept u (sectorRead a ws c s) := by
  unfold Machine.sectorRead
  dsimp only
  repeat' split
  exacts [LimitsKept.sectorEnds (h.same (by simp)), LimitsKept.sectorEnds (h.same (by simp)), h.same (by simp), h]

theorem LimitsKept.readAttemptFails (h : LimitsKept u s) : LimitsKept u (readAttemptFails a cause s) := by
  unfold Machine.readAttemptFails readFails
  dsimp only
  repeat' split
  exacts [h.same rfl, h.same (by simp), LimitsKept.sectorRead (h.same (by simp)) .., h.same (by simp), h.same (by simp), h.same (by simp),
    h.same (by simp)]

theorem LimitsKept.goodField (h : LimitsKept u s) (f : FieldImage) : LimitsKept u (goodField a f s) := by
  unfold Machine.goodField
  split
  exacts [h.same (by simp), h.sectorRead .., h.sectorRead ..]

theorem LimitsKept.writeCounts (h : LimitsKept u s) : LimitsKept u (writeCounts a s) := by
  have hcleared : LimitsKept u (endAccess (removeDefect a.cylinder (headOf a.sector) (sectorOf a.sector) s)) := h.same rfl
  unfold Machine.writeCounts mapStoreDone storeDone countAppended
  dsimp only
  repeat' split
  exacts [LimitsKept.sectorEnds (h.same (by simp)), LimitsKept.sectorEnds (h.same (by simp)),
    h.withSlot (fun _ => LimitsKept.appendSectorEnds (h.same (by simp))), LimitsKept.endEntry (h.same (by rfl)),
    LimitsKept.endEntry (h.same (by rfl)), h.same rfl, hcleared.withSlot (fun _ => hcleared.same (clearingStepDone_ledger ..)), h]

theorem LimitsKept.writeFails (h : LimitsKept u s) : LimitsKept u (writeFails a cause s) := by
  have hrecorded : LimitsKept u (endAccess (recordDefect a.cylinder (headOf a.sector) (sectorOf a.sector) cause s)) := h.same (by simp)
  unfold Machine.writeFails
  dsimp only
  repeat' split
  exacts [LimitsKept.endRun (h.same (by simp)), h.same (by simp), LimitsKept.endRun (h.same (by simp)), h.same (by simp),
    hrecorded.withSlot (fun _ => hrecorded.same (clearingStepFailed_ledger ..)), h.same (by simp)]

theorem LimitsKept.checkAttemptFails (h : LimitsKept u s) : LimitsKept u (checkAttemptFails a s) := by
  unfold Machine.checkAttemptFails
  repeat' split
  exacts [h.same (by simp), LimitsKept.writeFails (h.same (by rfl)), h.same (by simp), h.same (by simp)]

theorem LimitsKept.readBackFails (h : LimitsKept u s) : LimitsKept u (readBackFails a s) := by
  unfold Machine.readBackFails
  dsimp only
  split
  exacts [h.same (by simp), LimitsKept.writeFails (h.same (by rfl))]

theorem LimitsKept.markingSucceeds (h : LimitsKept u s) : LimitsKept u (markingSucceeds a k s) :=
  LimitsKept.appendSectorEnds (h.same (by simp))

theorem LimitsKept.markingFails (h : LimitsKept u s) : LimitsKept u (markingFails a cause k s) :=
  (LimitsKept.endRun (h.same (by simp))).fillBecomesUnknown

theorem LimitsKept.checkFails (h : LimitsKept u s) : LimitsKept u (checkFails a s) := by
  unfold Machine.checkFails
  repeat' split
  exacts [h.withSlot (fun _ => h.markingFails), h.withSlot (fun _ => h.markingFails), h.readBackFails, h.checkAttemptFails, h.readAttemptFails]

theorem LimitsKept.readHeader (h : LimitsKept u s) (st : HeaderState) : LimitsKept u (readHeader a st s) := by
  unfold Machine.readHeader
  split
  exacts [LimitsKept.settle (h.same (by simp)), LimitsKept.settle (h.same (by simp)), LimitsKept.settle (h.same (by simp)),
    (h.sectorRead ..).settle, (h.sectorRead ..).settle, h.same rfl]

theorem LimitsKept.headerChecked (h : LimitsKept u s) (c : AddressCheck) : LimitsKept u (headerChecked a c s) := by
  have hgate : LimitsKept u (openGate a s) := h.same (openGate_ledger ..)
  have hfails : LimitsKept u (Machine.settle (Machine.checkFails a s)) := h.checkFails.settle
  unfold Machine.headerChecked
  repeat' split
  exacts [(h.withSlot (fun _ => h.markingSucceeds)).settle, hfails, h, hgate, hgate, hfails, hfails, hgate, h.readHeader _, hgate, hfails, hfails]

theorem LimitsKept.afterData (h : LimitsKept u s) : LimitsKept u (afterData a s) := by
  unfold Machine.afterData
  repeat' split
  exacts [h.same (by simp), h.same (by simp), h.writeCounts.settle]

theorem LimitsKept.seekFails (h : LimitsKept u s) : LimitsKept u (seekFails a s) := by
  have hended : LimitsKept u (endAccess s) := h.same rfl
  unfold Machine.seekFails
  split
  exacts [LimitsKept.same (hended.withSlot (fun _ => hended.same (by rfl))) (stepSeekError_ledger _), h.same (by simp),
    h.same (by simp), h.same (by simp), h.same rfl, h.endRun]

theorem LimitsKept.accessGoesOn (h : LimitsKept u s) (restored : Bool) : LimitsKept u (accessGoesOn a restored s) := by
  unfold Machine.accessGoesOn
  split
  · next hstop => exact (h.stopAtCommandEnd hstop).settle
  · split
    exacts [h.seekFails.settle, h.same (approach_ledger s)]

theorem LimitsKept.searchPulse (h : LimitsKept u s) (before : Option Nat) : LimitsKept u (searchPulse a before s) := by
  unfold Machine.searchPulse
  repeat' split
  exacts [h.same (beginPassage_ledger ..), (LimitsKept.checkFails (h.same (by rfl))).settle, h.same rfl, h.same rfl]

/-! ## Departure (R155) and stops asked for by a line (R144 to R146) -/

theorem LimitsKept.depart (h : LimitsKept u s) : LimitsKept u (depart s) := by
  unfold Machine.depart
  split
  · exact h
  · dsimp only
    refine LimitsKept.retakeStage (LimitsKept.retakeStage (LimitsKept.same (s := endSweep _ _) ?_ rfl))
    refine LimitsKept.same (LimitsKept.faultAll (LimitsKept.endEntries (h.same ?_) _) _) (endSweep_ledger ..)
    split <;> simp

theorem LimitsKept.onWriteAccess (h : LimitsKept u s) {f : Access → State → State} (hf : ∀ a, LimitsKept u (f a s)) :
    LimitsKept u (onWriteAccess f s) := by
  unfold Machine.onWriteAccess
  repeat' split
  exacts [hf _, h, h]

theorem LimitsKept.askStop (h : LimitsKept u s) (c : Stop) : LimitsKept u (askStop c a s) := by
  unfold Machine.askStop
  split
  exacts [h.same rfl, h.takeStop c]

theorem LimitsKept.askCut (h : LimitsKept u s) : LimitsKept u (askCut a s) := by
  unfold Machine.askCut
  split
  exacts [h.same rfl, h.powerCut]

theorem LimitsKept.powerStop (h : LimitsKept u s) : LimitsKept u (powerStop a s) := by
  unfold Machine.powerStop
  split
  exacts [h.askStop _, h.askStop _, h]

theorem LimitsKept.cutByFault (h : LimitsKept u s) : LimitsKept u (cutByFault s) := by
  unfold Machine.cutByFault
  repeat' split
  exacts [h.powerCut, h.faultCut, h]

theorem LimitsKept.shutDown (h : LimitsKept u s) : LimitsKept u (shutDown s) := by
  have htaken : LimitsKept u (takeBeginning s) := h.same rfl
  unfold Machine.shutDown
  dsimp only
  repeat' split
  exacts [htaken.settle, (htaken.onWriteAccess (fun _ => htaken.powerStop)).settle,
    ((htaken.onWriteAccess (fun _ => htaken.askCut)).same (updSeq_ledger ..)).settle]

end Sys2Proof.Machine
end

section
/-! PROOFS. O7: what every command keeps of the capacities of the lists and of the admission orders, and so every step. -/

namespace Sys2Proof.Machine

open Sys2Proof.Safety

variable {u s t : State} {ch : Channel}

/-! ## Resets, paths, lines (R137, R175 to R178, R184) -/

theorem LimitsKept.afterPowerOn (levels : LineSet) (s : State) : LimitsKept s (s.afterPowerOn levels) := by
  obtain ⟨-, -, -, hwork, horders, hposted, -⟩ := reset_lawful
  exact ⟨fun _ => hwork, fun _ => hposted, fun _ => horders⟩

theorem LimitsKept.resetChannel (h : LimitsKept u s) : LimitsKept u (resetChannel ch s) := by
  have hentry : ∀ (s : State) (e : Entry), LimitsKept u s → LimitsKept u (resetEntry ch s e) := by
    intro s e h
    unfold resetEntry
    repeat' split
    exacts [h.same (by simp), h.same (by simp), LimitsKept.dropEntry (h.same (by rfl)), h.dropEntry, h.dropEntry, h.dropEntry, h]
  unfold Machine.resetChannel
  exact LimitsKept.settle (LimitsKept.same (LimitsKept.foldl hentry _ (h.same (updPort_ledger s ch Port.channelReset))) rfl)

theorem LimitsKept.rejectFrame (h : LimitsKept u s) {v : Receiver} {tag n : Nat} {reason : LinkReason} :
    LimitsKept u (rejectFrame ch v tag reason n s) :=
  (LimitsKept.formReply (h.same (setReceiver_ledger s ch v)) _).same (topUp_ledger ..)

theorem LimitsKept.takeWord (h : LimitsKept u s) (w : Word) : LimitsKept u (takeWord ch w s) := by
  unfold Machine.takeWord takeHeaderWord takeFrameWord takeLengthWord takeCheckWord
  repeat' split
  exacts [h, h.same rfl, h.rejectFrame, h, h, h.rejectFrame, h.same rfl, h.same rfl, h.same rfl, h.rejectFrame, h]

theorem LimitsKept.lineChange (h : LimitsKept u s) {act : State → State} (hact : ∀ s, LimitsKept u s → LimitsKept u (act s)) (l : Line)
    (active : Bool) : LimitsKept u (lineChange l active act s) := by
  have howner : ∀ s, LimitsKept u s → LimitsKept u (ownerTakes l active act s) := fun s h => by
    unfold ownerTakes
    split
    exacts [h, hact _ (h.same rfl)]
  have hrest : LimitsKept u { s with takers := s.takers.tail } := h.same rfl
  have hmonitor : LimitsKept u (monitorTakes l active { s with takers := s.takers.tail }) := hrest.same (monitorTakes_ledger ..)
  unfold Machine.lineChange
  dsimp only
  split
  exacts [hmonitor, howner _ hrest, howner _ hmonitor, howner _ hmonitor]

/-! ## The commands -/

theorem LimitsKept.of_next (hk : LimitsKept u s) (h : (.next s : Host.Outcome State Fault Refusal) = .next t) : LimitsKept u t :=
  Host.Outcome.next.inj h ▸ hk

theorem LimitsKept.execSeekTimeout (h : LimitsKept u s) (he : exec .seekTimeout s = .next t) : LimitsKept u t := by
  refine LimitsKept.of_next ?_ he
  split
  · dsimp only
    split
    · next v hstop =>
      obtain ⟨a, -, hstop⟩ := Option.bind_eq_some_iff.1 hstop
      exact ((LimitsKept.stopAtCommandEnd (h.same (updSeq_ledger ..)) hstop).same (issueRestore_ledger v)).settle
    · exact h.same rfl
  · exact h

theorem LimitsKept.olderGone (h : LimitsKept u s) (a : Access) : LimitsKept u (olderGone a s) := by
  unfold Machine.olderGone
  split
  exacts [h.faultAll _, h]

theorem LimitsKept.execRestoreTimeout (h : LimitsKept u s) (he : exec .restoreTimeout s = .next t) : LimitsKept u t := by
  refine LimitsKept.of_next ?_ he
  split
  · refine (LimitsKept.depart (LimitsKept.same ?_ (enterOffline_ledger _))).settle
    repeat' split
    exacts [(h.olderGone _).seekFails, h, h]
  · exact h

theorem exec_limitsKept (c : Instr) (he : exec c s = .next t) : LimitsKept s t := by
  have h := LimitsKept.refl s
  cases c
  case read ch | write ch | append ch | flush ch | cancel ch | claim ch | mapRead ch | mapLoad ch | mapStore ch | defectRead ch | clear ch
      | scan ch | sweepHalt ch | context ch | settingsLoad ch | status ch | eventAck ch | faultRead ch | timeSet ch =>
    exact (h.takeRequest _).of_next he
  case powerOnReset levels =>
    refine ((LimitsKept.afterPowerOn levels s).same ?_).of_next he
    split <;> simp
  case clockTick =>
    have hwork := work_ledger (f := Entry.tick) (fun x => by unfold Entry.tick; split <;> exact ⟨rfl, rfl⟩) s
    exact LimitsKept.of_next ((h.same hwork).same (by rfl)) he
  case seekTimeout => exact h.execSeekTimeout he
  case restoreTimeout => exact h.execRestoreTimeout he
  case readyInactive =>
    exact (h.lineChange (fun u hu => (LimitsKept.depart (hu.same (by simp))).settle) ..).of_next he
  case doorOpen => exact (h.lineChange (fun u hu => hu.depart.settle) ..).of_next he
  case doorClose | unloadReleased | protectInactive => exact (h.lineChange (fun u hu => hu) ..).of_next he
  case powerInactive => exact (h.lineChange (fun u hu => hu.same (by rfl)) ..).of_next he
  case powerActive => exact (h.lineChange (fun u hu => hu.shutDown) ..).of_next he
  case protectActive =>
    refine (h.lineChange (fun u hu => ?_) ..).of_next he
    have hsweep := hu.same (protectSweep_ledger u)
    exact (hsweep.onWriteAccess (fun _ => hsweep.askStop _)).settle
  case readyActive | faultInactive =>
    refine (h.lineChange (fun u hu => hu.same ?_) ..).of_next he
    split <;> simp
  case unloadPressed =>
    refine (h.lineChange (fun u hu => ?_) ..).of_next he
    split
    exacts [LimitsKept.settle (hu.same (haltSweep_ledger _)), LimitsKept.settle (hu.same (by rfl)), hu]
  case faultActive =>
    refine (h.lineChange (fun u hu => ?_) ..).of_next he
    split
    exacts [(hu.cutByFault.same (enterNotSafe_ledger _)).settle, hu]
  case resetRelease | reservationMade | attentionDelayExpiry | leaseExpiry | collectionWindowExpiry | seekDoneInactive | headerPhaseComplete
      | frameInactive =>
    refine (h.same ?_).of_next he
    (repeat' split) <;> simp
  case channelReset =>
    refine LimitsKept.of_next ?_ he
    repeat' split
    exacts [h, h.resetChannel]
  case inboundWord ch w => exact (h.takeWord w).of_next he
  case frameEarlyEnd =>
    refine LimitsKept.of_next ?_ he
    repeat' split
    exacts [h.rejectFrame, h]
  case outboundWordTaken =>
    refine LimitsKept.of_next ?_ he
    repeat' split
    exacts [LimitsKept.settle (h.same (by rfl)), h.same rfl, h]
  case requestRetake =>
    refine LimitsKept.of_next ?_ he
    repeat' split
    exacts [h.retakeRequest, h]
  case deadlineExpiry =>
    refine LimitsKept.of_next ?_ he
    dsimp only
    repeat' split
    exacts [h, (LimitsKept.endEntry (h.same (by rfl))).settle, h.same (by simp)]
  case arbiterChoice =>
    refine LimitsKept.of_next ?_ he
    repeat' split
    exacts [h.endProtectedChoices.chooseAndGrant.settle, h]
  case seekDone =>
    refine LimitsKept.of_next ?_ he
    split
    · dsimp only
      split
      exacts [LimitsKept.accessGoesOn (h.same (arrive_ledger ..)) _, h.same (by simp)]
    · exact h
  case sectorPulse =>
    refine LimitsKept.of_next ?_ he
    dsimp only
    repeat' split
    exacts [LimitsKept.searchPulse (h.same (by rfl)) _, h.same rfl]
  case headerReadComplete =>
    refine LimitsKept.of_next ?_ he
    repeat' split
    exacts [LimitsKept.headerChecked (h.same (noteCheck_ledger ..)) _, h]
  case dataPhaseComplete =>
    refine LimitsKept.of_next ?_ he
    repeat' split
    exacts [LimitsKept.afterData (h.same (dataWritten_ledger ..)), h]
  case dataReadComplete =>
    refine LimitsKept.of_next ?_ he
    repeat' split
    exacts [(h.goodField _).settle, h.readAttemptFails.settle, h]
  case readBackComplete =>
    refine LimitsKept.of_next ?_ he
    dsimp only
    repeat' split
    exacts [(LimitsKept.writeCounts (h.same (noteCheck_ledger ..))).settle,
      (LimitsKept.readBackFails (h.same (noteCheck_ledger ..))).settle, h]
  case faultPersistenceExpiry =>
    refine LimitsKept.of_next ?_ he
    dsimp only
    repeat' split
    exacts [(h.depart.same (issueStop_ledger _)).settle, h.depart.settle, h]
  case drainTimerExpiry =>
    refine LimitsKept.of_next ?_ he
    dsimp only
    repeat' split
    exacts [LimitsKept.settle (h.same (by simp)), LimitsKept.settle (h.same (by rfl)), LimitsKept.settle (h.same (by rfl)), h]
  case storeBegin =>
    refine LimitsKept.of_next ?_ he
    repeat' split
    exacts [LimitsKept.settle (h.same (enterReleasing_ledger s)), LimitsKept.settle (h.same (beginLabelWrite_ledger ..)), h]

theorem step_limitsKept (he : step s = .next t) : LimitsKept s t := by
  unfold step at he
  split at he
  · exact (LimitsKept.refl s).of_next he
  · next c rest _ => exact LimitsKept.trans ((LimitsKept.refl s).same (by rfl)) (exec_limitsKept c he)

end Sys2Proof.Machine

namespace Sys2Proof.Proofs

open Sys2Proof.Machine Sys2Proof.Safety

/-- Settles O7: entries and posted writes join their lists only where admission finds a place, under the next order; every other operation
leaves the lists, the logs and the orders as they are or takes from them, or logs a fault within the log's limits. -/
theorem stepKeepsCapacitiesAndOrders : Obligations.StepKeepsCapacitiesAndOrders :=
  ⟨fun _ _ hwork hposted he => ⟨(step_limitsKept he).work hwork, (step_limitsKept he).posted hposted⟩,
    fun _ _ horders he => (step_limitsKept he).orders horders⟩

end Sys2Proof.Proofs
end

section

/-!
PROOFS. The clock and the QUEUED deadlines: CLOCK_TICK (R94, R95) and DEADLINE_EXPIRY (R85, R86).
-/

namespace Sys2Proof.Machine

open Sys2Proof.Safety

/-- A deadline of a class whose late action is MARK leaves the entry late (R86). -/
theorem execDeadlineExpiry_mark {ch : Channel} {tag : Nat} {e : Entry} {s : State} (h : s.dueDeadline ch tag = some e)
    (hact : (s.settings.row (e.cls.getD .bulk)).lateAction = .mark) :
    execDeadlineExpiry ch tag s = .next (updEntry e.order (fun x => { x with late := true }) (raise ch .late s)) := by
  have hact' : ((raise ch .late s).settings.row (e.cls.getD .bulk)).lateAction = .mark := hact
  simp only [execDeadlineExpiry, h, hact']

/-- A deadline of a class whose late action is ABANDON ends the entry (R86). -/
theorem execDeadlineExpiry_abandon {ch : Channel} {tag : Nat} {e : Entry} {s : State} (h : s.dueDeadline ch tag = some e)
    (hact : (s.settings.row (e.cls.getD .bulk)).lateAction = .abandon) :
    execDeadlineExpiry ch tag s = .next (settle (endEntry e.order .deadlineAbandoned (raise ch .late s))) := by
  have hact' : ((raise ch .late s).settings.row (e.cls.getD .bulk)).lateAction = .abandon := hact
  simp only [execDeadlineExpiry, h, hact']

theorem mem_of_dueDeadline {ch : Channel} {tag : Nat} {e : Entry} {s : State} (h : s.dueDeadline ch tag = some e) : e ∈ s.work :=
  List.mem_of_find?_eq_some h

end Sys2Proof.Machine

namespace Sys2Proof.Proofs

open Sys2Proof.Machine Sys2Proof.Safety

/-- Settles O12: the command is the count-down of each timer, by the definitions of the ticks. -/
theorem clockTick : Obligations.ClockTick := by
  intro s
  show execClockTick s = _
  rfl

/-- Settles O34, by the late action of the entry's class. -/
theorem deadlineExpiry : Obligations.DeadlineExpiry := by
  intro ch tag e s hfind ho u action
  have hdue : s.dueDeadline ch tag = some e := hfind
  have hou : OrdersLawful (raise ch .late s) := ho
  refine ⟨fun hmark => execDeadlineExpiry_mark hdue hmark, fun habandon hl hv => ?abandon⟩
  case abandon =>
    exact ⟨_, execDeadlineExpiry_abandon hdue habandon,
      settle_endEntry_of_sameBut (sameBut_refl _) hou (raise_repliesLawful ch .late hl) hv (mem_of_dueDeadline hdue) .deadlineAbandoned⟩

end Sys2Proof.Proofs

end

section

/-!
PROOFS. The arbiter's choice (R81, R82): what the most preferred member of a list is, the highest class present, and the elevator.
-/

namespace Sys2Proof.Machine

open Sys2Proof.Safety

/-! ## The most preferred member of a list -/

theorem best_isSome {α : Type} (pref : α → α → Bool) {l : List α} (h : l ≠ []) : ∃ x, best pref l = some x := by
  cases l with
  | nil => exact absurd rfl h
  | cons y l => exact ⟨_, rfl⟩

theorem best_none {α : Type} {pref : α → α → Bool} {l : List α} (h : best pref l = none) : l = [] := by
  cases l with
  | nil => rfl
  | cons y l => cases h

/-- With a strict preference that comes from a weak order, no member is preferred to the best one. -/
theorem best_unbeaten {α : Type} {pref : α → α → Bool} (hasymm : ∀ x y, pref x y = true → pref y x = false)
    (htrans : ∀ x y z, pref x y = false → pref y z = false → pref x z = false) {l : List α} {x : α} (h : best pref l = some x) :
    ∀ y ∈ l, pref y x = false := by
  have hirrefl : ∀ x, pref x x = false := fun x => by
    cases hx : pref x x with
    | false => rfl
    | true => exact hx.symm.trans (hasymm x x hx)
  induction l generalizing x with
  | nil => cases h
  | cons z l ih =>
    obtain rfl := Option.some.inj h
    cases hl : best pref l with
    | none =>
      obtain rfl := best_none hl
      intro y hy
      obtain rfl := List.mem_singleton.1 hy
      exact hirrefl y
    | some b =>
      have hb := ih hl
      by_cases hpref : pref b z = true
      · rw [better, if_pos hpref]
        exact List.forall_mem_cons.2 ⟨hasymm b z hpref, hb⟩
      · rw [better, if_neg hpref]
        exact List.forall_mem_cons.2 ⟨hirrefl z, fun y hy => htrans y b z (hb y hy) (Bool.eq_false_iff.2 hpref)⟩

/-- The oldest of a list of candidates. -/
theorem oldest_le {cs : List Candidate} {c : Candidate} (h : best (fun c d => decide (c.order < d.order)) cs = some c) :
    ∀ d ∈ cs, c.order ≤ d.order := by
  intro d hd
  have := best_unbeaten (fun x y h => by simp at h ⊢; omega) (fun x y z h h' => by simp at h h' ⊢; omega) h d hd
  simpa using this

theorem nearest_isSome (arm : Nat) {cs : List Candidate} (h : cs ≠ []) : ∃ c, nearest arm cs = some c := best_isSome _ h

/-- None is nearer than the nearest, and none as near is older (R82). -/
theorem nearest_unbeaten {arm : Nat} {cs : List Candidate} {c : Candidate} (h : nearest arm cs = some c) :
    ∀ d ∈ cs, c.distance arm ≤ d.distance arm ∧ (d.distance arm = c.distance arm → c.order ≤ d.order) := by
  intro d hd
  have hbest := best_unbeaten (fun x y h => by simp only [decide_eq_true_eq, decide_eq_false_iff_not] at h ⊢; omega)
    (fun x y z h h' => by simp only [decide_eq_false_iff_not] at h h' ⊢; omega) h d hd
  simp only [decide_eq_false_iff_not] at hbest
  exact ⟨by omega, by omega⟩

/-! ## The highest class present -/

theorem workClass_code_injective {c d : WorkClass} (h : c.code = d.code) : c = d := by
  revert h
  cases c <;> cases d <;> decide

theorem mem_highestClass {cs : List Candidate} {c : Candidate} :
    c ∈ highestClass cs ↔ c ∈ cs ∧ ∀ d ∈ cs, c.cls.code ≤ d.cls.code := by
  simp [highestClass]

theorem highestClass_ne_nil {cs : List Candidate} (h : cs ≠ []) : highestClass cs ≠ [] := by
  obtain ⟨c, hc, hle⟩ := cs.toFinset.exists_min_image (fun c => c.cls.code) (by simpa using h)
  exact List.ne_nil_of_mem (mem_highestClass.2 ⟨List.mem_toFinset.1 hc, fun d hd => hle d (List.mem_toFinset.2 hd)⟩)

theorem cls_eq_of_mem_highestClass {cs : List Candidate} {c d : Candidate} (hc : c ∈ highestClass cs) (hd : d ∈ highestClass cs) :
    c.cls = d.cls :=
  workClass_code_injective (Nat.le_antisymm ((mem_highestClass.1 hc).2 d (mem_highestClass.1 hd).1)
    ((mem_highestClass.1 hd).2 c (mem_highestClass.1 hc).1))

theorem mem_highestClass_of_cls_eq {cs : List Candidate} {c d : Candidate} (hc : c ∈ highestClass cs) (hd : d ∈ cs) (h : d.cls = c.cls) :
    d ∈ highestClass cs :=
  mem_highestClass.2 ⟨hd, fun x hx => h ▸ (mem_highestClass.1 hc).2 x hx⟩

/-- The choice by class (R81): the oldest of URGENT, the elevator's choice of another class. -/
theorem choose_eq {dir : Direction} {arm : Nat} {cs : List Candidate} {x : Candidate} (hx : x ∈ highestClass cs) :
    choose dir arm cs =
      if x.cls = .urgent then (best (fun c d => decide (c.order < d.order)) (highestClass cs), dir)
      else elevator dir arm (highestClass cs) := by
  unfold choose
  cases htop : highestClass cs with
  | nil => rw [htop] at hx; cases hx
  | cons y l =>
    have hy : y ∈ highestClass cs := by rw [htop]; exact List.mem_cons_self ..
    rw [cls_eq_of_mem_highestClass hx hy]

/-! ## The elevator -/

/-- A candidate lies in a direction from the arm, its own cylinder included (R82). -/
def Candidate.liesIn (arm : Nat) (dir : Direction) (c : Candidate) : Prop :=
  match dir with
  | .inward => arm ≤ c.cylinder
  | .outward => c.cylinder ≤ arm

theorem mem_inDirection {dir : Direction} {arm : Nat} {cs : List Candidate} {c : Candidate} :
    c ∈ inDirection dir arm cs ↔ c ∈ cs ∧ c.liesIn arm dir := by
  cases dir <;> simp [inDirection, Candidate.liesIn]

theorem Candidate.liesIn_reverse {arm : Nat} {dir : Direction} {c : Candidate} (h : ¬ c.liesIn arm dir) : c.liesIn arm dir.reverse := by
  cases dir
  · exact Nat.le_of_not_le h
  · exact Nat.le_of_not_le h

theorem Direction.reverse_ne (dir : Direction) : dir.reverse ≠ dir := by
  cases dir <;> decide

/-- What the elevator takes of a list that is not empty (R82): one that lies in the direction then taken, none of the list nearer there, and
none older in its cylinder; the direction is reversed when nothing lies ahead. -/
structure TakenByElevator (dir : Direction) (arm : Nat) (cs : List Candidate) (c : Candidate) (dir' : Direction) : Prop where
  mem : c ∈ cs
  lies : c.liesIn arm dir'
  nearest : ∀ d ∈ cs, d.liesIn arm dir' → c.distance arm ≤ d.distance arm
  oldest : ∀ d ∈ cs, d.cylinder = c.cylinder → c.order ≤ d.order
  reversed : dir' ≠ dir ↔ ∀ d ∈ cs, ¬ d.liesIn arm dir

theorem liesIn_of_cylinder_eq {arm : Nat} {dir : Direction} {c d : Candidate} (h : d.cylinder = c.cylinder) (hc : c.liesIn arm dir) :
    d.liesIn arm dir := by
  unfold Candidate.liesIn at *
  rwa [h]

/-- The nearest in a direction, where that direction is the one to take. -/
theorem takenByElevator_of_nearest {dir dir' : Direction} {arm : Nat} {cs : List Candidate} {c : Candidate}
    (h : nearest arm (inDirection dir' arm cs) = some c) (hrev : dir' ≠ dir ↔ ∀ d ∈ cs, ¬ d.liesIn arm dir) :
    TakenByElevator dir arm cs c dir' := by
  obtain ⟨hmem, hlies⟩ := mem_inDirection.1 (best_mem h)
  have hun := nearest_unbeaten h
  refine ⟨hmem, hlies, fun d hd hl => (hun d (mem_inDirection.2 ⟨hd, hl⟩)).1, fun d hd hcyl => ?_, hrev⟩
  have hdist : d.distance arm = c.distance arm := by rw [Candidate.distance, Candidate.distance, hcyl]
  exact (hun d (mem_inDirection.2 ⟨hd, liesIn_of_cylinder_eq hcyl hlies⟩)).2 hdist

theorem elevator_takes (dir : Direction) (arm : Nat) {cs : List Candidate} (hne : cs ≠ []) :
    ∃ c dir', elevator dir arm cs = (some c, dir') ∧ TakenByElevator dir arm cs c dir' := by
  cases hahead : nearest arm (inDirection dir arm cs) with
  | some c =>
    obtain ⟨hmem, hlies⟩ := mem_inDirection.1 (best_mem hahead)
    exact ⟨c, dir, by rw [elevator, hahead],
      takenByElevator_of_nearest hahead ⟨fun h => absurd rfl h, fun h => absurd hlies (h c hmem)⟩⟩
  | none =>
    have hnone : ∀ d ∈ cs, ¬ d.liesIn arm dir := fun d hd hl =>
      List.ne_nil_of_mem (mem_inDirection.2 ⟨hd, hl⟩) (best_none hahead)
    obtain ⟨x, hx⟩ := List.exists_mem_of_ne_nil cs hne
    have hbehind := mem_inDirection.2 ⟨hx, Candidate.liesIn_reverse (hnone x hx)⟩
    obtain ⟨c, hnear⟩ := nearest_isSome arm (List.ne_nil_of_mem hbehind)
    exact ⟨c, dir.reverse, by rw [elevator, hahead, hnear]; simp [hne],
      takenByElevator_of_nearest hnear ⟨fun _ => hnone, fun _ => dir.reverse_ne⟩⟩

/-- What the arbiter chooses of a list that is not empty (R81, R82). -/
structure Chosen (dir : Direction) (arm : Nat) (cs : List Candidate) (c : Candidate) (dir' : Direction) : Prop where
  mem : c ∈ cs
  highest : ∀ d ∈ cs, c.cls.code ≤ d.cls.code
  urgent : c.cls = .urgent → dir' = dir ∧ ∀ d ∈ cs, d.cls = .urgent → c.order ≤ d.order
  other : c.cls ≠ .urgent → c.liesIn arm dir'
    ∧ (∀ d ∈ cs, d.cls = c.cls → d.liesIn arm dir' → c.distance arm ≤ d.distance arm)
    ∧ (∀ d ∈ cs, d.cls = c.cls → d.cylinder = c.cylinder → c.order ≤ d.order)
    ∧ (dir' ≠ dir ↔ ∀ d ∈ cs, d.cls = c.cls → ¬ d.liesIn arm dir)

theorem choose_chosen (dir : Direction) (arm : Nat) {cs : List Candidate} (hne : cs ≠ []) :
    ∃ c dir', choose dir arm cs = (some c, dir') ∧ Chosen dir arm cs c dir' := by
  obtain ⟨x, hx⟩ := List.exists_mem_of_ne_nil _ (highestClass_ne_nil hne)
  have hchoose := choose_eq (dir := dir) (arm := arm) hx
  by_cases hurgent : x.cls = .urgent
  · rw [if_pos hurgent] at hchoose
    obtain ⟨c, hc⟩ := best_isSome (fun c d : Candidate => decide (c.order < d.order)) (List.ne_nil_of_mem hx)
    have htop := best_mem hc
    have hcls : c.cls = .urgent := (cls_eq_of_mem_highestClass htop hx).trans hurgent
    exact ⟨c, dir, by rw [hchoose, hc],
      { mem := (mem_highestClass.1 htop).1
        highest := (mem_highestClass.1 htop).2
        urgent := fun _ => ⟨rfl, fun d hd h => oldest_le hc d (mem_highestClass_of_cls_eq htop hd (h.trans hcls.symm))⟩
        other := fun h => absurd hcls h }⟩
  · rw [if_neg hurgent] at hchoose
    obtain ⟨c, dir', helev, htaken⟩ := elevator_takes dir arm (List.ne_nil_of_mem hx)
    have htop := htaken.mem
    have hin : ∀ d ∈ cs, d.cls = c.cls → d ∈ highestClass cs := fun d hd h => mem_highestClass_of_cls_eq htop hd h
    exact ⟨c, dir', hchoose.trans helev,
      { mem := (mem_highestClass.1 htop).1
        highest := (mem_highestClass.1 htop).2
        urgent := fun h => absurd ((cls_eq_of_mem_highestClass hx htop).trans h) hurgent
        other := fun _ => ⟨htaken.lies, fun d hd h => htaken.nearest d (hin d hd h), fun d hd h => htaken.oldest d (hin d hd h),
          htaken.reversed.trans ⟨fun hno d hd h => hno d (hin d hd h),
            fun hno d hd => hno d (mem_highestClass.1 hd).1 (cls_eq_of_mem_highestClass hd htop)⟩⟩ }⟩

end Sys2Proof.Machine

end

section

/-!
PROOFS. Eligibility in the words of the claims (R75 to R79, R98): what work touches, what holds it back, and the candidates it makes.
-/

namespace Sys2Proof.Machine

open Sys2Proof.Safety

/-! ## What work touches (R75) -/

/-- A sector of an extent, or of the label's place, is among those of a touch. -/
def Touch.covers (t : Touch) (place : Option Slot) (m : Nat) : Prop := place = t.slot ∧ t.lo ≤ m ∧ m < t.hi

/-- Two touches overlap by a sector in common, which at least one writes. -/
theorem overlaps_iff (t u : Touch) :
    t.overlaps u = true ↔ (t.writes = true ∨ u.writes = true) ∧ ∃ place m, t.covers place m ∧ u.covers place m := by
  simp only [Touch.overlaps, Bool.and_eq_true, Bool.or_eq_true, decide_eq_true_eq]
  constructor
  · rintro ⟨⟨hslot, h1, h2, h3, h4⟩, hw⟩
    exact ⟨hw, t.slot, max t.lo u.lo, ⟨rfl, by omega, by omega⟩, ⟨hslot, by omega, by omega⟩⟩
  · rintro ⟨hw, place, m, ⟨hp, h1, h2⟩, hq, h3, h4⟩
    exact ⟨⟨hp.symm.trans hq, by omega, by omega, by omega, by omega⟩, hw⟩

theorem entryTouches_iff (s : State) (e : Entry) (place : Option Slot) (m : Nat) :
    entryTouches s e place m ↔ ∃ t, s.entryTouch e = some t ∧ t.covers place m := by
  unfold entryTouches State.entryTouch
  cases e.kind <;> cases e.slot <;> simp [Touch.covers]

theorem entryTouch_writes {s : State} {e : Entry} {t : Touch} (h : s.entryTouch e = some t) : t.writes = true ↔ e.kind ≠ .read := by
  unfold State.entryTouch at h
  split at h
  · next hk _ =>
    cases h
    simp [hk]
  · next hk _ =>
    cases h
    simp [hk]
  · next hk _ =>
    cases h
    simp [hk]
  · next hk =>
    cases h
    simp [hk]
  · cases h

theorem postedTouches_iff (s : State) (p : Posted) (place : Option Slot) (m : Nat) :
    postedTouches s p place m ↔ (s.postedTouch p).covers place m := by
  unfold postedTouches State.postedTouch
  cases p.kind <;> rfl

theorem postedTouch_writes (s : State) (p : Posted) : (s.postedTouch p).writes = true := by
  unfold State.postedTouch
  cases p.kind <;> rfl

/-! ## What holds work back (R77, R78) -/

/-- Older unfinished work overlaps a touch exactly when it holds back work that touches so. -/
theorem olderOverlap_iff (s : State) (n : Nat) (t : Touch) : s.olderOverlap n t = true ↔ HeldBack s n (t.writes = true) t.covers := by
  have hentry : ∀ e : Entry, ((match s.entryTouch e with | some u => t.overlaps u | none => false) = true)
      ↔ (t.writes = true ∨ e.kind ≠ .read) ∧ ∃ place m, t.covers place m ∧ entryTouches s e place m := by
    intro e
    simp only [entryTouches_iff]
    cases htouch : s.entryTouch e with
    | none => simp
    | some u => simp [overlaps_iff, entryTouch_writes htouch]
  have hposted : ∀ p : Posted, t.overlaps (s.postedTouch p) = true ↔ ∃ place m, t.covers place m ∧ postedTouches s p place m := by
    intro p
    simp [overlaps_iff, postedTouches_iff, postedTouch_writes]
  simp only [State.olderOverlap, HeldBack, Bool.or_eq_true, List.any_eq_true, Bool.and_eq_true, decide_eq_true_eq, and_assoc, hposted]
  exact or_congr (exists_congr fun e => and_congr_right fun _ => and_congr_right fun _ => and_congr_right fun _ => hentry e) Iff.rfl

theorem olderAppend_iff (s : State) (n : Nat) (k : Slot) : s.olderAppend n k = true ↔ AppendBefore s n k := by
  simp [State.olderAppend, AppendBefore, and_assoc]

/-- What an entry is held back by, by its own touch; an entry that touches nothing is not held back. -/
theorem heldBack_entry_iff (s : State) (e : Entry) :
    HeldBack s e.order (e.kind ≠ .read) (entryTouches s e) ↔ ∃ t, s.entryTouch e = some t ∧ s.olderOverlap e.order t = true := by
  have htouches : entryTouches s e = fun place m => ∃ t, s.entryTouch e = some t ∧ t.covers place m :=
    funext₂ fun place m => propext (entryTouches_iff s e place m)
  cases htouch : s.entryTouch e with
  | none => simp [HeldBack, htouches, htouch]
  | some t =>
    have hcovers : entryTouches s e = t.covers := by simp [htouches, htouch]
    rw [hcovers, ← entryTouch_writes htouch]
    simp [olderOverlap_iff]

theorem heldBack_posted_iff (s : State) (p : Posted) :
    HeldBack s p.order True (postedTouches s p) ↔ s.olderOverlap p.order (s.postedTouch p) = true := by
  have hcovers : postedTouches s p = (s.postedTouch p).covers := funext₂ fun place m => propext (postedTouches_iff s p place m)
  rw [olderOverlap_iff, hcovers, postedTouch_writes, eq_self_iff_true]

theorem notHeldBack_iff (s : State) (e : Entry) :
    s.notHeldBack e = true ↔ ¬ HeldBack s e.order (e.kind ≠ .read) (entryTouches s e)
      ∧ ∀ k, e.kind = .append → e.slot = some k → ¬ AppendBefore s e.order k := by
  have hoverlap : ((match s.entryTouch e with | some t => !s.olderOverlap e.order t | none => true) = true)
      ↔ ¬ HeldBack s e.order (e.kind ≠ .read) (entryTouches s e) := by
    rw [heldBack_entry_iff]
    cases s.entryTouch e <;> simp
  have happend : ((match e.kind, e.slot with | .append, some k => !s.olderAppend e.order k | _, _ => true) = true)
      ↔ ∀ k, e.kind = .append → e.slot = some k → ¬ AppendBefore s e.order k := by
    simp only [← olderAppend_iff]
    cases e.kind <;> cases e.slot <;> simp
  rw [← hoverlap, ← happend]
  exact Bool.and_eq_true_iff

/-! ## The moment (R76, R79, R98) -/

theorem volumeUsable_iff (s : State) : s.volumeUsable = true ↔ s.volume.state = .mounted ∨ s.volume.state = .draining := by
  simp [State.volumeUsable]

theorem writeHold_eq_false (s : State) : s.writeHold = false ↔ s.powerPeriod = none := by simp [State.writeHold]

theorem nextSector_eq {s : State} {e : Entry} (h : e.kind ≠ .append) : s.nextSector e = e.first + e.done := by
  unfold State.nextSector
  split
  · next hk _ => exact absurd hk h
  · rfl

/-- The fill mark is where an APPEND goes on. -/
theorem nextSector_append {s : State} {e : Entry} (h : e.kind = .append) :
    s.nextSector e = (e.slot.map s.fillMark).getD (e.first + e.done) := by
  unfold State.nextSector
  rw [h]
  cases e.slot <;> rfl

theorem quotaCovers_iff {s : State} {e : Entry} (h : e.kind = .read) : s.quotaCovers e = true ↔ RoomFor s e := by
  rw [State.quotaCovers, decide_eq_true_eq, nextSector_eq (by rw [h]; decide), State.unused, holding_eq_heldBuffers]
  rfl

theorem mayRunNow_iff (s : State) (e : Entry) :
    s.mayRunNow e = true ↔ (e.kind = .read → RoomFor s e) ∧ (e.kind ≠ .read → s.powerPeriod = none) ∧ e.kind ≠ .flush := by
  unfold State.mayRunNow
  cases hk : e.kind with
  | read => simp [quotaCovers_iff hk]
  | write | append | mapStore => simp [writeHold_eq_false]
  | flush => simp

/-! ## Eligibility (R76) -/

theorem entryEligible_iff (s : State) (e : Entry) : s.entryEligible e = true ↔
    (e.state = .queued ∨ e.state = .parked) ∧ (s.volume.state = .mounted ∨ s.volume.state = .draining)
      ∧ ¬ HeldBack s e.order (e.kind ≠ .read) (entryTouches s e)
      ∧ (∀ k, e.kind = .append → e.slot = some k → ¬ AppendBefore s e.order k)
      ∧ (e.kind = .read → RoomFor s e) ∧ (e.kind ≠ .read → s.powerPeriod = none) ∧ e.kind ≠ .flush := by
  simp only [State.entryEligible, Bool.and_eq_true, Bool.or_eq_true, beq_iff_eq, volumeUsable_iff, notHeldBack_iff, mayRunNow_iff,
    and_assoc]

theorem postedEligible_iff (s : State) (p : Posted) : s.postedEligible p = true ↔
    p.committing = false ∧ (s.volume.state = .mounted ∨ s.volume.state = .draining)
      ∧ ¬ HeldBack s p.order True (postedTouches s p) ∧ (p.kind = .append → ¬ AppendBefore s p.order p.slot)
      ∧ s.powerPeriod = none := by
  have happend : (p.kind != .append || !s.olderAppend p.order p.slot) = true ↔ (p.kind = .append → ¬ AppendBefore s p.order p.slot) := by
    rw [← olderAppend_iff]
    cases p.kind <;> simp
  simp only [State.postedEligible, Bool.and_eq_true, happend, volumeUsable_iff, Bool.not_eq_true', writeHold_eq_false,
    heldBack_posted_iff, Bool.not_eq_true, and_assoc]

/-! ## The candidates (R72, R81) -/

theorem entryCandidate_eq (s : State) (e : Entry) :
    entryCandidate s e = { owner := .entry e.order, cls := e.cls.getD .bulk, cylinder := s.entryCylinder e, order := e.order } := by
  unfold entryCandidate State.entryCylinder
  cases hk : e.kind with
  | append => rw [nextSector_append hk]; rfl
  | read | write | flush => rw [nextSector_eq (by rw [hk]; decide)]; rfl
  | mapStore => rfl

theorem postedCandidate_eq (s : State) (p : Posted) :
    postedCandidate s p = { owner := .posted p.order, cls := p.cls, cylinder := s.postedCylinder p, order := p.order } := by
  unfold postedCandidate State.postedCylinder State.postedNext
  cases p.kind <;> rfl

theorem mem_candidates (s : State) (c : Candidate) : c ∈ s.candidates ↔
    (∃ e ∈ s.work, s.entryEligible e = true ∧ c = entryCandidate s e)
      ∨ ∃ p ∈ s.posted, s.postedEligible p = true ∧ c = postedCandidate s p := by
  simp only [State.candidates, List.mem_append, List.mem_map, List.mem_filter, entryCandidate_eq, postedCandidate_eq, and_assoc,
    eq_comm (a := c)]

/-! ## A write hold (R79) -/

theorem read_of_eligible_in_hold {s : State} (h : s.powerPeriod.isSome) {e : Entry} (he : s.entryEligible e = true) : e.kind = .read := by
  obtain ⟨-, -, -, -, -, hperiod, -⟩ := (entryEligible_iff s e).1 he
  by_contra hk
  rw [hperiod hk] at h
  cases h

theorem not_postedEligible_in_hold {s : State} (h : s.powerPeriod.isSome) (p : Posted) : s.postedEligible p = false := by
  refine Bool.eq_false_iff.2 fun hp => ?_
  obtain ⟨-, -, -, -, hperiod⟩ := (postedEligible_iff s p).1 hp
  rw [hperiod] at h
  cases h

end Sys2Proof.Machine

end

section

/-!
PROOFS. Freed room (R98): with a started READ's reservation still short after it has been given out, nothing of the channel's quota is
unused.
-/

namespace Sys2Proof.Machine

open Sys2Proof.Safety

/-! ## A channel's holding as one entry's reservation grows (R96) -/

/-- What the entries of a list hold for a channel (R96). -/
def workHolding (ch : Channel) (l : List Entry) : Nat := ((l.filter (fun e => e.channel = ch)).map Entry.holding).sum

theorem holding_eq_workHolding (ch : Channel) (s : State) : s.holding ch =
    (s.port ch).holding + workHolding ch s.work + ((s.posted.filter (fun p => p.channel = ch)).map (fun p => p.buffers.length)).sum := rfl

theorem workHolding_cons (ch : Channel) (e : Entry) (l : List Entry) :
    workHolding ch (e :: l) = (if e.channel = ch then e.holding else 0) + workHolding ch l := by
  by_cases h : e.channel = ch <;> simp [workHolding, h]

/-- One entry of a list replaced by one of its channel that holds more. -/
theorem workHolding_replaced {l : List Entry} (hn : (l.map (fun e => e.order)).Nodup) {e y : Entry} {d : Nat} (he : e ∈ l)
    (hch : y.channel = e.channel) (hhold : y.holding = e.holding + d) (ch : Channel) :
    workHolding ch (l.map (fun x => if x.order = e.order then y else x)) = workHolding ch l + if e.channel = ch then d else 0 := by
  induction l with
  | nil => cases he
  | cons x l ih =>
    obtain ⟨hx, hl⟩ := List.nodup_cons.1 (show (x.order :: l.map (fun e => e.order)).Nodup from hn)
    simp only [List.map_cons, workHolding_cons]
    rcases List.mem_cons.1 he with rfl | hmem
    · have hsame : l.map (fun x => if x.order = e.order then y else x) = l :=
        (List.map_congr_left (fun z hz => if_neg fun h => hx (List.mem_map.2 ⟨z, hz, h⟩))).trans (List.map_id' l)
      rw [hsame, if_pos rfl, hch, hhold]
      split <;> omega
    · have hne : x.order ≠ e.order := fun h => hx (h ▸ List.mem_map_of_mem hmem)
      rw [ih hl hmem, if_neg hne]
      omega

theorem holding_reserved {s : State} (ho : OrdersLawful s) {e : Entry} (he : e ∈ s.work) (d : Nat) (ch : Channel) :
    (withEntry { e with reserved := e.reserved + d } s).holding ch = s.holding ch + if e.channel = ch then d else 0 := by
  have hwork := workHolding_replaced (work_orders_nodup ho) (y := { e with reserved := e.reserved + d }) (d := d) he rfl
    (by simp only [Entry.holding]; omega) ch
  rw [holding_eq_workHolding, holding_eq_workHolding]
  simp only [withEntry] at *
  rw [hwork]
  simp only [State.port]
  omega

/-! ## One reservation topped up -/

/-- A READ's reservation is short of its goal (R98). -/
def Entry.short (e : Entry) : Prop := e.kind = .read ∧ e.reserved < e.reservationGoal

/-- If the entry of an order is a channel's READ with a short reservation, nothing of the channel's quota is unused. -/
def FilledAt (ch : Channel) (n : Nat) (s : State) : Prop := ∀ x, s.entry n = some x → x.channel = ch → x.short → s.unused ch = 0

theorem topUpOne_of_not_short {ch : Channel} {s : State} {e : Entry} (h : ¬ (e.channel = ch ∧ e.short)) : topUpOne ch s e = s := if_neg h

theorem topUpOne_of_short {s : State} (ho : OrdersLawful s) {e : Entry} (he : e ∈ s.work) {ch : Channel} (hch : e.channel = ch)
    (h : e.short) : topUpOne ch s e
      = withEntry { e with reserved := e.reserved + min (e.reservationGoal - e.reserved) (s.unused ch) } s :=
  (if_pos ⟨hch, h⟩).trans (updEntry_of_mem ho he rfl)

theorem topUpOne_of_full {ch : Channel} {s : State} (h : s.unused ch = 0) (e : Entry) : topUpOne ch s e = s := by
  unfold topUpOne updEntry
  rw [h]
  simp

theorem sameBut_topUpOne (ch : Channel) (s : State) (e : Entry) : SameButReservations s (topUpOne ch s e) := by
  obtain ⟨w, h, hw⟩ := topUpOne_work ch s e
  rw [h]
  exact ⟨rfl, hw⟩

theorem mem_topUpOne_of_ne {ch : Channel} {s : State} {e x : Entry} (hx : x ∈ s.work) (h : x.order ≠ e.order) :
    x ∈ (topUpOne ch s e).work := by
  unfold topUpOne
  split
  · exact List.mem_map.2 ⟨x, hx, if_neg h⟩
  · exact hx

/-- The topping up of an entry's own reservation: it is short no more, or has taken all that was unused. -/
theorem topUpOne_filledAt {s : State} (ho : OrdersLawful s) {e : Entry} (he : e ∈ s.work) (ch : Channel) :
    FilledAt ch e.order (topUpOne ch s e) := by
  intro x hx hch hshort
  by_cases h : e.channel = ch ∧ e.short
  · obtain ⟨hech, heshort⟩ := h
    rw [topUpOne_of_short ho he hech heshort] at hx ⊢
    have hy := entry_of_mem (withEntry_ordersLawful ho _)
      (mem_withEntry (y := { e with reserved := e.reserved + min (e.reservationGoal - e.reserved) (s.unused ch) }) he rfl)
    obtain rfl := Option.some.inj (hx.symm.trans hy)
    have hhold := holding_reserved ho he (min (e.reservationGoal - e.reserved) (s.unused ch)) ch
    rw [if_pos hech] at hhold
    have hlt : e.reserved + min (e.reservationGoal - e.reserved) (s.unused ch) < e.reservationGoal := hshort.2
    unfold State.unused at *
    rw [hhold]
    simp only [withEntry]
    omega
  · rw [topUpOne_of_not_short h] at hx
    obtain rfl := Option.some.inj (hx.symm.trans (entry_of_mem ho he))
    exact absurd ⟨hch, hshort⟩ h

/-- The topping up of another channel's reservation takes nothing of this one's quota. -/
theorem topUpOne_unused_ne {s : State} (ho : OrdersLawful s) {e : Entry} (he : e ∈ s.work) {ch ch' : Channel} (hne : ch' ≠ ch) :
    (topUpOne ch' s e).unused ch = s.unused ch := by
  by_cases h : e.channel = ch' ∧ e.short
  · obtain ⟨hech, heshort⟩ := h
    rw [topUpOne_of_short ho he hech heshort]
    have hhold := holding_reserved ho he (min (e.reservationGoal - e.reserved) (s.unused ch')) ch
    rw [if_neg (hech ▸ hne), Nat.add_zero] at hhold
    unfold State.unused at *
    rw [hhold]
    rfl
  · rw [topUpOne_of_not_short h]

/-- The topping up of any reservation keeps what is filled. -/
theorem topUpOne_keeps_filledAt {s : State} (ho : OrdersLawful s) {e : Entry} (he : e ∈ s.work) (ch' : Channel) {ch : Channel} {n : Nat}
    (h : FilledAt ch n s) : FilledAt ch n (topUpOne ch' s e) := by
  by_cases hch : ch' = ch
  · subst hch
    by_cases hn : e.order = n
    · exact hn ▸ topUpOne_filledAt ho he ch'
    · intro x hx hxch hshort
      rw [topUpOne_entry_ne hn] at hx
      have hfull := h x hx hxch hshort
      rwa [topUpOne_of_full hfull]
  · intro x hx hxch hshort
    rw [topUpOne_unused_ne ho he hch]
    by_cases hn : e.order = n
    · subst hn
      obtain ⟨r, hr⟩ := sameBut_entry (sameBut_topUpOne ch' s e) (entry_of_mem ho he)
      obtain rfl := Option.some.inj (hr.symm.trans hx)
      have hown : ¬ (e.channel = ch' ∧ e.short) := fun ⟨hech, _⟩ => hch (hech.symm.trans hxch)
      rw [topUpOne_of_not_short hown] at hx
      exact h _ hx hxch hshort
    · rw [topUpOne_entry_ne hn] at hx
      exact h x hx hxch hshort

/-! ## Room given out to a list of entries -/

section Fold

variable {l : List Entry} {s : State}

theorem topUpOne_mem_tail {e : Entry} (hn : ((e :: l).map (fun x => x.order)).Nodup) (hmem : ∀ x ∈ e :: l, x ∈ s.work) (ch : Channel) :
    ∀ x ∈ l, x ∈ (topUpOne ch s e).work := fun x hx =>
  mem_topUpOne_of_ne (hmem x (List.mem_cons_of_mem _ hx))
    fun h => (List.nodup_cons.1 hn).1 (List.mem_map.2 ⟨x, hx, h⟩)

theorem foldl_topUpOne_keeps_filledAt (hn : (l.map (fun x => x.order)).Nodup) (ho : OrdersLawful s) (hmem : ∀ e ∈ l, e ∈ s.work)
    (ch' : Channel) {ch : Channel} {n : Nat} (h : FilledAt ch n s) : FilledAt ch n (l.foldl (topUpOne ch') s) := by
  induction l generalizing s with
  | nil => exact h
  | cons e l ih =>
    exact ih (List.nodup_cons.1 hn).2 (sameBut_ordersLawful (sameBut_topUpOne ch' s e) ho) (topUpOne_mem_tail hn hmem ch')
      (topUpOne_keeps_filledAt ho (hmem e (List.mem_cons_self ..)) ch' h)

theorem foldl_topUpOne_filledAt (hn : (l.map (fun x => x.order)).Nodup) (ho : OrdersLawful s) (hmem : ∀ e ∈ l, e ∈ s.work)
    (ch : Channel) : ∀ e ∈ l, FilledAt ch e.order (l.foldl (topUpOne ch) s) := by
  induction l generalizing s with
  | nil => exact fun e he => nomatch he
  | cons x l ih =>
    have ho' := sameBut_ordersLawful (sameBut_topUpOne ch s x) ho
    have hn' := (List.nodup_cons.1 hn).2
    have hmem' := topUpOne_mem_tail hn hmem ch
    exact List.forall_mem_cons.2
      ⟨foldl_topUpOne_keeps_filledAt hn' ho' hmem' ch (topUpOne_filledAt ho (hmem x (List.mem_cons_self ..)) ch), ih hn' ho' hmem'⟩

end Fold

theorem sameBut_topUp (ch : Channel) (s : State) : SameButReservations s (topUp ch s) := by
  obtain ⟨w, h, hw⟩ := topUp_work ch s
  rw [h]
  exact ⟨rfl, hw⟩

theorem topUp_filledAt {s : State} (ho : OrdersLawful s) (ch : Channel) : ∀ e ∈ s.work, FilledAt ch e.order (topUp ch s) :=
  foldl_topUpOne_filledAt (work_orders_nodup ho) ho (fun _ h => h) ch

theorem topUp_keeps_filledAt {s : State} (ho : OrdersLawful s) (ch' : Channel) {ch : Channel} {n : Nat} (h : FilledAt ch n s) :
    FilledAt ch n (topUp ch' s) :=
  foldl_topUpOne_keeps_filledAt (work_orders_nodup ho) ho (fun _ h => h) ch' h

/-- An entry that stands after room was given out stood before, but for its reservation. -/
theorem order_mem_of_sameBut {s t : State} (h : SameButReservations s t) {e : Entry} (he : e ∈ t.work) :
    ∃ x ∈ s.work, x.order = e.order := by
  have horders := orders_of_bare h.2
  exact List.mem_map.1 (horders ▸ List.mem_map_of_mem he)

theorem topUpBoth_filledAt {s : State} (ho : OrdersLawful s) (ch : Channel) : ∀ e ∈ (topUpBoth s).work, FilledAt ch e.order (topUpBoth s) := by
  intro e he
  have hoA := sameBut_ordersLawful (sameBut_topUp .A s) ho
  cases ch with
  | A =>
    obtain ⟨x, hx, hord⟩ := order_mem_of_sameBut (sameButReservations_topUpBoth s) he
    exact hord ▸ topUp_keeps_filledAt hoA .B (topUp_filledAt ho .A x hx)
  | B =>
    obtain ⟨x, hx, hord⟩ := order_mem_of_sameBut (sameBut_topUp .B (topUp .A s)) he
    exact hord ▸ topUp_filledAt hoA .B x hx

/-- With a READ of a channel still short of its goal, the channel holds its whole quota (R98). -/
theorem quota_le_of_short {s : State} (ho : OrdersLawful s) {ch : Channel} {e : Entry} (he : e ∈ (topUpBoth s).work)
    (hch : e.channel = ch) (h : e.short) : s.settings.quota ch ≤ heldBuffers ch (topUpBoth s) := by
  have hsame := sameButReservations_topUpBoth s
  have hfound := entry_of_mem (sameBut_ordersLawful hsame ho) he
  have hfull : (topUpBoth s).unused ch = 0 := topUpBoth_filledAt ho ch e he e hfound hch h
  have hsettings : (topUpBoth s).settings = s.settings := by rw [hsame.1]
  rw [State.unused, holding_eq_heldBuffers, hsettings] at hfull
  omega

end Sys2Proof.Machine

namespace Sys2Proof.Proofs

open Sys2Proof.Machine Sys2Proof.Safety

/-- Settles O37: the choice by class and then by the elevator, eligibility condition by condition, and room given out entry by entry. -/
theorem arbiterChoosesAndWriteHoldHolds : Obligations.ArbiterChoosesAndWriteHoldHolds := by
  refine ⟨?choice, ?hold, entryEligible_iff, postedEligible_iff, mem_candidates, ?room⟩
  case choice =>
    intro dir arm cs hne lies
    obtain ⟨c, dir', hchoose, hc⟩ := choose_chosen dir arm hne
    exact ⟨c, dir', hchoose, hc.mem, hc.highest, hc.urgent, hc.other⟩
  case hold => exact fun s hs => ⟨fun e _ he => read_of_eligible_in_hold hs he, fun p _ => not_postedEligible_in_hold hs p⟩
  case room => exact fun s ch ho => ⟨sameButReservations_topUpBoth s, fun ⟨_, he, hch, hshort⟩ => quota_le_of_short ho he hch hshort⟩

end Sys2Proof.Proofs

end

section

/-!
PROOFS. The end of a sector of a READ's run (R84, R90, R98, R124, R158): the tests of its run boundary, and what a sector's end leads to.
-/

namespace Sys2Proof.Machine

open Sys2Proof.Safety

/-! ## An entry that ends with a reply -/

/-- An entry of the list that ends with a reply has ended, whether or not a drain ends with it. -/
theorem settle_endEntry_ended {u : State} (ho : OrdersLawful u) (hl : RepliesLawful u) {y : Entry} (hy : y ∈ u.work) {code : Code}
    (hs : y.leavesSilently code = false) : Ended y code (settle (endEntry y.order code u)) := by
  have hself := endEntry_entry_self (entry_of_mem ho hy) hs
  have hn := List.nodup_append.1 ho.1
  refine settle_ended (hn.1.sublist (endEntry_orders y.order code u)) ?_ (dueOwn_endEntry hl y.order code) hself rfl rfl rfl rfl
  rw [endEntry_posted]
  exact hn.2.1

/-! ## The tests of a READ's run boundary (R84, R98) -/

/-- What stands when a READ's run is over: the laws, and the entry in the list. -/
structure ReadOver (y : Entry) (u : State) : Prop where
  orders : OrdersLawful u
  replies : RepliesLawful u
  mem : y ∈ u.work
  kind : y.kind = .read

section ReadOver

variable {u : State} {y : Entry} (h : ReadOver y u)

include h

theorem ReadOver.topped : ∃ r, (topUpBoth u).entry y.order = some { y with reserved := r } :=
  sameBut_entry (sameButReservations_topUpBoth u) (entry_of_mem h.orders h.mem)

/-- A READ does not write, so only an expired drain timer stops it at its boundary. -/
theorem readBoundary_drained (stop : Option Stop) (hx : u.volume.drainExpired = true) :
    boundaryEntry stop y.order (topUpBoth u) = park (.entry y.order) false (topUpBoth u) := by
  obtain ⟨r, hr⟩ := h.topped
  have hvol : (topUpBoth u).volume = u.volume := by rw [(sameButReservations_topUpBoth u).1]
  unfold boundaryEntry
  rw [hr]
  dsimp only
  rw [hvol, if_neg (fun hw => hw.1 h.kind), if_pos (.inr hx)]

/-- The room that the entry's next run needs, in the words of the boundary's third test. -/
theorem ReadOver.room_iff {r : Nat} (hr : (topUpBoth u).entry y.order = some { y with reserved := r }) :
    (topUpBoth u).quotaCovers { y with reserved := r } = true ↔
      ∀ x ∈ (topUpBoth u).work, x.order = y.order → RoomFor (topUpBoth u) x := by
  rw [quotaCovers_iff (e := { y with reserved := r }) h.kind]
  have ho := sameBut_ordersLawful (sameButReservations_topUpBoth u) h.orders
  refine ⟨fun hroom x hx hxo => ?_, fun hall => hall _ (mem_of_entry hr) rfl⟩
  have hfound := entry_of_mem ho hx
  rw [hxo, hr] at hfound
  exact Option.some.inj hfound ▸ hroom

/-- A READ's boundary without an expired drain timer: its second and third test, by whether room covers its next run. -/
theorem readBoundary_open (stop : Option Stop) (hv : u.volume.state = .mounted) (hx : u.volume.drainExpired = false) {r : Nat}
    (hr : (topUpBoth u).entry y.order = some { y with reserved := r }) :
    boundaryEntry stop y.order (topUpBoth u) =
      if ((u.settings.row (y.cls.getD .bulk)).yields && (topUpBoth u).higherWaits (y.cls.getD .bulk)) = true then
        park (.entry y.order) false (topUpBoth u)
      else if (topUpBoth u).quotaCovers { y with reserved := r } = true then grantEntry y.order (topUpBoth u)
      else park (.entry y.order) false (topUpBoth u) := by
  have hsame := sameButReservations_topUpBoth u
  have hvol : (topUpBoth u).volume = u.volume := by rw [hsame.1]
  have hset : (topUpBoth u).settings = u.settings := by rw [hsame.1]
  have husable : (topUpBoth u).volumeUsable = true := (volumeUsable_iff _).2 (.inl (by rw [hvol, hv]))
  have hruns : (topUpBoth u).mayRunNow { y with reserved := r } = (topUpBoth u).quotaCovers { y with reserved := r } := by
    simp only [State.mayRunNow, h.kind]
  unfold boundaryEntry
  rw [hr]
  dsimp only
  rw [hvol, hx, hset, if_neg (fun hw => hw.1 h.kind), if_neg (fun hs => hs.elim (fun hw => hw.1 h.kind) (by simp)), husable, hruns, Bool.true_and]

/-- A READ's boundary with no stop waiting: the tests of R84, and the grant of its next run. -/
theorem atBoundary_read (hv : u.volume.state = .mounted) (hx : u.volume.drainExpired = false) (stop : Option Stop) :
    AtBoundary y u (settle (boundaryEntry stop y.order (topUpBoth u))) := by
  have hsame := sameButReservations_topUpBoth u
  obtain ⟨r, hr⟩ := h.topped
  have hk := h.kind
  have hopen := readBoundary_open h stop hv hx hr
  have hroom := h.room_iff hr
  have hyields : ((u.settings.row (y.cls.getD .bulk)).yields && (topUpBoth u).higherWaits (y.cls.getD .bulk)) = true ↔
      (u.settings.row (y.cls.getD .bulk)).yields = true ∧ ∃ c ∈ (topUpBoth u).candidates, c.cls.code < (y.cls.getD .bulk).code := by
    simp [State.higherWaits]
  refine ⟨fun hp => absurd hk hp.1, fun _ hor => ?parks, fun hgo _ => ?goesOn, fun k _ hwrite => ?_, fun k f _ happ => ?_⟩
  case parks =>
    have hparks : boundaryEntry stop y.order (topUpBoth u) = park (.entry y.order) false (topUpBoth u) := by
      rw [hopen]
      split
      · rfl
      · next hny =>
        refine if_neg fun hcovers => hor.elim (fun hy => hny (hyields.2 hy)) fun hn => ?_
        exact hn ⟨fun _ => hroom.1 hcovers, fun hw => absurd hk hw⟩
    rw [hparks]
    exact settle_parked h.replies hv y.order
  case goesOn =>
    obtain ⟨-, hny, hcovers, -⟩ := hgo
    have hgrant := grantEntry_read (s := topUpBoth u) (e := { y with reserved := r }) hr hk
    have hseq : (topUpBoth u).seq = u.seq := by rw [hsame.1]
    rw [hseq] at hgrant
    rw [hopen, if_neg (fun hb => hny (hyields.1 hb)), if_pos (hroom.2 (hcovers hk))]
    have hupd := sameBut_updEntry hsame y.order
      (f := fun x => { x with state := .active, deadline := none, allocated := runLength (y.first + y.done) y.remaining
                              run := some (y.first + y.done, runLength (y.first + y.done) y.remaining) })
      (g := fun x => { x with state := .active, deadline := none, allocated := runLength (y.first + y.done) y.remaining
                              run := some (y.first + y.done, runLength (y.first + y.done) y.remaining) })
      (fun _ _ => rfl)
    exact settle_of_sameBut (sameBut_trans (sameBut_withSeq hupd _) hgrant) h.replies hv
  · rw [hk] at hwrite
    cases hwrite
  · rw [hk] at happ
    cases happ

end ReadOver

/-! ## What a sector's end leads to -/

section SectorEnd

variable {s : State} (ho : OrdersLawful s) (hl : RepliesLawful s) {e y : Entry} (he : e ∈ s.work) (hy : y.order = e.order)
  (hk : y.kind = .read) {a : Access} (hown : a.owner = .entry e.order)

include ho hl he hy hk in
theorem readOver_withEntry (n : Nat) : ReadOver (y.credited n) (withEntry (y.credited n) (endAccess s)) :=
  ⟨withEntry_ordersLawful (s := endAccess s) ho _, repliesLawful_congr hl (fun _ => ⟨rfl, rfl⟩),
    mem_withEntry (s := endAccess s) he hy, hk⟩

include hl in
/-- Within the run the next sector is sought (R123, R124). -/
theorem readEnds_next (hend : a.sector + 1 < a.runEnd) (hv : s.volume.state = .mounted) (hstop : a.stops = [])
    (hx : s.volume.drainExpired = false) (ha : s.seq.access = some a) :
    SameButReservations { withEntry y s with seq := retried (turned a (a.sector + 1)) s.seq } (settle (sectorEnds a (withEntry y s))) := by
  rw [sectorEnds_mid hend, midRun_turn (s := withEntry y s) (nextStop_none hstop) hx ha]
  exact settle_of_sameBut (sameBut_refl _) (repliesLawful_congr hl (fun _ => ⟨rfl, rfl⟩)) hv

include ho hl he hy hk hown in
/-- At the run's last sector with sectors remaining: a run boundary. -/
theorem readEnds_atBoundary (hend : a.sector + 1 = a.runEnd) (hmore : y.done + a.done < y.count) (hv : s.volume.state = .mounted)
    (hx : s.volume.drainExpired = false) :
    AtBoundary (y.credited a.done) (withEntry (y.credited a.done) (endAccess s)) (settle (sectorEnds a (withEntry y s))) := by
  rw [sectorEnds_runEnd hend, runEnds_more ho he hy hown hmore]
  exact atBoundary_read (readOver_withEntry ho hl he hy hk a.done) hv hx _

include ho he hy hown in
/-- At the request's last sector the entry ends with its own outcome (R90). -/
theorem readEnds_last (hend : a.sector + 1 = a.runEnd) (hlast : y.done + a.done = y.count) :
    sectorEnds a (withEntry y s) =
      endEntry (y.credited a.done).order y.normalOutcome (withEntry (y.credited a.done) (endAccess s)) := by
  rw [sectorEnds_runEnd hend, credited_order, hy]
  exact runEnds_entry_last ho he hy hown hlast

include ho hl he hy hk hown in
theorem readEnds_last_mounted (hend : a.sector + 1 = a.runEnd) (hlast : y.done + a.done = y.count) (hv : s.volume.state = .mounted) :
    SameButReservations (entryEnded (y.credited a.done) y.normalOutcome (withEntry (y.credited a.done) (endAccess s)))
      (settle (sectorEnds a (withEntry y s))) := by
  have h := readOver_withEntry ho hl he hy hk a.done
  rw [readEnds_last ho he hy hown hend hlast]
  exact settle_endEntry_of_sameBut (sameBut_refl _) h.orders h.replies hv h.mem _

include ho hl he hy hk hown in
theorem readEnds_last_ended (hend : a.sector + 1 = a.runEnd) (hlast : y.done + a.done = y.count) (hd : y.discard = false)
    (hq : y.flags.quiet = false) : Ended (y.credited a.done) y.normalOutcome (settle (sectorEnds a (withEntry y s))) := by
  have h := readOver_withEntry ho hl he hy hk a.done
  rw [readEnds_last ho he hy hown hend hlast]
  exact settle_endEntry_ended h.orders h.replies h.mem (by simp [Entry.leavesSilently, Entry.credited, hd, hq])

include ho hl he hy hk hown in
/-- Under an expired drain timer the run stops at the sector's end with sectors remaining, and the drain ends (R158). -/
theorem readEnds_drained (hmore : a.sector + 1 < a.runEnd ∨ (a.sector + 1 = a.runEnd ∧ y.done + a.done < y.count))
    (hstop : a.stops = []) (hv : s.volume.state = .draining) (hx : s.volume.drainExpired = true) :
    DrainEnded (withEntry (y.credited a.done) (endAccess s)) (settle (sectorEnds a (withEntry y s))) := by
  have h := readOver_withEntry ho hl he hy hk a.done
  rcases hmore with hmid | ⟨hend, hleft⟩
  · rw [sectorEnds_mid hmid, midRun_drain hstop (s := withEntry y s) hx, stopRun_withEntry hy hown]
    exact drainEnded_park (u := withEntry (y.credited a.done) (endAccess s)) (sameBut_refl _) rfl hv hx h.orders h.replies _ _
  · rw [sectorEnds_runEnd hend, runEnds_more ho he hy hown hleft, readBoundary_drained h _ hx]
    exact drainEnded_park (u := withEntry (y.credited a.done) (endAccess s)) (sameButReservations_topUpBoth _) rfl hv hx h.orders
      h.replies _ _

end SectorEnd

end Sys2Proof.Machine

end

section

/-!
PROOFS. DATA_READ_COMPLETE of a READ's run (R90, R124, R125, R126, R135): what a good field and a failed sector give the entry.
-/

namespace Sys2Proof.Machine

open Sys2Proof.Safety

/-! ## The outcome of a READ (R90) -/

/-- A condition is reported of some sector. -/
def Reported (c : Condition) (cs : List (Nat × Condition)) : Prop := ∃ i, (i, c) ∈ cs

theorem any_reported (c : Condition) (cs : List (Nat × Condition)) : (cs.any (fun x => x.2 = c)) = true ↔ Reported c cs := by
  simp [Reported]

theorem readOutcome_mediumError {cs : List (Nat × Condition)} (h : Reported .mediumError cs) : readOutcome cs = .mediumError :=
  if_pos ((any_reported _ _).2 h)

theorem readOutcome_checkMismatch {cs : List (Nat × Condition)} (hm : ¬ Reported .mediumError cs) (h : Reported .checkMismatch cs) :
    readOutcome cs = .checkMismatch := by
  rw [readOutcome, if_neg (mt (any_reported _ _).1 hm), if_pos ((any_reported _ _).2 h)]

theorem readOutcome_void {cs : List (Nat × Condition)} (hm : ¬ Reported .mediumError cs) (hc : ¬ Reported .checkMismatch cs)
    (h : Reported .void cs) : readOutcome cs = .void := by
  rw [readOutcome, if_neg (mt (any_reported _ _).1 hm), if_neg (mt (any_reported _ _).1 hc), if_pos ((any_reported _ _).2 h)]

theorem readOutcome_blank {cs : List (Nat × Condition)} (hm : ¬ Reported .mediumError cs) (hc : ¬ Reported .checkMismatch cs)
    (hv : ¬ Reported .void cs) (h : Reported .blank cs) : readOutcome cs = .blank := by
  rw [readOutcome, if_neg (mt (any_reported _ _).1 hm), if_neg (mt (any_reported _ _).1 hc), if_neg (mt (any_reported _ _).1 hv),
    if_pos ((any_reported _ _).2 h)]

theorem normalOutcome_read {e : Entry} (h : e.kind = .read) : e.normalOutcome = readOutcome e.conditions := by
  rw [Entry.normalOutcome, h]

theorem mem_addCondition (i : Nat) (c : Condition) (cs : List (Nat × Condition)) : (i, c) ∈ addCondition i c cs := by
  induction cs with
  | nil => exact List.mem_singleton_self _
  | cons x cs ih =>
    unfold addCondition
    split
    · exact List.mem_cons_self ..
    · split
      · exact List.mem_cons_self ..
      · exact List.mem_cons_of_mem _ ih

theorem zeroSector_toList : zeroSector.toList = List.replicate 256 0 := by
  simp [zeroSector]

/-! ## A sector's words given to the entry (R124, R125, R126) -/

/-- The entry with a sector's words in a buffer, its conditions as they then stand. -/
def Entry.given (ws : List Word) (cs : List (Nat × Condition)) (e : Entry) : Entry :=
  { e with readBuffers := e.readBuffers ++ [ws], allocated := e.allocated - 1, conditions := cs }

/-- An entry's conditions with what a read sector reports. -/
def Entry.conditionsAt (a : Access) (c : Option Condition) (e : Entry) : List (Nat × Condition) :=
  match c with
  | some c => addCondition (a.sector - e.first) c e.conditions
  | none => e.conditions

/-- The access with the sector it has read counted (R124). -/
abbrev Access.readOne (a : Access) : Access := { a with done := a.done + 1 }

/-- The state with a sequencer whose access has counted the sector it read. -/
def readCounted (a : Access) (q : Sequencer) (s : State) : State := { s with seq := { q with access := some a.readOne } }

section Sector

variable {s : State} (ho : OrdersLawful s) {e : Entry} (he : e ∈ s.work) (hek : e.kind = .read) {a : Access}
  (hown : a.owner = .entry e.order)

include ho he hek hown in
theorem reportSector_read (c : Condition) :
    reportSector a c s = withEntry { e with conditions := addCondition (a.sector - e.first) c e.conditions } s := by
  have hidx : s.sectorIndex a = a.sector - e.first := by
    simp [State.sectorIndex, hown, entry_of_mem ho he, hek]
  simp only [reportSector, hown, reportCondition, hidx]
  exact updEntry_of_mem ho he (f := fun x => { x with conditions := addCondition (a.sector - e.first) c x.conditions }) rfl

include ho he hek hown in
/-- A sector of a READ's run has its result: the buffer filled, what it reports reported, the sector counted. -/
theorem sectorRead_entry (hak : a.kind = .readRun) {q : Sequencer} (hseq : s.seq = q) (ha : q.access = some a) (ws : List Word)
    (c : Option Condition) :
    sectorRead a ws c s = sectorEnds a.readOne (withEntry (e.given ws (e.conditionsAt a c)) (readCounted a q s)) := by
  have hreported : (match c with | some c => reportSector a c s | none => s) = withEntry { e with conditions := e.conditionsAt a c } s := by
    cases c with
    | none => exact (withEntry_self ho he).symm
    | some c => exact reportSector_read ho he hek hown c
  have hgiven : updEntry e.order (fun x => { x with readBuffers := x.readBuffers ++ [ws], allocated := x.allocated - 1 })
      (withEntry { e with conditions := e.conditionsAt a c } s) = withEntry (e.given ws (e.conditionsAt a c)) s :=
    updEntry_withEntry (y := { e with conditions := e.conditionsAt a c }) (n := e.order) rfl rfl s
  have hcount : updAccess (fun x => { x with done := x.done + 1 }) (withEntry (e.given ws (e.conditionsAt a c)) s)
      = withEntry (e.given ws (e.conditionsAt a c)) (readCounted a q s) := by
    simp only [updAccess, updSeq, withEntry, readCounted, hseq, ha, Option.map_some]
  rw [← hcount, ← hgiven, ← hreported]
  unfold sectorRead
  split
  · next n _ hn =>
    obtain rfl : e.order = n := Owner.entry.inj (hown.symm.trans hn)
    rfl
  · next hscan => cases hak.symm.trans hscan
  · next hnone => exact (hnone e.order hak hown).elim

include ho he in
theorem readSpan_entry (hown : a.owner = .entry e.order) : s.readSpan a = e.span := by
  simp [State.readSpan, hown, entry_of_mem ho he]

/-- DATA_READ_COMPLETE, by whether the field is good. -/
theorem dataReadComplete_eq (ht : s.seq.state = .transferring) (hp : s.seq.phase = .dataRead) (ha : s.seq.access = some a)
    (f : FieldImage) :
    exec (.dataReadComplete f) s = .next (settle (if f.check = crc f.data.toList then goodField a f s else readAttemptFails a .read s)) := by
  have hgood : fieldGood f = true ↔ f.check = crc f.data.toList := beq_iff_eq
  show execDataReadComplete f s = _
  rw [execDataReadComplete, inPhase_eq ht hp ha]
  dsimp only
  simp only [hgood]

include ho he hek hown in
theorem goodField_entry (hak : a.kind = .readRun) (ha : s.seq.access = some a) (f : FieldImage) :
    goodField a f s = sectorEnds a.readOne (withEntry
      (e.given f.data.toList (if spanHolds e.span f.data.toList = true then e.conditions
        else addCondition (a.sector - e.first) .checkMismatch e.conditions))
      (readCounted a s.seq s)) := by
  have hconditions : e.conditionsAt a (if spanHolds e.span f.data.toList = true then none else some .checkMismatch)
      = if spanHolds e.span f.data.toList = true then e.conditions
        else addCondition (a.sector - e.first) .checkMismatch e.conditions := by
    split <;> rfl
  unfold goodField
  rw [hak]
  dsimp only
  rw [readSpan_entry ho he hown, sectorRead_entry ho he hek hown hak rfl ha, hconditions]

/-- A bad field with attempts left: the sector is read again at its next passage (R125). -/
theorem readAttemptFails_again (hak : a.kind = .readRun) (ha : s.seq.access = some a) (hleft : a.failed < s.readRetries a)
    (cause : DefectCause) :
    readAttemptFails a cause s = { s with seq := retried { a with failed := a.failed + 1, further := false } s.seq } := by
  have hmount : s.mountWasCut a = false := mountWasCut_false (by simp [hak])
  rw [readAttemptFails, hmount, if_neg (by simp), if_pos (by omega), nextPassage_of_failure false ha]

theorem defectRecorded_keeps_access (a : Access) (cause : DefectCause) (clock : Millis) (q : Sequencer) :
    (defectRecorded a cause clock q).access = q.access := by
  unfold defectRecorded
  split_ifs <;> rfl

include ho he hek hown in
/-- A bad field after the last allowed attempt: the sector recorded, zero words and MEDIUM-ERROR (R125, R135). -/
theorem readAttemptFails_entry (hak : a.kind = .readRun) (ha : s.seq.access = some a) (hlast : s.readRetries a ≤ a.failed)
    (cause : DefectCause) :
    readAttemptFails a cause s = sectorEnds a.readOne (withEntry
      (e.given (List.replicate 256 0) (addCondition (a.sector - e.first) .mediumError e.conditions))
      (readCounted a (defectRecorded a cause s.clock s.seq) s)) := by
  have hmount : s.mountWasCut a = false := mountWasCut_false (by simp [hak])
  have hac : (defectRecorded a cause s.clock s.seq).access = some a := (defectRecorded_keeps_access ..).trans ha
  rw [readAttemptFails, hmount, if_neg (by simp), if_neg (by omega), readFails, recordDefect_eq, hak, zeroSector_toList]
  exact sectorRead_entry (s := { s with seq := defectRecorded a cause s.clock s.seq }) ho he hek hown hak rfl hac _ (some .mediumError)

end Sector

/-! ## What follows, in the state of the claims -/

/-- The state with an entry in place and the run's access ended in a sequencer. -/
def runStopped (y : Entry) (q : Sequencer) (s : State) : State := withEntry y { s with ctlBuffer := .free, seq := ended q }

section Given

variable {s : State} (ho : OrdersLawful s) (hl : RepliesLawful s) {e y : Entry} (he : e ∈ s.work) (hy : y.order = e.order)
  (hk : y.kind = .read) {a : Access} (hown : a.owner = .entry e.order) (q : Sequencer)

include hl in
/-- The run goes on with its next sector. -/
theorem given_next (hend : a.sector + 1 < a.runEnd) (hv : s.volume.state = .mounted) (hx : s.volume.drainExpired = false)
    (hstop : a.stops = []) :
    SameButReservations { withEntry y s with seq := retried (turned a.readOne (a.sector + 1)) q }
      (settle (sectorEnds a.readOne (withEntry y (readCounted a q s)))) := by
  have h := readEnds_next (s := readCounted a q s) (repliesLawful_congr hl (fun _ => ⟨rfl, rfl⟩)) (y := y) (a := a.readOne) hend hv
    hstop hx rfl
  rwa [show (readCounted a q s).seq = { q with access := some a.readOne } from rfl, retried_access] at h

include ho hl he hy hk hown in
theorem given_atBoundary (hend : a.sector + 1 = a.runEnd) (hmore : y.done + (a.done + 1) < y.count) (hv : s.volume.state = .mounted)
    (hx : s.volume.drainExpired = false) :
    AtBoundary (y.credited (a.done + 1)) (runStopped (y.credited (a.done + 1)) q s)
      (settle (sectorEnds a.readOne (withEntry y (readCounted a q s)))) :=
  readEnds_atBoundary (s := readCounted a q s) ho (repliesLawful_congr hl (fun _ => ⟨rfl, rfl⟩)) he hy hk (a := a.readOne) hown hend hmore
    hv hx

include ho hl he hy hk hown in
/-- The request's last sector: the entry ends, all its sectors done. -/
theorem given_last (hend : a.sector + 1 = a.runEnd) (hlast : y.done + (a.done + 1) = y.count) (hv : s.volume.state = .mounted) {code : Code}
    (hcode : readOutcome y.conditions = code) :
    SameButReservations (entryEnded { y with done := y.count } code (runStopped { y with done := y.count } q s))
      (settle (sectorEnds a.readOne (withEntry y (readCounted a q s)))) := by
  have h := readEnds_last_mounted (s := readCounted a q s) ho (repliesLawful_congr hl (fun _ => ⟨rfl, rfl⟩)) he hy hk (a := a.readOne)
    hown hend hlast hv
  rwa [show y.credited a.readOne.done = { y with done := y.count } from congrArg (fun n => { y with done := n }) hlast,
    normalOutcome_read hk, hcode] at h

include ho hl he hy hk hown in
theorem given_last_ended (hend : a.sector + 1 = a.runEnd) (hlast : y.done + (a.done + 1) = y.count) (hd : y.discard = false)
    (hquiet : y.flags.quiet = false) {code : Code} (hcode : readOutcome y.conditions = code) :
    Ended (y.credited (a.done + 1)) code (settle (sectorEnds a.readOne (withEntry y (readCounted a q s)))) := by
  have h := readEnds_last_ended (s := readCounted a q s) ho (repliesLawful_congr hl (fun _ => ⟨rfl, rfl⟩)) he hy hk (a := a.readOne) hown
    hend hlast hd hquiet
  rwa [normalOutcome_read hk, hcode] at h

include ho hl he hy hk hown in
theorem given_drained (hmore : a.sector + 1 < a.runEnd ∨ (a.sector + 1 = a.runEnd ∧ y.done + a.done + 1 < y.count))
    (hd : DrainWaits a s) :
    DrainEnded (runStopped (y.credited (a.done + 1)) q s) (settle (sectorEnds a.readOne (withEntry y (readCounted a q s)))) := by
  obtain ⟨hstop, hv, hx⟩ := hd
  exact readEnds_drained (s := readCounted a q s) ho (repliesLawful_congr hl (fun _ => ⟨rfl, rfl⟩)) he hy hk (a := a.readOne) hown hmore
    hstop hv hx

end Given

end Sys2Proof.Machine

namespace Sys2Proof.Proofs

open Sys2Proof.Machine Sys2Proof.Safety

/-- Settles O49, by whether the field is good and by where in the run the sector stands. -/
theorem dataReadComplete : Obligations.DataReadComplete := by
  unfold Obligations.DataReadComplete
  intro f a e s ht hp ha _ hak hown he hek hstop ho hl
  have hexec := dataReadComplete_eq ht hp ha f
  have hgood := goodField_entry ho he hek hown hak ha f
  dsimp only
  refine ⟨fun hf hend hun => ?next, fun hf hend hlast hv => ?last, fun hf hleft hv => ?again, fun hf hend hmore hun => ?boundary,
    fun hf hd => ⟨fun hmore => ?drained, fun hend hlast hnone hdis hquiet => ?drainedLast⟩, fun hf hfailed => ?failed⟩
  case again =>
    rw [if_neg hf, readAttemptFails_again hak ha hleft] at hexec
    exact ⟨_, hexec, settle_of_sameBut (sameBut_refl _) (repliesLawful_congr hl (fun _ => ⟨rfl, rfl⟩)) hv⟩
  case failed =>
    rw [if_neg hf, readAttemptFails_entry ho he hek hown hak ha hfailed] at hexec
    refine ⟨fun hend hun => ⟨_, hexec, given_next hl (y := e.given _ _) _ hend hun.1 hun.2 hstop⟩, fun hend hlast hv => ⟨_, hexec, ?_⟩,
      fun hend hmore hun => ⟨_, hexec, given_atBoundary ho hl he (y := e.given _ _) rfl hek hown _ hend hmore hun.1 hun.2⟩,
      fun hmore hd => ⟨_, hexec, given_drained ho hl he (y := e.given _ _) rfl hek hown _ hmore hd⟩⟩
    exact given_last ho hl he (y := e.given _ _) rfl hek hown _ hend hlast hv (readOutcome_mediumError ⟨_, mem_addCondition _ _ _⟩)
  all_goals rw [if_pos hf, hgood] at hexec
  case next => exact ⟨_, hexec, given_next hl (y := e.given _ _) _ hend hun.1 hun.2 hstop⟩
  case boundary => exact ⟨_, hexec, given_atBoundary ho hl he (y := e.given _ _) rfl hek hown _ hend hmore hun.1 hun.2⟩
  case drained => exact ⟨_, hexec, given_drained ho hl he (y := e.given _ _) rfl hek hown _ hmore hd⟩
  case drainedLast =>
    exact ⟨_, hexec, given_last_ended ho hl he (y := e.given _ _) rfl hek hown _ hend hlast hdis hquiet (congrArg readOutcome hnone)⟩
  case last =>
    exact ⟨_, _, hexec, readOutcome_mediumError, readOutcome_checkMismatch, readOutcome_void, readOutcome_blank, congrArg readOutcome,
      given_last ho hl he (y := e.given _ _) rfl hek hown _ hend hlast hv rfl⟩

end Sys2Proof.Proofs

end

section
/-! PROOFS. O14 and O15: the words of an arriving frame's body, the reservation of its buffers, and the ends of a frame (R97, R101, R175, R176). -/

namespace Sys2Proof.Machine

open Sys2Proof.Safety

variable {ch : Channel} {w : Word} {f : Frame} {n : Nat} {s : State}

/-! ## What an offered word comes to (R175) -/

theorem held_eq_false (h : ∀ n, f.reservation ≠ .wanted n) : f.held = false := by
  unfold Frame.held
  split
  · next n hn => exact absurd hn (h n)
  · rfl

/-- A word of a frame whose length is known, with body words still to come, is taken as a body word. -/
theorem inboundWord_body (hr : (s.port ch).resetActive = false) (hf : (s.port ch).receiver = .receiving f)
    (hw : ∀ n, f.reservation ≠ .wanted n) (hl : f.length = some n) (hn : f.taken - 2 < n) :
    exec (.inboundWord ch w) s = .next (s.updPort ch (fun p => { p with
      receiver := .receiving ((f.count w).takeBody (f.taken - 2) (s.unused ch) (s.port ch).context.span w) })) := by
  show Host.Outcome.next (takeWord ch w s) = _
  rw [takeWord, if_neg (by simp [hr]), hf]
  simp only [held_eq_false hw, Bool.false_eq_true, if_false, takeFrameWord, hl, if_pos hn]
  rfl

/-! ## The body words (R97, R186) -/

theorem dataStart_none {k : ReqKind} (hw : k ≠ .write) (ha : k ≠ .append) : dataStart k = none := by
  unfold dataStart
  split
  exacts [absurd rfl hw, absurd rfl ha, rfl]

/-- Where sector data begins, for a kind that carries it. -/
theorem dataStart_some {k : ReqKind} (h : k = .write ∨ k = .append) : ∃ d, dataStart k = some d ∧ 2 ≤ d := by
  obtain rfl | rfl := h
  exacts [⟨3, rfl, by omega⟩, ⟨2, rfl, le_rfl⟩]

theorem takeBody_plain (i unused : Nat) (span : Option CheckSpan) (h : dataStart f.kind = none) :
    f.takeBody i unused span w = { f with body := f.body ++ [w] } := by
  rw [Frame.takeBody, h]

theorem takeBody_operand {i d : Nat} (unused : Nat) (span : Option CheckSpan) (h : dataStart f.kind = some d) (hi : i < d) (hone : i ≠ 1) :
    f.takeBody i unused span w = { f with body := f.body ++ [w] } := by
  rw [Frame.takeBody, h]
  simp only [if_neg (not_le.2 hi), if_neg hone]

theorem takeBody_count {d : Nat} (unused : Nat) (span : Option CheckSpan) (h : dataStart f.kind = some d) (hd : 2 ≤ d) :
    f.takeBody 1 unused span w = ({ f with body := f.body ++ [w] } : Frame).takeCount unused w := by
  rw [Frame.takeBody, h]
  simp only [if_neg (by omega : ¬ d ≤ 1), if_true]

theorem takeBody_data {i d : Nat} (unused : Nat) (span : Option CheckSpan) (h : dataStart f.kind = some d) (hi : d ≤ i) :
    f.takeBody i unused span w = f.takeData span w := by
  rw [Frame.takeBody, h]
  exact if_pos hi

theorem takeCount_out (unused : Nat) (h : ¬ (1 ≤ w.toNat ∧ w.toNat ≤ 8)) : f.takeCount unused w = f := if_neg h

theorem takeCount_in (unused : Nat) (hlo : 1 ≤ w.toNat) (hhi : w.toNat ≤ 8) :
    f.takeCount unused w = { f with
      reservation := if w.toNat ≤ unused then .made w.toNat else .wanted w.toNat
      reserved := if w.toNat ≤ unused then w.toNat else f.reserved } := by
  rw [Frame.takeCount, if_pos ⟨hlo, hhi⟩]
  by_cases h : w.toNat ≤ unused
  · simp only [if_pos h]
  · simp only [if_neg h]

/-- A word of sector data, by the buffer it falls in: none begun, one with room, one that it completes (R97, R101). -/
theorem takeData_eq (span : Option CheckSpan) (hfill : f.filling.length ≤ 255) :
    f.takeData span w =
      if f.filling = [] then
        (if f.reserved = 0 then f else { f with reserved := f.reserved - 1, filling := [w] })
      else if f.filling.length < 255 then { f with filling := f.filling ++ [w] }
      else { f with filling := [], buffers := f.buffers ++ [insertSpan span (f.filling ++ [w])] } := by
  unfold Frame.takeData
  by_cases hnone : f.filling = []
  · by_cases hres : f.reserved = 0
    · simp [hnone, hres]
    · simp [hnone, hres]
  · by_cases hroom : f.filling.length < 255
    · have hlen : ¬ f.filling.length + 1 = 256 := by omega
      simp [hnone, hroom, hlen]
    · have hlen : f.filling.length + 1 = 256 := by omega
      simp [hnone, hroom, hlen]

end Sys2Proof.Machine

namespace Sys2Proof.Proofs

open Sys2Proof.Machine Sys2Proof.Safety

/-- Settles O14, by the place of the word in the body: an operand, the count, or sector data. -/
theorem inboundBodyAndDataWords : Obligations.InboundBodyAndDataWords := by
  unfold Obligations.InboundBodyAndDataWords
  refine ⟨fun ch w f n s hr hf hw hl htaken hmore => ⟨fun hplain => ?_, fun hkind hthree hlo hhi => ?_⟩,
    fun ch w f n s hr hf hw hl hmore hdata hfill => ?_⟩
  · rw [inboundWord_body hr hf hw hl (by omega)]
    by_cases hkind : f.kind = .write ∨ f.kind = .append
    · obtain ⟨d, hd, hle⟩ := dataStart_some hkind
      rcases hplain with ⟨hnw, hna⟩ | htwo | ⟨hwrite, hfour⟩ | ⟨hthree, hcount⟩
      · exact absurd hkind (by simp [hnw, hna])
      · rw [takeBody_operand (f := f.count w) _ _ hd (by omega) (by omega)]
        rfl
      · rw [takeBody_operand (f := f.count w) (d := 3) _ _ (congrArg dataStart hwrite) (by omega) (by omega)]
        rfl
      · rw [show f.taken - 2 = 1 by omega, takeBody_count (f := f.count w) _ _ hd hle, takeCount_out _ hcount]
        rfl
    · obtain ⟨hnw, hna⟩ := not_or.1 hkind
      rw [takeBody_plain (f := f.count w) _ _ _ (dataStart_none hnw hna)]
      rfl
  · obtain ⟨d, hd, hle⟩ := dataStart_some hkind
    rw [inboundWord_body hr hf hw hl (by omega), hthree, takeBody_count (f := f.count w) _ _ hd hle, takeCount_in _ hlo hhi]
    simp only [Frame.count, hthree]
  · obtain ⟨d, hd, hi⟩ : ∃ d, dataStart f.kind = some d ∧ d ≤ f.taken - 2 := by
      rcases hdata with ⟨hkind, hfive⟩ | ⟨hkind, hfour⟩
      · exact ⟨3, congrArg dataStart hkind, by omega⟩
      · exact ⟨2, congrArg dataStart hkind, by omega⟩
    rw [inboundWord_body hr hf hw hl (by omega), takeBody_data (f := f.count w) _ _ hd hi, takeData_eq (f := f.count w) _ hfill]
    rfl

/-- Settles O15: each command finds the receiver as its occasion has it; a LINK-REJECT is formed as R177 says, and the room of the frame's
buffers may go to short reservations. -/
theorem reservationAndFrameEnds : Obligations.ReservationAndFrameEnds := by
  unfold Obligations.ReservationAndFrameEnds
  refine ⟨fun ch f n s hf hn => ⟨fun hcovers => ?_, fun hshort => ?_⟩, fun ch f s hf hl => ?_, fun ch s hf => ?_⟩
  · simp only [exec, execReservationMade, hf, hn, if_pos hcovers, setReceiver]
  · simp only [exec, execReservationMade, hf, hn, if_neg (not_le.2 hshort)]
  · have hreply : rejectFrame ch .idle f.tag .length f.taken s
        = topUp ch (replied ch (.linkReject f.tag .length f.taken) (s.updPort ch (fun p => { p with receiver := .idle }))) := by
      rw [rejectFrame, formReply_of_lawful]
      · rfl
      · exact repliesLawful_congr hl (fun c => by cases c <;> cases ch <;> exact ⟨rfl, rfl⟩)
    obtain ⟨work, hwork, hbare⟩ := topUp_work ch (replied ch (.linkReject f.tag .length f.taken)
      (s.updPort ch (fun p => { p with receiver := .idle })))
    refine ⟨_, by simp only [exec, execFrameEarlyEnd, hf]; rfl, ?_⟩
    rw [hreply, hwork]
    exact ⟨rfl, hbare⟩
  · simp only [exec, execFrameInactive, hf, setReceiver]

end Sys2Proof.Proofs
end

section
/-! PROOFS. O9: what a channel holds of the buffer pool, as a sum over its port, its entries and its posted writes, and what the laws of the pool
see of a state (R96 to R98). -/

namespace Sys2Proof.Machine

open Sys2Proof.Safety

/-! ## The holding as a sum (R96) -/

/-- The buffers that entries hold for a channel. -/
def workHeld (ch : Channel) (l : List Entry) : Nat := ((l.filter (fun e => e.channel = ch)).map Entry.holding).sum

/-- The buffers that posted writes hold for a channel. -/
def postedHeld (ch : Channel) (l : List Posted) : Nat := ((l.filter (fun p => p.channel = ch)).map (fun p => p.buffers.length)).sum

/-- What an entry holds for a channel. -/
def Entry.share (ch : Channel) (e : Entry) : Nat := if e.channel = ch then e.holding else 0

/-- What a posted write holds for a channel. -/
def Posted.share (ch : Channel) (p : Posted) : Nat := if p.channel = ch then p.buffers.length else 0

theorem holding_eq (ch : Channel) (s : State) : s.holding ch = (s.port ch).holding + workHeld ch s.work + postedHeld ch s.posted := rfl

@[simp] theorem workHeld_nil (ch : Channel) : workHeld ch [] = 0 := rfl

@[simp] theorem workHeld_cons (ch : Channel) (e : Entry) (l : List Entry) : workHeld ch (e :: l) = e.share ch + workHeld ch l := by
  unfold workHeld Entry.share
  by_cases h : e.channel = ch <;> simp [h]

@[simp] theorem postedHeld_cons (ch : Channel) (p : Posted) (l : List Posted) : postedHeld ch (p :: l) = p.share ch + postedHeld ch l := by
  unfold postedHeld Posted.share
  by_cases h : p.channel = ch <;> simp [h]

theorem workHeld_append (ch : Channel) (l m : List Entry) : workHeld ch (l ++ m) = workHeld ch l + workHeld ch m := by simp [workHeld]

theorem postedHeld_append (ch : Channel) (l m : List Posted) : postedHeld ch (l ++ m) = postedHeld ch l + postedHeld ch m := by
  simp [postedHeld]

theorem share_own (e : Entry) : e.share e.channel = e.holding := if_pos rfl

theorem share_other {e : Entry} {ch : Channel} (h : e.channel ≠ ch) : e.share ch = 0 := if_neg h

theorem postedHeld_filter_le (ch : Channel) (f : Posted → Bool) (l : List Posted) : postedHeld ch (l.filter f) ≤ postedHeld ch l := by
  induction l with
  | nil => exact le_rfl
  | cons p l ih =>
    rw [List.filter_cons]
    split <;> simp only [postedHeld_cons] <;> omega

theorem postedHeld_map_le (ch : Channel) {f : Posted → Posted} (h : ∀ p, (f p).share ch ≤ p.share ch) (l : List Posted) :
    postedHeld ch (l.map f) ≤ postedHeld ch l := by
  induction l with
  | nil => exact le_rfl
  | cons p l ih =>
    rw [List.map_cons, postedHeld_cons, postedHeld_cons]
    exact Nat.add_le_add (h p) ih

theorem workHeld_map_congr (ch : Channel) {f : Entry → Entry} (h : ∀ e, (f e).share ch = e.share ch) (l : List Entry) :
    workHeld ch (l.map f) = workHeld ch l := by
  induction l with
  | nil => rfl
  | cons e l ih => rw [List.map_cons, workHeld_cons, workHeld_cons, h, ih]

/-- An order that no entry carries changes no entry. -/
theorem map_order_absent {l : List Entry} {n : Nat} (h : n ∉ l.map (fun e => e.order)) (f : Entry → Entry) :
    l.map (fun x => if x.order = n then f x else x) = l := by
  refine (List.map_congr_left (fun x hx => if_neg fun heq => ?_)).trans (List.map_id l)
  exact h (heq ▸ List.mem_map_of_mem (f := fun e : Entry => e.order) hx)

/-- One entry changed: the channel's entries hold what they held, that entry's new share in place of its old one. -/
theorem workHeld_change (ch : Channel) {l : List Entry} (hn : (l.map (fun e => e.order)).Nodup) {e : Entry} (he : e ∈ l) (f : Entry → Entry) :
    workHeld ch (l.map (fun x => if x.order = e.order then f x else x)) + e.share ch = workHeld ch l + (f e).share ch := by
  induction l with
  | nil => cases he
  | cons x l ih =>
    rw [List.map_cons, List.nodup_cons] at hn
    obtain ⟨hx, hn⟩ := hn
    rw [List.map_cons, workHeld_cons, workHeld_cons]
    rcases List.mem_cons.1 he with rfl | hmem
    · rw [if_pos rfl, map_order_absent hx]
      omega
    · have hne : x.order ≠ e.order := fun heq => hx (heq ▸ List.mem_map_of_mem (f := fun e : Entry => e.order) hmem)
      have := ih hn hmem
      rw [if_neg hne]
      omega

theorem workHeld_filter_le (ch : Channel) (f : Entry → Bool) (l : List Entry) : workHeld ch (l.filter f) ≤ workHeld ch l := by
  induction l with
  | nil => exact le_rfl
  | cons e l ih =>
    rw [List.filter_cons]
    split <;> simp only [workHeld_cons] <;> omega

/-- An entry gone from the list: its share at least is held no more. -/
theorem workHeld_drop (ch : Channel) {l : List Entry} {e : Entry} (he : e ∈ l) :
    workHeld ch (l.filter (fun x => x.order ≠ e.order)) + e.share ch ≤ workHeld ch l := by
  induction l with
  | nil => cases he
  | cons x l ih =>
    rw [List.filter_cons, workHeld_cons]
    rcases List.mem_cons.1 he with rfl | hmem
    · have := workHeld_filter_le ch (fun x : Entry => x.order ≠ e.order) l
      rw [if_neg (by simp)]
      omega
    · have := ih hmem
      by_cases hx : x.order = e.order
      · rw [if_neg (by simp [hx])]
        omega
      · rw [if_pos (by simp [hx]), workHeld_cons]
        omega

/-! ## What the laws see -/

/-- What the laws of the pool see of an entry. -/
def Entry.pool (e : Entry) : Nat × Channel × WorkKind × EntryState × Nat × Nat × Nat × Nat :=
  (e.order, e.channel, e.kind, e.state, e.count, e.done, e.allocated, e.holding)

/-- What the laws of the pool see of a posted write. -/
def Posted.pool (p : Posted) : Nat × Channel × Nat := (p.order, p.channel, p.buffers.length)

/-- What the laws of the pool see of a port. -/
def Port.pool (p : Port) : List Due × Nat := (p.due, p.holding)

/-- What the laws of the pool see of the access in progress: whose it is, where its run stands, and what waits in it. -/
def Access.role (a : Access) : Owner × AccessKind × Nat × Nat × Nat × Pass × List Stop :=
  (a.owner, a.kind, a.sector, a.runEnd, a.done, a.pass, a.stops)

/-- What the laws of the pool see of a state. -/
def State.pool (s : State) :=
  (s.ports.a.pool, s.ports.b.pool, s.work.map Entry.pool, s.posted.map Posted.pool, s.nextOrder, s.seq.access.map Access.role, s.settings)

theorem workHeld_of_pool (ch : Channel) {l m : List Entry} (h : l.map Entry.pool = m.map Entry.pool) : workHeld ch l = workHeld ch m := by
  have hpool : ∀ l : List Entry, workHeld ch l
      = (((l.map Entry.pool).filter (fun x => x.2.1 = ch)).map (fun x => x.2.2.2.2.2.2.2)).sum := fun l => by
    rw [List.filter_map, List.map_map]
    rfl
  rw [hpool, hpool, h]

theorem postedHeld_of_pool (ch : Channel) {l m : List Posted} (h : l.map Posted.pool = m.map Posted.pool) :
    postedHeld ch l = postedHeld ch m := by
  have hpool : ∀ l : List Posted, postedHeld ch l
      = (((l.map Posted.pool).filter (fun x => x.2.1 = ch)).map (fun x => x.2.2)).sum := fun l => by
    rw [List.filter_map, List.map_map]
    rfl
  rw [hpool, hpool, h]

theorem port_pool_of_pool {s t : State} (h : t.pool = s.pool) (ch : Channel) : (t.port ch).pool = (s.port ch).pool := by
  simp only [State.pool, Prod.mk.injEq] at h
  obtain ⟨ha, hb, -⟩ := h
  cases ch
  exacts [ha, hb]

theorem work_of_pool {s t : State} (h : t.pool = s.pool) : t.work.map Entry.pool = s.work.map Entry.pool := congrArg (·.2.2.1) h

theorem posted_of_pool {s t : State} (h : t.pool = s.pool) : t.posted.map Posted.pool = s.posted.map Posted.pool := congrArg (·.2.2.2.1) h

theorem nextOrder_of_pool {s t : State} (h : t.pool = s.pool) : t.nextOrder = s.nextOrder := congrArg (·.2.2.2.2.1) h

theorem role_of_pool {s t : State} (h : t.pool = s.pool) : t.seq.access.map Access.role = s.seq.access.map Access.role :=
  congrArg (·.2.2.2.2.2.1) h

theorem settings_of_pool {s t : State} (h : t.pool = s.pool) : t.settings = s.settings := congrArg (·.2.2.2.2.2.2) h

theorem holding_of_pool {s t : State} (h : t.pool = s.pool) (ch : Channel) : t.holding ch = s.holding ch := by
  rw [holding_eq, holding_eq, workHeld_of_pool ch (work_of_pool h), postedHeld_of_pool ch (posted_of_pool h),
    show (t.port ch).holding = (s.port ch).holding from congrArg Prod.snd (port_pool_of_pool h ch)]

theorem ordersLawful_of_pool {s t : State} (h : t.pool = s.pool) (ho : OrdersLawful s) : OrdersLawful t := by
  refine ordersLawful_congr ho ?_ ?_ (nextOrder_of_pool h)
  · have := congrArg (List.map (fun x => x.1)) (work_of_pool h)
    rwa [List.map_map, List.map_map] at this
  · have := congrArg (List.map (fun x => x.1)) (posted_of_pool h)
    rwa [List.map_map, List.map_map] at this

/-- An entry of one state stands in another, as the laws see it. -/
theorem mem_of_pool {s t : State} (h : t.pool = s.pool) {e : Entry} (he : e ∈ t.work) : ∃ x ∈ s.work, x.pool = e.pool :=
  List.mem_map.1 (work_of_pool h ▸ List.mem_map_of_mem he)

/-! ## The laws -/

/-- A run of an access that fits an entry (R4, R83, R98): `runLawful` but for the entry's place in the list. -/
def runFits (a : Access) (e : Entry) : Prop :=
  e.state = .active ∧ (a.kind = .readRun ↔ e.kind = .read)
    ∧ (e.kind = .read → a.sector < a.runEnd ∧ a.runEnd - a.sector ≤ e.allocated ∧ e.done + a.done + (a.runEnd - a.sector) ≤ e.count
        ∧ a.pass ≠ .marking ∧ a.pass ≠ .markCheck)

/-- The laws of the pool but for the run in progress. -/
structure PoolBase (s : State) : Prop where
  orders : OrdersLawful s
  quotas : s.settings.quotaA + s.settings.quotaB ≤ 24
  due : ∀ ch, ∀ d ∈ (s.port ch).due, dueLawful s ch d
  reads : ∀ e ∈ s.work, e.kind = .read → e.state = .queued ∨ e.state = .parked → e.done < e.count
  access : AccessLawful s
  held : ∀ ch, s.holding ch ≤ s.settings.quota ch

/-- The laws of the pool. -/
structure PoolLawful (s : State) : Prop extends PoolBase s where
  run : ∀ a n, s.seq.access = some a → a.owner = .entry n → runLawful s a n

theorem poolLawful_of_laws {s : State} (ho : OrdersLawful s) (hs : SettingsLawful s) (hr : RunsLawful s) (hb : BuffersLawful s) :
    PoolLawful s := by
  obtain ⟨hdue, hreads, haccess, hrun⟩ := hr
  obtain ⟨-, -, hquotas, -⟩ := hs
  exact ⟨⟨ho, hquotas, hdue, hreads, haccess, fun ch => (holding_eq_heldBuffers ch s).symm ▸ hb ch⟩, hrun⟩

theorem PoolLawful.runsLawful {s : State} (h : PoolLawful s) : RunsLawful s := ⟨h.due, h.reads, h.access, h.run⟩

theorem PoolLawful.buffersLawful {s : State} (h : PoolLawful s) : BuffersLawful s := fun ch => holding_eq_heldBuffers ch s ▸ h.held ch

theorem dueLawful_of_pool {s t : State} (h : t.pool = s.pool) {ch : Channel} {d : Due} (hd : dueLawful s ch d) : dueLawful t ch d := by
  cases d with
  | entry n =>
    obtain ⟨hn, hown⟩ := hd
    refine ⟨nextOrder_of_pool h ▸ hn, fun e he hord => ?_⟩
    obtain ⟨x, hx, heq⟩ := mem_of_pool h he
    simp only [Entry.pool, Prod.mk.injEq] at heq
    obtain ⟨ho, hc, -, hs, -⟩ := heq
    exact hc ▸ hs ▸ hown x hx (ho.trans hord)
  | stage | sweep => exact hd

theorem accessLawful_of_role {a b : Access} (h : b.role = a.role) (ha : accessLawful a) : accessLawful b := by
  simp only [Access.role, Prod.mk.injEq] at h
  obtain ⟨ho, hk, -, -, -, -, hs⟩ := h
  unfold accessLawful
  rw [ho, hk, hs]
  exact ha

theorem runFits_of_pool {a b : Access} {e x : Entry} (ha : b.role = a.role) (he : x.pool = e.pool) (h : runFits a e) : runFits b x := by
  simp only [Access.role, Prod.mk.injEq] at ha
  simp only [Entry.pool, Prod.mk.injEq] at he
  obtain ⟨-, hk, hsec, hend, hdone, hpass, -⟩ := ha
  obtain ⟨-, -, hkind, hstate, hcount, hdn, hall, -⟩ := he
  unfold runFits
  rw [hk, hsec, hend, hdone, hpass, hkind, hstate, hcount, hdn, hall]
  exact h

theorem access_of_role {s t : State} (h : t.seq.access.map Access.role = s.seq.access.map Access.role) {b : Access}
    (hb : t.seq.access = some b) : ∃ a, s.seq.access = some a ∧ b.role = a.role := by
  rw [hb, Option.map_some] at h
  obtain ⟨a, ha, heq⟩ := Option.map_eq_some_iff.1 h.symm
  exact ⟨a, ha, heq.symm⟩

/-- The laws look at nothing but `State.pool`. -/
theorem PoolBase.same {s t : State} (h : PoolBase s) (hp : t.pool = s.pool) : PoolBase t where
  orders := ordersLawful_of_pool hp h.orders
  quotas := settings_of_pool hp ▸ h.quotas
  due ch d hd := by
    have hdue : (t.port ch).due = (s.port ch).due := congrArg Prod.fst (port_pool_of_pool hp ch)
    exact dueLawful_of_pool hp (h.due ch d (hdue ▸ hd))
  reads e he hk hs := by
    obtain ⟨x, hx, heq⟩ := mem_of_pool hp he
    simp only [Entry.pool, Prod.mk.injEq] at heq
    obtain ⟨-, -, hkind, hstate, hcount, hdone, -⟩ := heq
    exact hcount ▸ hdone ▸ h.reads x hx (hkind.trans hk) (hstate ▸ hs)
  access b hb := by
    obtain ⟨a, ha, heq⟩ := access_of_role (role_of_pool hp) hb
    exact accessLawful_of_role heq (h.access a ha)
  held ch := by
    rw [holding_of_pool hp, settings_of_pool hp]
    exact h.held ch

theorem PoolLawful.same {s t : State} (h : PoolLawful s) (hp : t.pool = s.pool) : PoolLawful t where
  toPoolBase := h.toPoolBase.same hp
  run b n hb hown := by
    obtain ⟨a, ha, heq⟩ := access_of_role (role_of_pool hp) hb
    obtain ⟨e, he, ho, hfits⟩ := h.run a n ha ((congrArg Prod.fst heq).symm.trans hown)
    obtain ⟨x, hx, hxe⟩ := mem_of_pool hp.symm he
    exact ⟨x, hx, (congrArg Prod.fst hxe).trans ho, runFits_of_pool heq hxe hfits⟩

/-- No run of an entry is in progress. -/
def Unowned (n : Nat) (s : State) : Prop := ∀ a ∈ s.seq.access, a.owner ≠ .entry n

theorem unowned_of_idle {s : State} (h : s.seq.access = none) (n : Nat) : Unowned n s := fun a ha => by
  rw [h] at ha
  cases ha

/-- A run in progress is that of an ACTIVE entry. -/
theorem PoolLawful.unowned {s : State} (h : PoolLawful s) {e : Entry} (he : e ∈ s.work) (hs : e.state ≠ .active) : Unowned e.order s := by
  intro a ha hown
  obtain ⟨x, hx, hord, hactive, -⟩ := h.run a e.order ha hown
  exact hs (eq_of_order (work_orders_nodup h.orders) hx he hord ▸ hactive)

/-- With no access in progress there is no run to keep a law. -/
theorem PoolBase.idle {s : State} (h : PoolBase s) (hidle : s.seq.access = none) : PoolLawful s :=
  ⟨h, fun a n ha _ => by rw [hidle] at ha; cases ha⟩

end Sys2Proof.Machine
end

section
/-! PROOFS. O9: the operations of the machine that leave what the laws of the buffer pool see as it is. -/

namespace Sys2Proof.Machine

open Sys2Proof.Safety

@[simp] theorem pool_mk {ports logs settings extents ctlClaim extClaims work posted nextOrder direction seq ctlBuffer volume sweep
    sweepSeen levels acted powerPeriod powerTaken powerOwed powerEarly clock medium pending takers} :
    State.pool ⟨ports, logs, settings, extents, ctlClaim, extClaims, work, posted, nextOrder, direction, seq, ctlBuffer, volume, sweep,
      sweepSeen, levels, acted, powerPeriod, powerTaken, powerOwed, powerEarly, clock, medium, pending, takers⟩ =
        (ports.a.pool, ports.b.pool, work.map Entry.pool, posted.map Posted.pool, nextOrder, seq.access.map Access.role, settings) := rfl

@[simp] theorem pool_eta (s : State) :
    (s.ports.a.pool, s.ports.b.pool, s.work.map Entry.pool, s.posted.map Posted.pool, s.nextOrder, s.seq.access.map Access.role, s.settings)
      = s.pool := rfl

theorem foldl_pool {α : Type} {f : State → α → State} (h : ∀ s a, (f s a).pool = s.pool) (l : List α) (s : State) :
    (l.foldl f s).pool = s.pool := by
  induction l generalizing s with
  | nil => rfl
  | cons a l ih => rw [List.foldl_cons, ih, h]

/-! ## Parts changed out of the laws' sight -/

theorem access_map_role {f : Access → Access} (h : ∀ a, (f a).role = a.role) (o : Option Access) :
    (o.map f).map Access.role = o.map Access.role := by
  cases o with
  | none => rfl
  | some a => exact congrArg some (h a)

theorem work_map_pool {f : Entry → Entry} (h : ∀ e, (f e).pool = e.pool) (l : List Entry) : (l.map f).map Entry.pool = l.map Entry.pool := by
  rw [List.map_map]
  exact List.map_congr_left (fun e _ => h e)

theorem posted_map_pool {f : Posted → Posted} (h : ∀ p, (f p).pool = p.pool) (l : List Posted) :
    (l.map f).map Posted.pool = l.map Posted.pool := by
  rw [List.map_map]
  exact List.map_congr_left (fun p _ => h p)

theorem reportLine_pool (p : Port) (l : Line) : (p.reportLine l).pool = p.pool := by
  unfold Port.reportLine
  split <;> rfl

theorem stage_placeFreed_holding (st : Stage) : st.placeFreed.holding = st.holding := by
  cases st <;> rfl

theorem port_placeFreed_pool (p : Port) : ({ p with stage := p.stage.placeFreed } : Port).pool = p.pool := by
  unfold Port.pool Port.holding
  rw [stage_placeFreed_holding]

section Operations

variable (s : State) (ch : Channel) (n m : Nat) (k : Slot) (ks : List Slot) (a : Access) (cause : DefectCause)

theorem updPort_pool {f : Port → Port} (h : ∀ p, (f p).pool = p.pool) : (s.updPort ch f).pool = s.pool := by
  unfold State.pool
  cases ch <;> simp [State.updPort, PerChannel.set, PerChannel.get, h]

theorem updSeq_pool {f : Sequencer → Sequencer} (h : (f s.seq).access.map Access.role = s.seq.access.map Access.role) :
    (updSeq f s).pool = s.pool := by
  unfold State.pool
  rw [show (updSeq f s).seq = f s.seq from rfl, h]
  rfl

theorem updAccess_pool {f : Access → Access} (h : ∀ a, (f a).role = a.role) : (updAccess f s).pool = s.pool :=
  updSeq_pool s (access_map_role h _)

theorem updAccess_updSeq_pool {f : Access → Access} {g : Sequencer → Sequencer} (hf : ∀ a, (f a).role = a.role)
    (hg : (g s.seq).access.map Access.role = s.seq.access.map Access.role) : (updAccess f (updSeq g s)).pool = s.pool :=
  (updAccess_pool _ hf).trans (updSeq_pool s hg)

theorem updEntry_pool {f : Entry → Entry} (h : ∀ e, (f e).pool = e.pool) : (updEntry n f s).pool = s.pool := by
  have hwork := work_map_pool (f := fun e => if e.order = n then f e else e) (fun e => by split; exacts [h e, rfl]) s.work
  unfold State.pool updEntry
  rw [hwork]

theorem updPosted_pool {f : Posted → Posted} (h : ∀ p, (f p).pool = p.pool) : (updPosted n f s).pool = s.pool := by
  have hposted := posted_map_pool (f := fun p => if p.order = n then f p else p) (fun p => by split; exacts [h p, rfl]) s.posted
  unfold State.pool updPosted
  rw [hposted]

@[simp] theorem raise_pool (ev : EventKind) : (raise ch ev s).pool = s.pool := updPort_pool s ch (fun _ => rfl)
@[simp] theorem raiseBoth_pool (ev : EventKind) : (raiseBoth ev s).pool = s.pool := rfl
@[simp] theorem updExtent_pool (f : Extent → Extent) : (updExtent k f s).pool = s.pool := rfl
@[simp] theorem updFill_pool (f : Fill → Fill) : (updFill k f s).pool = s.pool := rfl
@[simp] theorem lowerPending_pool : (lowerPending k n s).pool = s.pool := rfl
@[simp] theorem reserveAppend_pool : (reserveAppend k n s).pool = s.pool := rfl
@[simp] theorem logFault_pool (code : Code) (p : Posted) : (logFault code s p).pool = s.pool := rfl
@[simp] theorem removeDefect_pool (c h : Nat) : (removeDefect c h n s).pool = s.pool := rfl
@[simp] theorem issueStop_pool : (issueStop s).pool = s.pool := rfl
@[simp] theorem issueSeek_pool : (issueSeek n s).pool = s.pool := rfl
@[simp] theorem enterNotSafe_pool : (enterNotSafe s).pool = s.pool := rfl
@[simp] theorem enterNoCartridge_pool : (enterNoCartridge s).pool = s.pool := rfl
@[simp] theorem enterOffline_pool : (enterOffline s).pool = s.pool := rfl
@[simp] theorem enterReleasing_pool : (enterReleasing s).pool = s.pool := rfl
@[simp] theorem setMount_pool (stage : MountStage) : (setMount stage s).pool = s.pool := rfl
@[simp] theorem mountComplete_pool : (mountComplete s).pool = s.pool := rfl
@[simp] theorem setSweepSector_pool : (setSweepSector m s).pool = s.pool := rfl
@[simp] theorem failItem_pool : (failItem s).pool = s.pool := rfl
@[simp] theorem arrive_pool : (arrive n s).pool = s.pool := rfl
@[simp] theorem fillAsLastDone_pool : (fillAsLastDone m k s).pool = s.pool := rfl
@[simp] theorem takeBeginning_pool : (takeBeginning s).pool = s.pool := rfl

@[simp] theorem setClaim_pool (x : ClaimTarget) (c : ClaimRecord) : (setClaim x c s).pool = s.pool := by
  cases x <;> rfl

@[simp] theorem markSlots_pool (on : Bool) : (markSlots on ks s).pool = s.pool := foldl_pool (fun s k => updExtent_pool s k _) ks s

@[simp] theorem placeFreed_pool : (placeFreed s).pool = s.pool := by
  unfold State.pool placeFreed
  rw [port_placeFreed_pool, port_placeFreed_pool]

@[simp] theorem takeLine_pool (l : Line) (on : Bool) : (takeLine l on s).pool = s.pool := by
  unfold State.pool takeLine
  rw [reportLine_pool, reportLine_pool]

@[simp] theorem recordDefect_pool (c h : Nat) : (recordDefect c h n cause s).pool = s.pool := by
  unfold recordDefect
  (repeat' split) <;> rfl

@[simp] theorem putHeader_pool (i : Nat) (hr : HeaderRecord) : (putHeader i hr s).pool = s.pool := by
  unfold putHeader
  split <;> rfl

@[simp] theorem putData_pool (i : Nat) (st : HeaderState) (d : DataRecord) : (putData i st d s).pool = s.pool := by
  unfold putData
  split <;> rfl

@[simp] theorem tear_pool : (tear s).pool = s.pool := by
  unfold tear
  (repeat' split) <;> simp

@[simp] theorem drainCheck_pool : (drainCheck s).pool = s.pool := by
  unfold drainCheck drainEnds
  dsimp only
  (repeat' split) <;> simp

@[simp] theorem releaseStop_pool : (releaseStop s).pool = s.pool := by
  unfold releaseStop
  split <;> simp

@[simp] theorem applyChange_pool (g : Slot × Option Definition) : (applyChange ch s g).pool = s.pool := by
  unfold applyChange
  dsimp only
  split <;> simp

@[simp] theorem noteMapLoad_pool : (noteMapLoad s).pool = s.pool := updAccess_pool s (fun a => by split <;> rfl)

/-! ## The sequencer (R115 to R122, R137, R140, R150) -/

@[simp] theorem issueRestore_pool : (issueRestore s).pool = s.pool :=
  updAccess_updSeq_pool s (fun _ => rfl) rfl

@[simp] theorem startSearch_pool : (startSearch a s).pool = s.pool :=
  updAccess_updSeq_pool s (fun _ => rfl) rfl

@[simp] theorem countFailure_pool (further : Bool) : (countFailure further s).pool = s.pool := updAccess_pool s (fun _ => rfl)

@[simp] theorem approach_pool : (approach s).pool = s.pool := by
  unfold approach
  (repeat' split) <;> simp

@[simp] theorem recalibrate_pool : (recalibrate s).pool = s.pool := by
  unfold recalibrate
  rw [issueRestore_pool]
  exact updSeq_pool s rfl

@[simp] theorem nextPassage_pool : (nextPassage s).pool = s.pool := by
  unfold nextPassage
  (repeat' split) <;> simp

@[simp] theorem noteCheck_pool (c : AddressCheck) : (noteCheck c s).pool = s.pool := by
  unfold noteCheck
  split
  · exact updAccess_updSeq_pool s (fun _ => rfl) rfl
  · exact updSeq_pool s rfl
  · rfl

@[simp] theorem openGate_pool : (openGate a s).pool = s.pool := by
  unfold openGate
  split
  · exact updAccess_updSeq_pool s (fun _ => rfl) rfl
  · exact startSearch_pool s a

@[simp] theorem beginPassage_pool : (beginPassage a s).pool = s.pool :=
  updAccess_updSeq_pool s (fun _ => rfl) rfl

@[simp] theorem headerFill_pool : (headerFill a s).pool = s.pool := by
  unfold headerFill
  (repeat' split) <;> simp

@[simp] theorem dataWritten_pool : (dataWritten a s).pool = s.pool := by
  refine (updAccess_updSeq_pool _ ?_ ?_).trans (putData_pool ..)
  exacts [fun _ => rfl, rfl]

@[simp] theorem beginMount_pool : (beginMount s).pool = s.pool := by
  unfold beginMount
  dsimp only
  (repeat' split) <;> simp

@[simp] theorem storeEnds_pool : (storeEnds s).pool = (endAccess s).pool := rfl

/-- A departure takes the access from the drive as its end would. -/
@[simp] theorem seqDeparts_pool : (seqDeparts s).pool = (endAccess s).pool := by
  unfold seqDeparts
  dsimp only
  (repeat' split) <;> rfl

/-! ## Entries and posted writes (R84, R89, R102, R103, R108) -/

@[simp] theorem reportSector_pool (c : Condition) : (reportSector a c s).pool = s.pool := by
  unfold reportSector reportCondition
  split
  exacts [updEntry_pool _ _ (fun _ => rfl), rfl]

@[simp] theorem reportTornAppend_pool : (reportTornAppend s).pool = s.pool := by
  unfold reportTornAppend
  (repeat' split) <;> simp

@[simp] theorem countCommitted_pool : (countCommitted a s).pool = s.pool := by
  unfold countCommitted
  split
  exacts [updPosted_pool _ _ (fun _ => rfl), rfl]

@[simp] theorem pendingReleased_pool (e : Entry) : (pendingReleased e s).pool = s.pool := by
  unfold pendingReleased
  split <;> simp

@[simp] theorem postedTold_pool (p : Posted) : (postedTold p s).pool = s.pool := by
  unfold postedTold
  split <;> simp

end Operations

end Sys2Proof.Machine
end

section
/-! PROOFS. O9: the rules of the buffer pool: what a change of a port, an entry, a posted write or the access asks for, so that the laws of the
pool stay (R96 to R98, R115, R177). -/

namespace Sys2Proof.Machine

open Sys2Proof.Safety

variable {s t : State} {ch : Channel} {n : Nat} {a : Access}

/-! ## Ports (R96, R177) -/

/-- What is owed stays so where entries leave, or change but for order and channel without coming back from FINISHED. -/
theorem dueLawful_mono {d : Due} (hd : dueLawful s ch d) (hn : s.nextOrder ≤ t.nextOrder)
    (hw : ∀ e ∈ t.work, e.order < s.nextOrder →
      ∃ x ∈ s.work, x.order = e.order ∧ x.channel = e.channel ∧ (x.state = .finished → e.state = .finished)) : dueLawful t ch d := by
  cases d with
  | entry m =>
    obtain ⟨hm, hown⟩ := hd
    refine ⟨hm.trans_le hn, fun e he hord => ?_⟩
    obtain ⟨x, hx, hxo, hxc, hxs⟩ := hw e he (hord ▸ hm)
    obtain ⟨hc, hs⟩ := hown x hx (hxo.trans hord)
    exact ⟨hxc ▸ hc, hxs hs⟩
  | stage | sweep => exact hd

theorem updPort_holding (f : Port → Port) (c : Channel) :
    (s.updPort ch f).holding c + (if c = ch then (s.port ch).holding else 0)
      = s.holding c + (if c = ch then (f (s.port ch)).holding else 0) := by
  rw [holding_eq, holding_eq, updPort_port, State.updPort_work, State.updPort_posted]
  split
  · next h =>
    subst h
    omega
  · rfl

theorem PoolBase.updPort (h : PoolBase s) {f : Port → Port} (hd : ∀ d ∈ (f (s.port ch)).due, dueLawful s ch d)
    (hh : (f (s.port ch)).holding + s.holding ch ≤ (s.port ch).holding + s.settings.quota ch) : PoolBase (s.updPort ch f) where
  orders := h.orders
  quotas := h.quotas
  due c d hmem := by
    rw [updPort_port] at hmem
    split at hmem
    · next heq =>
      subst heq
      exact hd d hmem
    · exact h.due c d hmem
  reads := h.reads
  access := h.access
  held c := by
    have hsum := updPort_holding (s := s) (ch := ch) f c
    have hheld := h.held c
    show (s.updPort ch f).holding c ≤ s.settings.quota c
    split at hsum
    · next heq =>
      subst heq
      omega
    · omega

theorem PoolLawful.updPort (h : PoolLawful s) {f : Port → Port} (hd : ∀ d ∈ (f (s.port ch)).due, dueLawful s ch d)
    (hh : (f (s.port ch)).holding + s.holding ch ≤ (s.port ch).holding + s.settings.quota ch) : PoolLawful (s.updPort ch f) :=
  ⟨h.toPoolBase.updPort hd hh, h.run⟩

/-- A port that holds no more than before, and owes nothing new. -/
theorem PoolLawful.lessPort (h : PoolLawful s) {f : Port → Port} (hd : (f (s.port ch)).due ⊆ (s.port ch).due)
    (hh : (f (s.port ch)).holding ≤ (s.port ch).holding) : PoolLawful (s.updPort ch f) :=
  h.updPort (fun d hmem => h.due ch d (hd hmem)) (Nat.add_le_add hh (h.held ch))

theorem PoolLawful.addDue (h : PoolLawful s) {d : Due} (hd : dueLawful s ch d) : PoolLawful (addDue ch d s) := by
  refine h.updPort (fun x hx => ?_) (Nat.add_le_add_left (h.held ch) _)
  obtain hx | rfl := List.mem_append.1 hx |>.imp id List.mem_singleton.1
  exacts [h.due ch x hx, hd]

/-! ## Entries (R71, R72, R98) -/

/-- What an entry may become in its list: of the same order and channel, FINISHED where it was, with sectors left where it is a READ that
waits, and holding more by no more than its channel's unused quota. -/
structure EntryMoves (s : State) (e x : Entry) : Prop where
  finished : e.state = .finished → x.state = .finished
  reads : x.kind = .read → x.state = .queued ∨ x.state = .parked → x.done < x.count
  room : x.holding ≤ e.holding + s.unused e.channel

theorem updEntry_mem {f : Entry → Entry} {e : Entry} (he : e ∈ (updEntry n f s).work) :
    ∃ x ∈ s.work, (x.order = n ∧ f x = e) ∨ (x.order ≠ n ∧ x = e) := by
  obtain ⟨x, hx, heq⟩ := List.mem_map.1 he
  by_cases hn : x.order = n
  · exact ⟨x, hx, .inl ⟨hn, by simpa only [if_pos hn] using heq⟩⟩
  · exact ⟨x, hx, .inr ⟨hn, by simpa only [if_neg hn] using heq⟩⟩

/-- One entry changed: its channel's holding changes by what that entry's does. -/
theorem updEntry_holding (ho : OrdersLawful s) {e : Entry} (he : e ∈ s.work) {f : Entry → Entry} (hc : (f e).channel = e.channel)
    (c : Channel) :
    (updEntry e.order f s).holding c + (if c = e.channel then e.holding else 0)
      = s.holding c + (if c = e.channel then (f e).holding else 0) := by
  have hsum := workHeld_change c (work_orders_nodup ho) he f
  rw [holding_eq, holding_eq]
  show (s.port c).holding + workHeld c (updEntry e.order f s).work + postedHeld c s.posted + _ = _
  by_cases heq : c = e.channel
  · subst heq
    rw [share_own, ← hc, share_own, hc] at hsum
    rw [if_pos rfl, if_pos rfl]
    unfold updEntry
    dsimp only
    omega
  · rw [share_other (fun h => heq h.symm), share_other (fun h => heq (hc.symm.trans h).symm)] at hsum
    rw [if_neg heq, if_neg heq]
    unfold updEntry
    dsimp only
    omega

theorem PoolBase.updEntry (h : PoolBase s) {f : Entry → Entry} (hf : ∀ x, (f x).order = x.order ∧ (f x).channel = x.channel)
    (he : ∀ e ∈ s.work, e.order = n → EntryMoves s e (f e)) : PoolBase (updEntry n f s) where
  orders := updEntry_ordersLawful h.orders (fun x => (hf x).1)
  quotas := h.quotas
  due c d hmem := by
    refine dueLawful_mono (h.due c d hmem) le_rfl (fun e hmem _ => ?_)
    obtain ⟨x, hx, ⟨hn, rfl⟩ | ⟨-, rfl⟩⟩ := updEntry_mem hmem
    exacts [⟨x, hx, (hf x).1.symm, (hf x).2.symm, (he x hx hn).finished⟩, ⟨x, hx, rfl, rfl, id⟩]
  reads e hmem := by
    obtain ⟨x, hx, ⟨hn, rfl⟩ | ⟨-, rfl⟩⟩ := updEntry_mem hmem
    exacts [(he x hx hn).reads, h.reads x hx]
  access := h.access
  held c := by
    show (Machine.updEntry n f s).holding c ≤ s.settings.quota c
    have hheld := h.held c
    by_cases hn : n ∈ s.work.map (fun e => e.order)
    · obtain ⟨e, hmem, rfl⟩ := List.mem_map.1 hn
      have hsum := updEntry_holding h.orders hmem (hf e).2 c
      have hroom := (he e hmem rfl).room
      have hquota : s.unused e.channel = s.settings.quota e.channel - s.holding e.channel := rfl
      split at hsum
      · next heq =>
        subst heq
        omega
      · omega
    · rwa [Machine.updEntry, map_order_absent hn]

theorem PoolLawful.updEntry (h : PoolLawful s) {f : Entry → Entry} (hf : ∀ x, (f x).order = x.order ∧ (f x).channel = x.channel)
    (he : ∀ e ∈ s.work, e.order = n → EntryMoves s e (f e))
    (hr : ∀ a ∈ s.seq.access, a.owner = .entry n → ∀ e ∈ s.work, e.order = n → runFits a e → runFits a (f e)) :
    PoolLawful (updEntry n f s) where
  toPoolBase := h.toPoolBase.updEntry hf he
  run a m ha hown := by
    obtain ⟨e, hmem, hord, hfits⟩ := h.run a m ha hown
    refine ⟨_, List.mem_map_of_mem hmem, ?_⟩
    by_cases hn : e.order = n
    · rw [if_pos hn]
      exact ⟨(hf e).1.trans hord, hr a ha (hown.trans (congrArg Owner.entry (hord.symm.trans hn))) e hmem hn hfits⟩
    · rw [if_neg hn]
      exact ⟨hord, hfits⟩

theorem PoolLawful.dropEntry (h : PoolLawful s) (hu : Unowned n s) : PoolLawful (dropEntry n s) := by
  have hgone : PoolLawful { s with work := s.work.filter (fun e => e.order ≠ n) } :=
    { orders := ((LimitsKept.refl s).workFiltered _).orders h.orders
      quotas := h.quotas
      due := fun c d hd => dueLawful_mono (h.due c d hd) le_rfl (fun e he _ => ⟨e, (List.mem_filter.1 he).1, rfl, rfl, id⟩)
      reads := fun e he => h.reads e (List.mem_filter.1 he).1
      access := h.access
      held := fun c => le_trans (Nat.add_le_add_right (Nat.add_le_add_left (workHeld_filter_le c _ s.work) _) _) (h.held c)
      run := fun a m ha hown => by
        obtain ⟨e, he, hord, hfits⟩ := h.run a m ha hown
        refine ⟨e, List.mem_filter.2 ⟨he, decide_eq_true fun hn => hu a ha ?_⟩, hord, hfits⟩
        rw [hown, ← hord, hn] }
  exact hgone.same (placeFreed_pool _)

/-- The entry that leaves makes room for what it held. -/
theorem dropEntry_holding {e : Entry} (he : e ∈ s.work) : (dropEntry e.order s).holding e.channel + e.holding ≤ s.holding e.channel := by
  have hsum := workHeld_drop e.channel he
  rw [share_own] at hsum
  have hfreed : (dropEntry e.order s).holding e.channel
      = ({ s with work := s.work.filter (fun x => x.order ≠ e.order) } : State).holding e.channel := holding_of_pool (placeFreed_pool _) _
  rw [hfreed, holding_eq, holding_eq]
  dsimp only
  show (s.port e.channel).holding + _ + _ + _ ≤ _
  omega

/-! ## Posted writes (R103), the next order (R50), the settings (R66) -/

theorem PoolLawful.postedLess (h : PoolLawful s) {l : List Posted} (ho : OrdersLawful { s with posted := l })
    (hl : ∀ c, postedHeld c l ≤ postedHeld c s.posted) : PoolLawful { s with posted := l } where
  orders := ho
  quotas := h.quotas
  due := h.due
  reads := h.reads
  access := h.access
  held c := le_trans (Nat.add_le_add_left (hl c) _) (h.held c)
  run := h.run

theorem PoolLawful.updPosted (h : PoolLawful s) {f : Posted → Posted}
    (hf : ∀ p, (f p).order = p.order ∧ (f p).channel = p.channel ∧ (f p).buffers.length ≤ p.buffers.length) :
    PoolLawful (updPosted n f s) := by
  refine h.postedLess (l := s.posted.map (fun p => if p.order = n then f p else p)) ?_ (fun c => postedHeld_map_le c (fun p => ?_) _)
  · exact ((LimitsKept.refl s).same (updPosted_ledger s n (fun p => (hf p).1))).orders h.orders
  · obtain ⟨-, hc, hlen⟩ := hf p
    unfold Posted.share
    by_cases hn : p.order = n
    · rw [if_pos hn, hc]
      split
      exacts [hlen, le_rfl]
    · rw [if_neg hn]

theorem PoolLawful.orderUsed (h : PoolLawful s) : PoolLawful { s with nextOrder := s.nextOrder + 1 } where
  orders := (LimitsKept.refl s).orderUsed.orders h.orders
  quotas := h.quotas
  due c d hd := dueLawful_mono (h.due c d hd) (Nat.le_succ _) (fun e he _ => ⟨e, he, rfl, rfl, id⟩)
  reads := h.reads
  access := h.access
  held := h.held
  run := h.run

theorem PoolLawful.setSettings (h : PoolLawful s) {x : Settings} (hq : x.quotaA + x.quotaB ≤ 24) (hheld : ∀ c, s.holding c ≤ x.quota c) :
    PoolLawful { s with settings := x } where
  orders := h.orders
  quotas := hq
  due := h.due
  reads := h.reads
  access := h.access
  held := hheld
  run := h.run

/-! ## The access in progress (R115) -/

theorem PoolBase.endAccess (h : PoolBase s) : PoolLawful (endAccess s) :=
  PoolBase.idle ⟨h.orders, h.quotas, h.due, h.reads, fun _ ha => (Option.not_mem_none _ ha).elim, h.held⟩ rfl

/-- An access of its owner's kind begins, with a run that fits its entry. -/
theorem PoolBase.beginAccess (h : PoolBase s) (ha : accessLawful a) (hr : ∀ n, a.owner = .entry n → runLawful s a n) :
    PoolLawful (beginAccess a s) := by
  have hbegun : PoolLawful (updSeq (fun q => { q with access := some a, seekTimeouts := 0, mismatches := 0 }) s) :=
    { orders := h.orders
      quotas := h.quotas
      due := h.due
      reads := h.reads
      access := fun b hb => Option.some.inj hb ▸ ha
      held := h.held
      run := fun b n hb hown => by
        obtain rfl := Option.some.inj hb
        exact hr n hown }
  exact hbegun.same (approach_pool _)

/-- An access changed but for its owner and kind: a read asks no stop, and a run of a READ fits its entry still. -/
theorem PoolLawful.updAccess (h : PoolLawful s) {f : Access → Access}
    (hf : ∀ b, s.seq.access = some b → (f b).owner = b.owner ∧ (f b).kind = b.kind ∧ (b.kind.writes = false → (f b).stops = []))
    (hr : ∀ b, s.seq.access = some b → ∀ e ∈ s.work, runFits b e → runFits (f b) e) : PoolLawful (updAccess f s) where
  orders := h.orders
  quotas := h.quotas
  due := h.due
  reads := h.reads
  access c hc := by
    obtain ⟨b, hb, rfl⟩ := Option.map_eq_some_iff.1 hc
    obtain ⟨hown, hkind, hstops⟩ := hf b hb
    exact ⟨hown ▸ hkind ▸ (h.access b hb).1, fun hw => hstops (hkind ▸ hw)⟩
  held := h.held
  run c n hc hown := by
    obtain ⟨b, hb, rfl⟩ := Option.map_eq_some_iff.1 hc
    obtain ⟨e, he, hord, hfits⟩ := h.run b n hb ((hf b hb).1 ▸ hown)
    exact ⟨e, he, hord, hr b hb e he hfits⟩

/-! ## Short reservations (R98) -/

theorem PoolLawful.topUpOne (h : PoolLawful s) {e : Entry} (he : e.key ∈ s.work.map Entry.key) : PoolLawful (topUpOne ch s e) := by
  unfold Machine.topUpOne
  split
  · next hshort =>
    obtain ⟨y, hy, hkey⟩ := List.mem_map.1 he
    obtain ⟨hyo, hyc⟩ := Prod.mk.inj hkey
    refine h.updEntry (fun _ => ⟨rfl, rfl⟩) (fun x hx hord => ⟨id, h.reads x hx, ?_⟩) (fun _ _ _ _ _ _ hfits => hfits)
    have hxc : x.channel = ch := by rw [eq_of_order (work_orders_nodup h.orders) hx hy (hord.trans hyo.symm), hyc, hshort.1]
    rw [hxc]
    show x.writeBuffers.length + x.readBuffers.length + x.allocated
      + (x.reserved + min (e.reservationGoal - e.reserved) (s.unused ch)) ≤ x.holding + s.unused ch
    have : x.holding = x.writeBuffers.length + x.readBuffers.length + x.allocated + x.reserved := rfl
    omega
  · exact h

theorem topUpOne_keys (ch : Channel) (s : State) (e : Entry) : (topUpOne ch s e).work.map Entry.key = s.work.map Entry.key := by
  obtain ⟨w, hw, hbare⟩ := topUpOne_work ch s e
  have hkeys := congrArg (List.map Entry.key) hbare
  rw [List.map_map, List.map_map] at hkeys
  rw [hw]
  exact hkeys

theorem PoolLawful.topUp (h : PoolLawful s) (ch : Channel) : PoolLawful (topUp ch s) := by
  have hlist : ∀ (l : List Entry) (s : State), PoolLawful s → (∀ e ∈ l, e.key ∈ s.work.map Entry.key) →
      PoolLawful (l.foldl (Machine.topUpOne ch) s) := by
    intro l
    induction l with
    | nil => exact fun s h _ => h
    | cons e l ih =>
      intro s h hkeys
      refine ih _ (h.topUpOne (hkeys e (List.mem_cons_self ..))) (fun x hx => ?_)
      rw [topUpOne_keys]
      exact hkeys x (List.mem_cons_of_mem _ hx)
  exact hlist s.work s h (fun e he => List.mem_map_of_mem he)

theorem PoolLawful.topUpBoth (h : PoolLawful s) : PoolLawful (topUpBoth s) := (h.topUp .A).topUp .B

end Sys2Proof.Machine
end

section
/-! PROOFS. O9: replies placed, work ended, the sweep's bookkeeping and the settling of a step keep the laws of the buffer pool (R47, R90, R104,
R108, R157, R158, R167 to R174, R177). -/

namespace Sys2Proof.Machine

open Sys2Proof.Safety

variable {s t : State} {ch : Channel} {n m : Nat} {k : Slot} {code : Code} {r : Request}

theorem Unowned.same (hu : Unowned n s) (hp : t.pool = s.pool) : Unowned n t := fun b hb hown => by
  obtain ⟨a, ha, heq⟩ := access_of_role (role_of_pool hp) hb
  exact hu a ha ((congrArg Prod.fst heq).symm.trans hown)

theorem Unowned.of_seq (hu : Unowned n s) (hs : t.seq = s.seq) : Unowned n t := fun a ha => hu a (hs ▸ ha)

/-! ## Replies (R47, R177) -/

theorem queue_append_holding (p : Port) (x : Reply) : ({ p with queue := p.queue ++ [x] } : Port).holding = p.holding + x.holding := by
  simp only [Port.holding, List.map_append, List.map_cons, List.map_nil, List.sum_append, List.sum_cons, List.sum_nil]
  omega

/-- A completion holds of its entry's buffers those that were read (R98). -/
theorem completion_holding_le (e : Entry) : (Reply.completion e.completion).holding ≤ e.holding := by
  have hread : e.readBuffers.length ≤ e.holding := by
    unfold Entry.holding
    omega
  simp only [Reply.holding, Entry.completion, Entry.body]
  cases e.kind
  case read => exact hread
  all_goals exact Nat.zero_le _

theorem PoolLawful.placeReply (h : PoolLawful s) {d : Due} (hd : dueLawful s ch d) : PoolLawful (placeReply ch d s) := by
  cases d with
  | stage =>
    simp only [Machine.placeReply]
    split
    · next x hx =>
      refine h.lessPort (fun _ hmem => hmem) (le_of_eq ?_)
      simp only [Port.holding, hx, Stage.holding, List.map_append, List.map_cons, List.map_nil, List.sum_append, List.sum_cons, List.sum_nil]
      omega
    · exact h
  | entry n =>
    simp only [Machine.placeReply]
    split
    · next e he =>
      obtain rfl := entry_order he
      have hmem := mem_of_entry he
      obtain ⟨rfl, hfinished⟩ := hd.2 e hmem rfl
      have hdrop := h.dropEntry (h.unowned hmem (by rw [hfinished]; simp))
      have hroom := dropEntry_holding hmem
      have hheld := h.held e.channel
      have hle := completion_holding_le e
      rw [show Machine.dropEntry e.order (s.updPort e.channel (fun p => { p with queue := p.queue ++ [.completion e.completion] }))
        = (Machine.dropEntry e.order s).updPort e.channel (fun p => { p with queue := p.queue ++ [.completion e.completion] }) by
          cases e.channel <;> rfl]
      refine hdrop.updPort (hdrop.due e.channel) ?_
      rw [queue_append_holding]
      show _ ≤ _ + s.settings.quota e.channel
      omega
    · exact h
  | sweep c =>
    have hnone : (Reply.completion c).holding = 0 := (replyHolding_eq _).trans hd
    show PoolLawful (s.updPort ch (fun p => { p with queue := p.queue ++ [.completion c] }))
    refine h.lessPort (List.Subset.refl _) (le_of_eq ?_)
    rw [queue_append_holding, hnone]
    rfl

/-- Placing a reply leaves the due list to be cut by the placing of the whole. -/
theorem dueList_placeReply (ch : Channel) (d : Due) (s : State) : ((placeReply ch d s).port ch).due = (s.port ch).due := by
  cases d with
  | stage =>
    simp only [placeReply]
    split <;> simp
  | entry n =>
    simp only [placeReply]
    split
    · rw [(dropEntry_port n _ ch).2.1, updPort_port_same]
    · rfl
  | sweep c => simp [placeReply]

theorem PoolLawful.placeList (h : PoolLawful s) {ds : List Due} (hds : ds ⊆ (s.port ch).due) : PoolLawful (placeList ch ds s) := by
  induction ds generalizing s with
  | nil => exact h.lessPort (List.nil_subset _) le_rfl
  | cons d ds ih =>
    obtain ⟨hd, hds'⟩ := List.cons_subset.1 hds
    unfold Machine.placeList
    split
    · exact ih (h.placeReply (h.due ch d hd)) (dueList_placeReply ch d s ▸ hds')
    · exact h.lessPort hds le_rfl

theorem PoolLawful.placeDue (h : PoolLawful s) (ch : Channel) : PoolLawful (placeDue ch s) := h.placeList (List.Subset.refl _)

theorem stage_holding (p : Port) (st : Stage) : ({ p with stage := st } : Port).holding + p.stage.holding = p.holding + st.holding := by
  simp only [Port.holding]
  omega

/-- What comes to stand in the stage holds no more than what stood there. -/
theorem PoolLawful.setStage (h : PoolLawful s) {st : Stage} (hst : st.holding ≤ (s.port ch).stage.holding) :
    PoolLawful (s.updPort ch (fun p => { p with stage := st })) := by
  refine h.lessPort (List.Subset.refl _) ?_
  have := stage_holding (s.port ch) st
  omega

/-- A reply that holds no buffer is formed in the stage, whose buffers go with what stood in it. -/
theorem PoolLawful.formReply (h : PoolLawful s) {x : Reply} (hx : x.holding = 0) : PoolLawful (formReply ch x s) := by
  have hformed := h.setStage (ch := ch) (st := .reply x) (by rw [Stage.holding, hx]; exact Nat.zero_le _)
  exact (hformed.addDue (ch := ch) (d := .stage) trivial).placeDue ch

theorem PoolLawful.complete (h : PoolLawful s) {body : Body} (hb : (Reply.completion (r.completion code body)).holding = 0) :
    PoolLawful (complete ch r code body s) := h.orderUsed.formReply hb

theorem PoolLawful.refuse (h : PoolLawful s) : PoolLawful (refuse ch r code s) :=
  (h.formReply (x := .completion (r.completion code .none)) rfl).topUp ch

/-! ## Endings of work (R90, R91, R104, R108) -/

theorem pendingReleased_work (e : Entry) (s : State) : (pendingReleased e s).work = s.work := by
  obtain ⟨g, hg⟩ := pendingReleased_extents e
  rw [hg]

theorem endEntry_seq (n : Nat) (code : Code) (s : State) : (endEntry n code s).seq = s.seq := by rw [endEntry_frame]

theorem finishedWith_moves (e : Entry) (code : Code) : EntryMoves s e (e.finishedWith code) := by
  refine ⟨fun _ => rfl, fun _ hstate => ?_, ?_⟩
  · rcases hstate with hstate | hstate <;> cases hstate
  · simp only [Entry.finishedWith, Entry.holding, List.length_nil]
    omega

theorem PoolLawful.endEntry (h : PoolLawful s) (hu : Unowned n s) : PoolLawful (endEntry n code s) := by
  cases he : s.entry n with
  | none => rwa [endEntry_none he]
  | some e =>
    obtain rfl := entry_order he
    have hreleased := h.same (pendingReleased_pool s e)
    have hu' := hu.same (pendingReleased_pool s e)
    rw [endEntry_some he]
    split
    · exact hreleased.dropEntry hu'
    · have hfinished := hreleased.updEntry (n := e.order) (f := Entry.finishedWith code) (fun _ => ⟨rfl, rfl⟩)
        (fun x _ _ => finishedWith_moves x code) (fun a ha hown => absurd hown (hu' a ha))
      refine hfinished.addDue ⟨?_, fun x hx hord => ?_⟩
      · exact (nextOrder_of_pool (pendingReleased_pool s e)).symm ▸ h.orders.2.1 e (mem_of_entry he)
      · obtain ⟨y, hy, ⟨hyo, rfl⟩ | ⟨hyo, rfl⟩⟩ := updEntry_mem hx
        · rw [pendingReleased_work] at hy
          obtain rfl := eq_of_order (work_orders_nodup h.orders) hy (mem_of_entry he) hyo
          exact ⟨rfl, rfl⟩
        · exact absurd hord hyo

theorem PoolLawful.endEntries (h : PoolLawful s) {ns : List Nat} (hu : ∀ n ∈ ns, Unowned n s) : PoolLawful (endEntries ns code s) := by
  induction ns generalizing s with
  | nil => exact h
  | cons n ns ih =>
    refine ih (h.endEntry (hu n (List.mem_cons_self ..))) (fun m hm => ?_)
    exact (hu m (List.mem_cons_of_mem _ hm)).of_seq (endEntry_seq ..)

theorem endFlush_seq (s : State) (e : Entry) : (endFlush s e).seq = s.seq := by
  obtain heq | ⟨-, -, heq⟩ := endFlush_eq s e
  · rw [heq]
  · rw [heq, endEntry_seq]

/-- The FLUSHes of a list end, where they watch nothing more; no run is theirs. -/
theorem PoolLawful.endFlushes (h : PoolLawful s) {l : List Entry} (hu : ∀ e ∈ l, e.state = .watching → Unowned e.order s) :
    PoolLawful (l.foldl endFlush s) := by
  induction l generalizing s with
  | nil => exact h
  | cons e l ih =>
    have hended : PoolLawful (endFlush s e) := by
      obtain heq | ⟨hwatching, -, heq⟩ := endFlush_eq s e
      · rwa [heq]
      · rw [heq]
        exact h.endEntry (hu e (List.mem_cons_self ..) hwatching)
    exact ih hended (fun x hx hwatching => (hu x (List.mem_cons_of_mem _ hx) hwatching).of_seq (endFlush_seq s e))

theorem sawEnd_pool (n : Nat) (fault : Bool) (e : Entry) : (e.sawEnd n fault).pool = e.pool := by
  unfold Entry.sawEnd
  split <;> rfl

theorem PoolLawful.postedLeaves (h : PoolLawful s) (fault : Bool) : PoolLawful (postedLeaves n fault s) := by
  have hless : PoolLawful { s with posted := s.posted.filter (fun p => p.order ≠ n) } :=
    h.postedLess (((LimitsKept.refl s).postedFiltered _).orders h.orders) (fun c => postedHeld_filter_le c _ _)
  have hgone : PoolLawful (postedGone n fault s) := by
    refine hless.same ((placeFreed_pool _).trans ?_)
    unfold State.pool
    dsimp only
    rw [work_map_pool (sawEnd_pool n fault)]
  rw [postedLeaves_eq]
  exact hgone.endFlushes (fun e he hwatching => hgone.unowned he (by rw [hwatching]; simp))

theorem PoolLawful.leaveFaulted (h : PoolLawful s) (p : Posted) : PoolLawful (leaveFaulted p s) := by
  rw [leaveFaulted_eq]
  exact (h.same (postedTold_pool s p)).postedLeaves true

theorem PoolLawful.faultOne (h : PoolLawful s) : PoolLawful (faultOne n code s) := by
  unfold Machine.faultOne
  split
  · exact h
  · exact (h.same (logFault_pool ..)).leaveFaulted _

theorem PoolLawful.faultAll (h : PoolLawful s) (ns : List Nat) : PoolLawful (faultAll ns code s) := by
  induction ns generalizing s with
  | nil => exact h
  | cons n ns ih => exact ih h.faultOne

theorem PoolLawful.faultPosted (h : PoolLawful s) : PoolLawful (faultPosted n code s) := by
  unfold Machine.faultPosted
  split
  exacts [(h.faultAll _).faultOne, h.faultOne]

/-- The APPENDs that an extent's fill state ends are QUEUED or PARKED: no run is theirs (R23). -/
theorem PoolLawful.fillBecomesUnknown (h : PoolLawful s) : PoolLawful (fillBecomesUnknown k s) := by
  have hposted : ∀ (ps : List Posted) (s : State), PoolLawful s →
      PoolLawful (ps.foldl (fun s p => Machine.faultPosted p.order .fillUnknown s) s) := by
    intro ps
    induction ps with
    | nil => exact fun _ h => h
    | cons p ps ih => exact fun s h => ih _ h.faultPosted
  have hunknown : PoolLawful (updFill k (fun f => { f with state := .unknown }) s) := h.same (updFill_pool ..)
  refine hposted _ _ (hunknown.endEntries (fun n hn => ?_))
  obtain ⟨e, he, rfl⟩ := List.mem_map.1 hn
  obtain ⟨hmem, hwaits⟩ := List.mem_filter.1 he
  obtain ⟨-, -, hstate⟩ := of_decide_eq_true hwaits
  refine hunknown.unowned hmem ?_
  rcases hstate with hstate | hstate <;> rw [hstate] <;> simp

/-! ## The sweep (R163 to R174) -/

theorem PoolLawful.endSweep (h : PoolLawful s) (cause : Option StopCause) : PoolLawful (endSweep cause s) := by
  unfold Machine.endSweep
  split
  · exact h
  · next sw _ =>
    have hended : PoolLawful (raiseBoth .sweepEnd
        { markSlots false (sw.items.map (fun it => it.slot)) s with sweep := none, sweepSeen := true }) := h.same (by simp)
    dsimp only
    split
    exacts [hended, hended.addDue (d := .sweep (sw.completion cause)) rfl]

theorem PoolLawful.haltSweep (h : PoolLawful s) : PoolLawful (haltSweep s) := by
  unfold Machine.haltSweep
  repeat' split
  exacts [h, h.same rfl, h.endSweep _]

theorem PoolLawful.giveResult (h : PoolLawful s) (x : SweepResult) : PoolLawful (giveResult x s) := by
  unfold Machine.giveResult nextItem
  repeat' split
  exacts [h, h.same rfl, h.same rfl, h.same rfl, PoolLawful.endSweep (h.same (by rfl)) _]

theorem PoolLawful.stopAfterStep (h : PoolLawful s) (x : Option SweepResult) : PoolLawful (stopAfterStep x s) := by
  unfold Machine.stopAfterStep
  repeat' split
  exacts [h, PoolLawful.endSweep (h.same (by rfl)) _, h.endSweep _, h.endSweep _]

theorem PoolLawful.stepEnded (h : PoolLawful s) (x : Option SweepResult) : PoolLawful (stepEnded x s) := by
  unfold Machine.stepEnded
  repeat' split
  exacts [h, h.stopAfterStep _, h.giveResult _, h]

theorem PoolLawful.stepUnmade (h : PoolLawful s) : PoolLawful (stepUnmade s) := h.stepEnded none

theorem PoolLawful.clearingStepDone (h : PoolLawful s) : PoolLawful (clearingStepDone k m s) := by
  unfold Machine.clearingStepDone
  split
  exacts [PoolLawful.stepEnded (h.same (by rfl)) _, PoolLawful.stepEnded (h.same (by rfl)) _]

theorem PoolLawful.clearingStepFailed (h : PoolLawful s) : PoolLawful (clearingStepFailed k m s) := by
  have hfailed : PoolLawful (failItem s) := h.same rfl
  unfold Machine.clearingStepFailed
  dsimp only
  repeat' split
  exacts [PoolLawful.stepEnded (hfailed.same (by rfl)) _, hfailed.stepEnded _, PoolLawful.stepEnded (hfailed.same (by rfl)) _]

theorem PoolLawful.scanningStepEnded (h : PoolLawful s) (size : Nat) (failed : Bool) : PoolLawful (scanningStepEnded m size failed s) := by
  have hfailed : PoolLawful (if failed then failItem s else s) := by
    split
    exacts [h.same rfl, h]
  unfold Machine.scanningStepEnded
  dsimp only
  split
  exacts [PoolLawful.stepEnded (hfailed.same (by rfl)) _, hfailed.stepEnded _]

theorem PoolLawful.stepSeekError (h : PoolLawful s) : PoolLawful (stepSeekError s) := by
  unfold Machine.stepSeekError
  repeat' split
  exacts [h, h.stopAfterStep _, h.giveResult _]

theorem PoolLawful.protectSweep (h : PoolLawful s) : PoolLawful (protectSweep s) := by
  unfold Machine.protectSweep
  repeat' split
  exacts [h.same rfl, h.endSweep _, h, h]

/-! ## Settling (R98, R157, R158, R160, R177) -/

theorem PoolLawful.drainExpiry (h : PoolLawful s) : PoolLawful (drainExpiry s) := by
  unfold Machine.drainExpiry
  split
  · next hdrain =>
    have hended : PoolLawful (Machine.faultAll (s.posted.map (fun p => p.order)) .volumeGone
        (Machine.endEntries ((s.work.filter Entry.live).map (fun e => e.order)) .volumeGone s)) :=
      (h.endEntries (fun n _ => unowned_of_idle hdrain.2.2 n)).faultAll _
    unfold endVolumeWork
    dsimp only
    split
    exacts [hended.endSweep _, hended]
  · exact h

theorem PoolLawful.settle (h : PoolLawful s) : PoolLawful (settle s) := by
  have hplaced : PoolLawful (placeBoth (Machine.topUpBoth (Machine.drainExpiry s))) := (h.drainExpiry.topUpBoth.placeDue .A).placeDue .B
  exact hplaced.same (by simp [Machine.settle])

end Sys2Proof.Machine
end

section
/-! PROOFS. O9: admission keeps the laws of the buffer pool, whatever it does with a request: the buffers of what joins the lists are the stage's
(R47 to R66, R97, R102). -/

namespace Sys2Proof.Machine

open Sys2Proof.Safety

variable {s t : State} {ch : Channel} {r : Request} {body : Body} {code : Code}

/-! ## What joins the lists (R48, R71, R102) -/

/-- An entry of the next order joins the list, where the quota has room for what it holds. -/
theorem PoolLawful.addEntry (h : PoolLawful s) {e : Entry} (ho : e.order = s.nextOrder)
    (hh : s.holding e.channel + e.holding ≤ s.settings.quota e.channel) (hread : e.kind = .read → e.done < e.count) :
    PoolLawful { s with work := s.work ++ [e], nextOrder := s.nextOrder + 1 } where
  orders := by
    refine ordersLawful_joined h.orders rfl ?_
    simp only [List.map_append, List.map_cons, List.map_nil, List.append_assoc, ho]
    exact List.perm_middle
  quotas := h.quotas
  due c d hd := by
    refine dueLawful_mono (h.due c d hd) (Nat.le_succ _) (fun x hx hlt => ?_)
    obtain hx | rfl := List.mem_append.1 hx |>.imp id List.mem_singleton.1
    · exact ⟨x, hx, rfl, rfl, id⟩
    · exact absurd hlt (by omega)
  reads x hx hk hs := by
    obtain hx | rfl := List.mem_append.1 hx |>.imp id List.mem_singleton.1
    exacts [h.reads x hx hk hs, hread hk]
  access := h.access
  held c := by
    have hheld := h.held c
    show (s.port c).holding + workHeld c (s.work ++ [e]) + postedHeld c s.posted ≤ s.settings.quota c
    rw [workHeld_append, workHeld_cons, workHeld_nil]
    rw [holding_eq] at hheld
    by_cases heq : e.channel = c
    · subst heq
      rw [share_own]
      rw [holding_eq] at hh
      omega
    · rw [share_other heq]
      omega
  run a n ha hown := by
    obtain ⟨x, hx, hord, hfits⟩ := h.run a n ha hown
    exact ⟨x, List.mem_append_left _ hx, hord, hfits⟩

/-- A posted write of the next order joins the list, where the quota has room for its buffers. -/
theorem PoolLawful.addPosted (h : PoolLawful s) {p : Posted} (ho : p.order = s.nextOrder)
    (hh : s.holding p.channel + p.buffers.length ≤ s.settings.quota p.channel) :
    PoolLawful { s with posted := s.posted ++ [p], nextOrder := s.nextOrder + 1 } where
  orders := by
    refine ordersLawful_joined h.orders rfl ?_
    simp only [List.map_append, List.map_cons, List.map_nil, ← List.append_assoc, ho]
    exact List.perm_append_singleton ..
  quotas := h.quotas
  due := h.orderUsed.due
  reads := h.reads
  access := h.access
  held c := by
    have hheld := h.held c
    show (s.port c).holding + workHeld c s.work + postedHeld c (s.posted ++ [p]) ≤ s.settings.quota c
    rw [postedHeld_append, postedHeld_cons]
    rw [holding_eq] at hheld
    unfold Posted.share
    by_cases heq : p.channel = c
    · subst heq
      rw [if_pos rfl]
      rw [holding_eq] at hh
      show _ + _ + (_ + (_ + 0)) ≤ _
      omega
    · rw [if_neg heq]
      exact hheld
  run := h.run

/-- With the stage emptied, or a reply in it that holds nothing, the quota has room for what the stage held. -/
theorem PoolLawful.stageRoom (h : PoolLawful s) {st : Stage} (hst : st.holding = 0) {n : Nat} (hn : n ≤ (s.port ch).stage.holding) :
    (s.updPort ch (fun p => { p with stage := st })).holding ch + n ≤ s.settings.quota ch := by
  have hheld := h.held ch
  have hsum := updPort_holding (s := s) (ch := ch) (fun p => { p with stage := st }) ch
  have hstage := stage_holding (s.port ch) st
  simp only [if_true] at hsum
  omega

theorem PoolLawful.joinWork (h : PoolLawful s) {e : Entry} (hc : e.channel = ch) (ho : e.order = s.nextOrder)
    (hh : e.holding ≤ (s.port ch).stage.holding) (hread : e.kind = .read → e.done < e.count) : PoolLawful (joinWork ch e s) := by
  subst hc
  exact (h.setStage (st := .empty) (Nat.zero_le _)).addEntry ho (h.stageRoom rfl hh) hread

theorem PoolLawful.waitForPlace (h : PoolLawful s) (hr : r.holding ≤ (s.port ch).stage.holding) : PoolLawful (waitForPlace ch r s) :=
  h.setStage (st := .waiting r false) hr

theorem PoolLawful.joinOrWait (h : PoolLawful s) (hr : r.holding ≤ (s.port ch).stage.holding) {e : Entry} (hc : e.channel = ch)
    (ho : e.order = s.nextOrder) (hh : e.holding ≤ r.holding) (hread : e.kind = .read → e.done < e.count) :
    PoolLawful (joinOrWait ch r e s) := by
  unfold Machine.joinOrWait
  split
  exacts [h.joinWork hc ho (hh.trans hr) hread, h.waitForPlace hr]

/-- Posting (R102): the completion that takes the request's place in the stage holds nothing. -/
theorem PoolLawful.post (h : PoolLawful s) {p : Posted} (hc : p.channel = ch) (ho : p.order = s.nextOrder)
    (hh : p.buffers.length ≤ (s.port ch).stage.holding) : PoolLawful (post ch r p s) := by
  subst hc
  have hposted : ∀ x : Reply, x.holding = 0 →
      PoolLawful (Machine.formReply p.channel x { s with posted := s.posted ++ [p], nextOrder := s.nextOrder + 1 }) := fun x hx => by
    have hformed := h.setStage (ch := p.channel) (st := .reply x) (by rw [Stage.holding, hx]; exact Nat.zero_le _)
    exact ((hformed.addPosted ho (h.stageRoom (st := .reply x) hx hh)).addDue (ch := p.channel) (d := .stage) trivial).placeDue p.channel
  refine hposted _ ?_
  cases p.kind <;> rfl

/-! ## READ, WRITE, APPEND, FLUSH, MAP-STORE: the requests that may wait -/

/-- A request that becomes work keeps of its buffers the write data. -/
theorem buffers_le_holding (r : Request) : r.buffers.length ≤ r.holding := Nat.le_add_right _ _

theorem readOperands_count {o : DataOperands} (h : readOperands r = some o) : 0 < o.count := by
  revert h
  unfold readOperands
  (repeat' split) <;> rintro ⟨⟩
  next hform =>
  obtain ⟨-, hcount, -⟩ := hform
  exact hcount

theorem PoolLawful.admitRead (h : PoolLawful s) (hr : r.holding ≤ (s.port ch).stage.holding) : PoolLawful (admitRead ch r s) := by
  unfold Machine.admitRead
  repeat' split
  iterate 5 exact h.refuse
  next ho _ _ _ _ _ _ _ => exact h.joinOrWait hr rfl rfl (buffers_le_holding r) (fun _ => readOperands_count ho)

theorem PoolLawful.admitWrite (h : PoolLawful s) (hr : r.holding ≤ (s.port ch).stage.holding) : PoolLawful (admitWrite ch r s) := by
  unfold Machine.admitWrite
  repeat' split
  exacts [h.refuse, h.refuse, h.refuse, h.refuse, h.refuse, h.post rfl rfl ((buffers_le_holding r).trans hr),
    h.joinOrWait hr rfl rfl (buffers_le_holding r) (fun hk => by cases hk)]

theorem PoolLawful.admitAppend (h : PoolLawful s) (hr : r.holding ≤ (s.port ch).stage.holding) : PoolLawful (admitAppend ch r s) := by
  have hreserved : ∀ k n, PoolLawful (reserveAppend k n s) := fun k n => h.same (reserveAppend_pool ..)
  unfold Machine.admitAppend
  repeat' split
  exacts [h.refuse, h.refuse, h.refuse, h.refuse, h.refuse,
    (hreserved ..).post rfl rfl ((buffers_le_holding r).trans hr),
    (hreserved ..).joinWork rfl rfl ((buffers_le_holding r).trans hr) (fun hk => by cases hk), h.waitForPlace hr]

theorem PoolLawful.admitFlush (h : PoolLawful s) (hr : r.holding ≤ (s.port ch).stage.holding) : PoolLawful (admitFlush ch r s) := by
  unfold Machine.admitFlush
  repeat' split
  exacts [h.refuse, h.refuse, h.joinOrWait hr rfl rfl (Nat.zero_le _) (fun hk => by cases hk), h.complete rfl]

theorem PoolLawful.admitMapStore (h : PoolLawful s) (hr : r.holding ≤ (s.port ch).stage.holding) : PoolLawful (admitMapStore ch r s) := by
  unfold Machine.admitMapStore
  repeat' split
  exacts [h.refuse, h.refuse, h.refuse, h.refuse, h.refuse,
    h.joinOrWait hr rfl rfl (buffers_le_holding r) (fun hk => by cases hk)]

theorem PoolLawful.retakeRequest (h : PoolLawful s) (hr : r.holding ≤ (s.port ch).stage.holding) : PoolLawful (retakeRequest ch r s) := by
  unfold Machine.retakeRequest
  split
  exacts [h.admitRead hr, h.admitWrite hr, h.admitAppend hr, h.admitFlush hr, h.admitMapStore hr, h]

theorem PoolLawful.retakeStage (h : PoolLawful s) (ch : Channel) : PoolLawful (retakeStage ch s) := by
  unfold Machine.retakeStage
  split
  · next hst => exact h.retakeRequest (by rw [hst]; exact le_rfl)
  · exact h

/-! ## Requests whose effect is complete in the step -/

theorem PoolLawful.admitCancel (h : PoolLawful s) : PoolLawful (admitCancel ch r s) := by
  unfold Machine.admitCancel
  repeat' split
  case isTrue htarget hqueued =>
    have hu := h.unowned (List.mem_of_find?_eq_some htarget) (by rw [hqueued]; simp)
    exact ((h.endEntry hu).complete rfl).settle
  all_goals exact h.refuse

theorem PoolLawful.admitClaim (h : PoolLawful s) : PoolLawful (admitClaim ch r s) := by
  unfold Machine.admitClaim
  dsimp only
  repeat' split
  exacts [h.refuse, h.refuse, h.refuse, (h.same (by simp)).complete rfl, (h.same (by simp)).complete rfl, h.complete rfl]

theorem PoolLawful.admitMapRead (h : PoolLawful s) : PoolLawful (admitMapRead ch r s) := by
  unfold Machine.admitMapRead
  repeat' split
  exacts [h.refuse, h.refuse, h.refuse, h.complete rfl]

theorem PoolLawful.admitMapLoad (h : PoolLawful s) : PoolLawful (admitMapLoad ch r s) := by
  have hchanges : ∀ gs : List (Slot × Option Definition), (gs.foldl (applyChange ch) s).pool = s.pool := fun gs =>
    foldl_pool (fun s g => applyChange_pool s ch g) gs s
  unfold Machine.admitMapLoad
  repeat' split
  exacts [h.refuse, h.refuse, h.refuse, h.refuse, h.refuse, h.refuse, (h.same (by simp [hchanges])).complete rfl]

theorem PoolLawful.admitDefectRead (h : PoolLawful s) : PoolLawful (admitDefectRead ch r s) := by
  unfold Machine.admitDefectRead
  repeat' split
  exacts [h.refuse, h.refuse, h.refuse, h.complete rfl]

theorem PoolLawful.openSweep (h : PoolLawful s) (kind : SweepKind) (ks : List Slot) : PoolLawful (openSweep ch r kind ks s) := by
  have hleft := h.setStage (ch := ch) (st := .empty) (Nat.zero_le _)
  unfold Machine.openSweep
  cases kind with
  | clear => exact hleft.orderUsed.same (by simp)
  | scan => exact hleft.orderUsed.same (by simp)

theorem PoolLawful.joinSweep (h : PoolLawful s) (sw : Sweep) (ks : List Slot) : PoolLawful (joinSweep ch r sw ks s) := by
  unfold Machine.joinSweep
  dsimp only
  split
  exacts [h.refuse, (h.same (by simp)).complete rfl]

theorem PoolLawful.admitClear (h : PoolLawful s) : PoolLawful (admitClear ch r s) := by
  unfold Machine.admitClear
  repeat' split
  exacts [h.refuse, h.refuse, h.refuse, h.refuse, h.refuse, h.openSweep .., h.joinSweep .., h.refuse]

theorem PoolLawful.admitScan (h : PoolLawful s) : PoolLawful (admitScan ch r s) := by
  unfold Machine.admitScan
  repeat' split
  exacts [h.refuse, h.refuse, h.refuse, h.refuse, h.refuse, h.openSweep ..]

theorem PoolLawful.admitSweepHalt (h : PoolLawful s) : PoolLawful (admitSweepHalt ch r s) := by
  unfold Machine.admitSweepHalt
  repeat' split
  exacts [h.refuse, h.refuse, h.refuse, h.refuse, (h.haltSweep.complete rfl).settle]

theorem loadContext_pool (p : Port) (c : Context) : (p.loadContext c).pool = p.pool := by
  unfold Port.loadContext
  split <;> rfl

theorem PoolLawful.admitContext (h : PoolLawful s) : PoolLawful (admitContext ch r s) := by
  unfold Machine.admitContext
  repeat' split
  exacts [h.refuse, h.refuse, h.refuse, (h.same (updPort_pool _ _ (fun p => loadContext_pool p _))).complete rfl]

/-- The quotas that SETTINGS-LOAD accepts leave no more than 24 buffers to both channels (R66). -/
theorem settingsOf_quotas {ws : List Word} {x : Settings} (h : settingsOf ws = some x) : x.quotaA + x.quotaB ≤ 24 := by
  unfold settingsOf at h
  split at h
  · split at h
    · next hrange =>
      obtain ⟨-, -, -, -, hsum, -⟩ := hrange
      obtain rfl := Option.some.inj h
      exact hsum
    · cases h
  · cases h

theorem PoolLawful.admitSettingsLoad (h : PoolLawful s) : PoolLawful (admitSettingsLoad ch r s) := by
  unfold Machine.admitSettingsLoad
  repeat' split
  case isFalse hfits =>
    next x hx =>
    obtain ⟨hA, hB⟩ := not_or.1 hfits
    have hloaded := h.setSettings (settingsOf_quotas hx) (fun c => by cases c; exacts [not_lt.1 hA, not_lt.1 hB])
    exact (hloaded.complete rfl).topUpBoth
  all_goals exact h.refuse

theorem PoolLawful.admitStatus (h : PoolLawful s) : PoolLawful (admitStatus ch r s) := by
  unfold Machine.admitStatus
  repeat' split
  exacts [h.refuse, h.refuse, h.complete rfl]

theorem acknowledge_pool (p : Port) (es : EventSet) : (p.acknowledge es).pool = p.pool := rfl

theorem PoolLawful.admitEventAck (h : PoolLawful s) : PoolLawful (admitEventAck ch r s) := by
  unfold Machine.admitEventAck
  repeat' split
  exacts [h.refuse, h.refuse, (h.same (updPort_pool _ _ (fun p => acknowledge_pool p _))).complete rfl]

theorem PoolLawful.admitFaultRead (h : PoolLawful s) : PoolLawful (admitFaultRead ch r s) := by
  unfold Machine.admitFaultRead
  repeat' split
  exacts [h.refuse, h.refuse, (h.same (by rfl)).complete rfl]

theorem PoolLawful.admitTimeSet (h : PoolLawful s) : PoolLawful (admitTimeSet ch r s) := by
  unfold Machine.admitTimeSet
  repeat' split
  exacts [h.refuse, h.refuse, h.refuse, (h.same (by rfl)).complete rfl]

/-- Whatever the kind of the request that the stage holds. -/
theorem PoolLawful.admitAs (h : PoolLawful s) (hr : r.holding ≤ (s.port ch).stage.holding) (kind : ReqKind) :
    PoolLawful (admitAs kind ch r s) := by
  cases kind
  exacts [h.admitRead hr, h.admitWrite hr, h.admitAppend hr, h.admitFlush hr, h.admitCancel, h.admitClaim, h.admitMapRead, h.admitMapLoad,
    h.admitMapStore hr, h.admitDefectRead, h.admitClear, h.admitScan, h.admitSweepHalt, h.admitContext, h.admitSettingsLoad, h.admitStatus,
    h.admitEventAck, h.admitFaultRead, h.admitTimeSet]

theorem PoolLawful.takeRequest (h : PoolLawful s) (kind : ReqKind) : PoolLawful (takeRequest kind (Machine.admitAs kind) ch s) := by
  unfold Machine.takeRequest
  split
  · next hst =>
    split
    exacts [h.admitAs (by rw [hst]; exact le_rfl) kind, h]
  · exact h

end Sys2Proof.Machine
end

section
/-! PROOFS. O9: grants, the drive offered, and run boundaries keep the laws of the buffer pool (R79 to R84, R98, R103, R150 to R153, R168). -/

namespace Sys2Proof.Machine

open Sys2Proof.Safety

variable {s t : State} {ch : Channel} {n m : Nat} {k : Slot} {code : Code} {a : Access} {e : Entry} {torn : Bool}

/-! ## Accesses that begin (R115) -/

theorem runLength_le (m k : Nat) : runLength m k ≤ k := Nat.min_le_left ..

theorem runLength_pos (m : Nat) {k : Nat} (h : 0 < k) : 0 < runLength m k := by
  unfold runLength
  have := Nat.mod_lt m (show 24 > 0 by decide)
  omega

/-- An access that is no entry's run begins. -/
theorem PoolLawful.beginOther (h : PoolLawful s) (ha : accessLawful a) (hown : ∀ n, a.owner ≠ .entry n) : PoolLawful (beginAccess a s) :=
  h.beginAccess ha (fun n hn => absurd hn (hown n))

/-- A writing access fits an ACTIVE entry that is no READ, wherever it stands. -/
theorem runLawful_writing (hp : t.pool = s.pool) (he : e ∈ s.work) (hactive : e.state = .active) (hkind : e.kind ≠ .read)
    (ha : a.kind ≠ .readRun) : runLawful t a e.order := by
  obtain ⟨x, hx, heq⟩ := mem_of_pool hp.symm he
  simp only [Entry.pool, Prod.mk.injEq] at heq
  obtain ⟨ho, -, hk, hs, -⟩ := heq
  exact ⟨x, hx, ho, hs.trans hactive, ⟨fun h => absurd h ha, fun h => absurd (hk.symm.trans h) hkind⟩,
    fun h => absurd (hk.symm.trans h) hkind⟩

/-! ## Grants to entries (R83) -/

/-- An entry as a grant makes it ACTIVE. -/
def Entry.activated (e : Entry) : Entry := { e with state := .active, deadline := none }

theorem activated_moves (h : e.state ≠ .finished) : EntryMoves s e e.activated := by
  refine ⟨fun hf => absurd hf h, fun _ hs => ?_, Nat.le_add_right _ _⟩
  rcases hs with hs | hs <;> cases hs

theorem PoolLawful.activate (h : PoolLawful s) (hidle : s.seq.access = none) (he : e ∈ s.work) (hlive : e.state ≠ .finished) :
    PoolLawful (Machine.updEntry e.order Entry.activated s) :=
  h.updEntry (fun _ => ⟨rfl, rfl⟩)
    (fun x hx hord => by
      obtain rfl := eq_of_order (work_orders_nodup h.orders) hx he hord
      exact activated_moves hlive)
    (fun a ha hown => absurd hown (unowned_of_idle hidle e.order a ha))

/-- A READ's run: its buffers and the next run's reservation are what the unused quota and its own reservation cover. -/
theorem PoolLawful.grantRead (h : PoolLawful s) (he : e.activated ∈ s.work) (hk : e.kind = .read)
    (hmore : e.done < e.count) (hcovers : runLength (e.first + e.done) e.remaining ≤ s.unused e.channel + e.reserved) :
    PoolLawful (grantRead e s) := by
  have hremaining : e.remaining = e.count - e.done := rfl
  have hpos := runLength_pos (e.first + e.done) (k := e.remaining) (by omega)
  have hle := runLength_le (e.first + e.done) e.remaining
  unfold Machine.grantRead
  dsimp only
  generalize runLength (e.first + e.done) e.remaining = len at *
  generalize hnext : min (s.unused e.channel + e.reserved - len) _ = next
  have hnext' : next ≤ s.unused e.channel + e.reserved - len := hnext ▸ Nat.min_le_left ..
  refine PoolBase.beginAccess (h.toPoolBase.updEntry (fun _ => ⟨rfl, rfl⟩) (fun x hx hord => ?_))
    ⟨List.mem_cons_self .., fun _ => rfl⟩ (fun n hn => ?_)
  · obtain rfl := eq_of_order (work_orders_nodup h.orders) hx he hord
    refine ⟨id, fun _ hs => ?_, ?_⟩
    · rcases hs with hs | hs <;> cases hs
    · simp only [Entry.holding, Entry.activated]
      omega
  · obtain rfl := Owner.entry.inj hn
    refine ⟨_, List.mem_map_of_mem he, ?_⟩
    rw [if_pos (show e.activated.order = e.order from rfl)]
    exact ⟨rfl, rfl, ⟨fun _ => hk, fun _ => rfl⟩, fun _ => ⟨Nat.lt_add_of_pos_right hpos, (Nat.add_sub_cancel_left ..).le,
      by show e.done + 0 + (e.first + e.done + len - (e.first + e.done)) ≤ e.count; omega, by simp [Access.begin], by simp [Access.begin]⟩⟩

theorem PoolLawful.grantWrite (h : PoolLawful s) (he : e.activated ∈ s.work) (hk : e.kind ≠ .read) :
    PoolLawful (grantWrite e s) := by
  have hp : (Machine.updEntry e.order (fun x => { x with run := some (e.first + e.done, runLength (e.first + e.done) e.remaining),
                                                          tornNext := false }) s).pool = s.pool := updEntry_pool _ _ (fun _ => rfl)
  refine (h.same hp).beginAccess ⟨by simp [Access.begin, Owner.makes], fun _ => rfl⟩ (fun n hn => ?_)
  obtain rfl := Owner.entry.inj hn
  exact runLawful_writing (e := e.activated) hp he rfl hk (by simp [Access.begin])

theorem PoolLawful.grantAppend (h : PoolLawful s) (he : e.activated ∈ s.work) (hk : e.kind ≠ .read) (mark : Nat) :
    PoolLawful (grantAppend e mark s) := by
  have hp : (Machine.updEntry e.order (fun x => { x with run := some (mark, runLength mark e.remaining),
                                                          appendStart := some (x.appendStart.getD mark) }) s).pool = s.pool :=
    updEntry_pool _ _ (fun _ => rfl)
  refine (h.same hp).beginAccess ⟨by simp [Access.begin, Owner.makes], fun _ => rfl⟩ (fun n hn => ?_)
  obtain rfl := Owner.entry.inj hn
  exact runLawful_writing (e := e.activated) hp he rfl hk (by simp [Access.begin])

theorem PoolLawful.grantLabelWrite (h : PoolLawful s) (he : e.activated ∈ s.work) (hk : e.kind ≠ .read)
    (serial : BitVec 32) : PoolLawful (beginLabelWrite (.entry e.order) serial s) := by
  refine PoolBase.beginAccess (s := { s with ctlBuffer := _ }) (h.toPoolBase.same rfl)
    ⟨by simp [Access.begin, Owner.makes], fun _ => rfl⟩ (fun n hn => ?_)
  obtain rfl := Owner.entry.inj hn
  exact runLawful_writing (e := e.activated) rfl he rfl hk (by simp [Access.begin])

/-- Entries changed but for their channels and what they hold. -/
theorem unused_updEntry {f : Entry → Entry} (hf : ∀ x, (f x).channel = x.channel ∧ (f x).holding = x.holding) (c : Channel) :
    (updEntry n f s).unused c = s.unused c := by
  have hwork : workHeld c (s.work.map (fun x => if x.order = n then f x else x)) = workHeld c s.work :=
    workHeld_map_congr c (fun x => by
      split
      · unfold Entry.share
        rw [(hf x).1, (hf x).2]
      · rfl) _
  show s.settings.quota c - ((s.port c).holding + workHeld c (s.work.map _) + postedHeld c s.posted) = _
  rw [hwork]
  rfl

theorem quotaCovers_read (h : s.quotaCovers e = true) (hk : e.kind = .read) :
    runLength (e.first + e.done) e.remaining ≤ s.unused e.channel + e.reserved := by
  have hnext : s.nextSector e = e.first + e.done := by
    unfold State.nextSector
    rw [hk]
  exact hnext ▸ of_decide_eq_true h

theorem PoolLawful.grantEntry (h : PoolLawful s) (hidle : s.seq.access = none)
    (hn : ∀ e, s.entry n = some e → e.state ≠ .finished ∧ (e.kind = .read → e.done < e.count ∧ s.quotaCovers e = true)) :
    PoolLawful (grantEntry n s) := by
  unfold Machine.grantEntry
  split
  · exact h
  · next e he =>
    obtain ⟨hlive, hread⟩ := hn e he
    obtain rfl := entry_order he
    have hmem := mem_of_entry he
    have hactive := h.activate hidle hmem hlive
    have hmem' : e.activated ∈ (Machine.updEntry e.order Entry.activated s).work := List.mem_map.2 ⟨e, hmem, if_pos rfl⟩
    have hu : Unowned e.order (Machine.updEntry e.order Entry.activated s) := unowned_of_idle hidle _
    dsimp only
    split
    case h_1 hk =>
      obtain ⟨hmore, hcovers⟩ := hread hk
      refine hactive.grantRead hmem' hk hmore ?_
      rw [unused_updEntry (f := Entry.activated) (fun _ => ⟨rfl, rfl⟩)]
      exact quotaCovers_read hcovers hk
    case h_2 hk _ =>
      split
      exacts [hactive.grantWrite hmem' (by rw [hk]; simp), hactive.endEntry hu]
    case h_3 hk _ =>
      split
      exacts [hactive.endEntry hu, hactive.grantAppend hmem' (by rw [hk]; simp) _]
    case h_4 hk => exact hactive.grantLabelWrite hmem' (by rw [hk]; simp) _
    case h_5 => exact hactive

/-! ## Grants to posted writes (R83, R103), the choices under PROTECT (R79), the sweep's offer (R168) -/

theorem PoolLawful.grantPosted (h : PoolLawful s) : PoolLawful (grantPosted n s) := by
  unfold Machine.grantPosted
  split
  · exact h
  · next p _ =>
    have hcommitting : PoolLawful (Machine.updPosted n (fun x => { x with committing := true, tornNext := false }) s) :=
      h.same (updPosted_pool _ _ (fun _ => rfl))
    dsimp only
    repeat' split
    · exact hcommitting.beginOther ⟨by simp [Access.begin, Owner.makes], fun _ => rfl⟩ (fun _ => by simp [Access.begin])
    · exact hcommitting.faultPosted
    · exact hcommitting.faultPosted
    · refine PoolLawful.beginOther (hcommitting.same (updPosted_pool _ _ (fun _ => rfl))) ⟨?_, fun _ => rfl⟩ ?_ <;>
        simp [Access.begin, Owner.makes]

theorem topUpBoth_seq (s : State) : (topUpBoth s).seq = s.seq := by
  obtain ⟨w, hw, -⟩ := topUpBoth_work s
  rw [hw]

theorem endProtected_seq (o : Owner) (s : State) : (endProtected o s).seq = s.seq := by
  unfold endProtected
  repeat' split
  · rw [endEntry_seq]
  · rw [leaveFaulted_eq, postedLeaves_frame, postedTold_frame]
  · rfl
  · rfl

theorem PoolLawful.endProtected (h : PoolLawful s) (hidle : s.seq.access = none) (o : Owner) : PoolLawful (endProtected o s) := by
  unfold Machine.endProtected
  repeat' split
  exacts [h.endEntry (unowned_of_idle hidle _), h.leaveFaulted _, h, h]

/-- The choices under PROTECT end work; the drive stays free. -/
theorem PoolLawful.protectedChoices (h : PoolLawful s) (hidle : s.seq.access = none) (fuel : Nat) :
    PoolLawful (protectedChoices fuel s) ∧ (protectedChoices fuel s).seq.access = none := by
  induction fuel generalizing s with
  | zero => exact ⟨h, hidle⟩
  | succ fuel ih =>
    unfold Machine.protectedChoices
    split
    · exact ⟨h, hidle⟩
    · next c dir _ =>
      split
      · have hturned : PoolLawful { s with direction := dir } := h.same rfl
        refine ih (PoolLawful.endProtected hturned hidle c.owner).topUpBoth ?_
        rw [topUpBoth_seq, endProtected_seq]
        exact hidle
      · exact ⟨h, hidle⟩

theorem logProtected_pool (before s : State) : (logProtected before s).pool = s.pool :=
  foldl_pool (fun s p => logFault_pool s .writeProtected p) _ s

theorem idle_of_pool (hp : t.pool = s.pool) (hidle : s.seq.access = none) : t.seq.access = none := by
  have hrole := role_of_pool hp
  rwa [hidle, Option.map_none, Option.map_eq_none_iff] at hrole

theorem PoolLawful.endProtectedChoices (h : PoolLawful s) (hidle : s.seq.access = none) :
    PoolLawful (endProtectedChoices s) ∧ (endProtectedChoices s).seq.access = none := by
  unfold Machine.endProtectedChoices
  split
  · obtain ⟨hchosen, hfree⟩ := h.protectedChoices hidle (s.work.length + s.posted.length)
    exact ⟨hchosen.same (logProtected_pool ..), idle_of_pool (logProtected_pool ..) hfree⟩
  · exact ⟨h, hidle⟩

theorem PoolLawful.beginStep (h : PoolLawful s) (sw : Sweep) (it : SweepItem) (x : Extent) : PoolLawful (beginStep sw it x m s) := by
  unfold Machine.beginStep
  split
  · exact h.giveResult _
  · have hbuffer : PoolLawful { s with ctlBuffer := sw.kind.buffer } := h.same rfl
    exact hbuffer.beginOther ⟨by cases sw.kind <;> simp [Access.begin, Owner.makes, SweepKind.access], fun _ => rfl⟩
      (fun _ => by simp [Access.begin])

theorem PoolLawful.offerSweep (h : PoolLawful s) : PoolLawful (offerSweep s) := by
  unfold Machine.offerSweep takeOffer
  dsimp only
  repeat' split
  exacts [h, h, h, h, h.beginStep .., h.giveResult _, PoolLawful.beginStep (h.same (by rfl)) ..]

theorem mayRunNow_read (h : s.mayRunNow e = true) (hk : e.kind = .read) : s.quotaCovers e = true := by
  unfold State.mayRunNow at h
  rwa [hk] at h

theorem eligible_waits (he : s.entryEligible e = true) :
    (e.state = .queued ∨ e.state = .parked) ∧ (e.kind = .read → s.quotaCovers e = true) := by
  unfold State.entryEligible at he
  simp only [Bool.and_eq_true, Bool.or_eq_true, beq_iff_eq] at he
  obtain ⟨⟨⟨hstate, -⟩, -⟩, hnow⟩ := he
  exact ⟨hstate, mayRunNow_read hnow⟩

/-- The choice falls on a piece of work that waits for the drive (R76, R83). -/
theorem PoolLawful.chooseAndGrant (h : PoolLawful s) (hidle : s.seq.access = none) : PoolLawful (chooseAndGrant s) := by
  unfold Machine.chooseAndGrant grant
  split
  · exact h.offerSweep
  · next c dir hchoice =>
    have hturned : PoolLawful { s with direction := dir } := h.same rfl
    split
    · next n hown =>
      refine PoolLawful.grantEntry hturned hidle (fun e he => ?_)
      change s.entry n = some e at he
      obtain ⟨x, hx, helig, rfl⟩ | ⟨p, -, -, rfl⟩ := (mem_candidates s c).1 (choose_mem hchoice)
      · obtain rfl : x.order = n := Owner.entry.inj hown
        obtain rfl := Option.some.inj ((entry_of_mem h.orders hx).symm.trans he)
        obtain ⟨hwaits, hread⟩ := eligible_waits helig
        exact ⟨by rcases hwaits with hs | hs <;> rw [hs] <;> simp, fun hk => ⟨h.reads x hx hk hwaits, hread hk⟩⟩
      · cases hown
    · exact hturned.grantPosted
    · exact hturned

/-! ## Runs that end or are put down (R84, R89, R103, R144, R158) -/

/-- The owner of an access, where it is an entry, is ACTIVE, and a READ exactly where the access reads for it. -/
def ActiveOwner (a : Access) (s : State) : Prop :=
  ∀ n, a.owner = .entry n → ∀ e, s.entry n = some e → e.state = .active ∧ (a.kind = .readRun ↔ e.kind = .read)

theorem creditRun_seq (a : Access) (s : State) : (creditRun a s).seq = s.seq := by
  unfold creditRun
  split <;> rfl

theorem credited_idle (a : Access) (s : State) : (creditRun a (endAccess s)).seq.access = none := by
  rw [creditRun_seq]
  rfl

/-- An access ends and its sectors are credited. -/
theorem PoolBase.credited (h : PoolBase s) (ho : ActiveOwner a s) : PoolLawful (creditRun a (Machine.endAccess s)) := by
  unfold creditRun
  split
  · next n hown =>
    refine h.endAccess.updEntry (fun _ => ⟨rfl, rfl⟩) (fun x hx hord => ?_) (fun b hb hb' => absurd hb' (unowned_of_idle rfl n b hb))
    obtain rfl := hord
    obtain ⟨hactive, -⟩ := ho x.order hown x (entry_of_mem h.orders hx)
    refine ⟨id, fun _ hs => ?_, Nat.le_add_right _ _⟩
    change x.state = .queued ∨ x.state = .parked at hs
    rw [hactive] at hs
    rcases hs with hs | hs <;> cases hs
  · exact h.endAccess

/-- The entry whose run has been credited. -/
theorem credited_entry (ho : ActiveOwner a s) (hown : a.owner = .entry n) (he : (creditRun a (endAccess s)).entry n = some e) :
    ∃ x, s.entry n = some x ∧ x.state = .active ∧ (a.kind = .readRun ↔ x.kind = .read) ∧ e = { x with done := x.done + a.done } := by
  have hfound := entry_updEntry (s := endAccess s) (m := n) (f := fun e => { e with done := e.done + a.done }) (fun _ => rfl) n
  rw [creditRun_entry hown, hfound, if_pos rfl] at he
  obtain ⟨x, hx, rfl⟩ := Option.map_eq_some_iff.1 he
  obtain ⟨hactive, hkind⟩ := ho n hown x hx
  exact ⟨x, hx, hactive, hkind, rfl⟩

theorem PoolBase.endRun (h : PoolBase s) (ho : ActiveOwner a s) : PoolLawful (endRun a code s) := by
  have hended := h.credited ho
  unfold Machine.endRun
  dsimp only
  split
  exacts [hended.endEntry (unowned_of_idle (credited_idle a s) _), hended.faultPosted, hended]

theorem PoolLawful.parkEntry (h : PoolLawful s) (hidle : s.seq.access = none)
    (hn : ∀ e, s.entry n = some e → e.state ≠ .finished ∧ (e.kind = .read → e.done < e.count)) : PoolLawful (park (.entry n) torn s) := by
  refine h.updEntry (fun _ => ⟨rfl, rfl⟩) (fun x hx hord => ?_) (fun b hb hb' => absurd hb' (unowned_of_idle hidle n b hb))
  obtain rfl := hord
  obtain ⟨hlive, hmore⟩ := hn x (entry_of_mem h.orders hx)
  refine ⟨fun hf => absurd hf hlive, fun hk _ => hmore hk, ?_⟩
  simp only [Entry.holding]
  omega

theorem PoolLawful.parkPosted (h : PoolLawful s) : PoolLawful (park (.posted n) torn s) := h.same (updPosted_pool _ _ (fun _ => rfl))

theorem PoolBase.stopRun (h : PoolBase s) (ho : ActiveOwner a s)
    (hmore : ∀ n, a.owner = .entry n → ∀ e, s.entry n = some e → e.kind = .read → e.done + a.done < e.count) :
    PoolLawful (stopRun a torn s) := by
  have hended := h.credited ho
  unfold Machine.stopRun
  cases hown : a.owner with
  | entry n =>
    refine hended.parkEntry (credited_idle a s) (fun e he => ?_)
    obtain ⟨x, hx, hactive, -, rfl⟩ := credited_entry ho hown he
    exact ⟨by rw [hactive]; simp, hmore n hown x hx⟩
  | posted n => exact hended.parkPosted
  | sweep => exact hended
  | volume => exact hended

theorem PoolLawful.boundaryEntry (h : PoolLawful s) (hidle : s.seq.access = none)
    (hn : ∀ e, s.entry n = some e → e.state = .active ∧ (e.kind = .read → e.done < e.count)) (stop : Option Stop) :
    PoolLawful (boundaryEntry stop n s) := by
  unfold Machine.boundaryEntry
  split
  · exact h
  · next e he =>
    obtain ⟨hactive, hmore⟩ := hn e he
    have hlive : e.state ≠ .finished := by rw [hactive]; simp
    have hparked : PoolLawful (park (.entry n) false s) :=
      h.parkEntry hidle (fun x hx => Option.some.inj (he.symm.trans hx) ▸ ⟨hlive, hmore⟩)
    split
    · exact h.endEntry (unowned_of_idle hidle n)
    split
    · exact hparked
    split
    · exact hparked
    split
    · next hruns =>
      refine h.grantEntry hidle (fun x hx => ?_)
      obtain rfl := Option.some.inj (he.symm.trans hx)
      exact ⟨hlive, fun hk => ⟨hmore hk, mayRunNow_read (Bool.and_eq_true_iff.1 hruns).2 hk⟩⟩
    · exact hparked

theorem PoolLawful.boundaryPosted (h : PoolLawful s) (stop : Option Stop) : PoolLawful (boundaryPosted stop n s) := by
  unfold Machine.boundaryPosted
  repeat' split
  exacts [h, h.faultPosted, h.parkPosted, h.parkPosted, h.grantPosted, h.parkPosted]

theorem PoolLawful.finishPosted (h : PoolLawful s) : PoolLawful (finishPosted n s) := by
  unfold Machine.finishPosted commitPosted
  repeat' split
  exacts [h, h.faultPosted, h.postedLeaves false]

theorem PoolBase.runEnds (h : PoolBase s) (ho : ActiveOwner a s) : PoolLawful (runEnds a s) := by
  have hended := h.credited ho
  have hidle := credited_idle a s
  unfold Machine.runEnds
  dsimp only
  split
  · next n hown =>
    split
    · exact hended
    · next e he =>
      split
      · exact hended.endEntry (unowned_of_idle hidle n)
      · next hleft =>
        refine hended.topUpBoth.boundaryEntry (by rw [topUpBoth_seq]; exact hidle) (fun x hx => ?_) _
        obtain ⟨z, -, hactive, -, rfl⟩ := credited_entry ho hown he
        obtain ⟨r, hr⟩ := sameBut_entry (sameButReservations_topUpBoth _) he
        obtain rfl := Option.some.inj (hr.symm.trans hx)
        exact ⟨hactive, fun _ => Nat.lt_of_sub_ne_zero hleft⟩
  · next n _ =>
    repeat' split
    exacts [hended, hended.finishPosted, hended.topUpBoth.boundaryPosted _]
  · exact hended

end Sys2Proof.Machine
end

section
/-! PROOFS. O9: the drive's work keeps the laws of the buffer pool: runs that are cut, stopped or go on to another sector, sectors read and
written, accesses of the mount and of the sweep (R117, R122 to R146, R151 to R154, R158). -/

namespace Sys2Proof.Machine

open Sys2Proof.Safety

variable {s t : State} {ch : Channel} {n m : Nat} {k : Slot} {code : Code} {a b : Access} {e : Entry} {torn : Bool} {cause : DefectCause}

/-! ## The access that the drive serves -/

/-- The laws hold, and the access in progress is of the owner and the kind of `a`; a READ's stands where `a` stands. -/
structure Serves (a : Access) (s : State) : Prop where
  pool : PoolLawful s
  current : ∃ b, s.seq.access = some b ∧ b.owner = a.owner ∧ b.kind = a.kind ∧ (a.kind = .readRun → b.role = a.role)

theorem PoolLawful.serves (h : PoolLawful s) (ha : s.seq.access = some a) : Serves a s := ⟨h, a, ha, rfl, rfl, fun _ => rfl⟩

theorem Serves.same (h : Serves a s) (hp : t.pool = s.pool) : Serves a t := by
  obtain ⟨b, hb, hown, hkind, hrole⟩ := h.current
  obtain ⟨c, hc, heq⟩ := access_of_role (role_of_pool hp).symm hb
  have hroles : c.role = b.role := heq.symm
  have hco : c.owner = b.owner := congrArg (·.1) hroles
  have hck : c.kind = b.kind := congrArg (·.2.1) hroles
  exact ⟨h.pool.same hp, c, hc, hco.trans hown, hck.trans hkind, fun hk => hroles.trans (hrole hk)⟩

theorem Serves.of_seq (h : Serves a s) (hp : PoolLawful t) (hs : t.seq = s.seq) : Serves a t := ⟨hp, hs ▸ h.current⟩

/-- A writing access may have been noted otherwise but for its owner and kind. -/
theorem Serves.of_like (h : Serves a s) (hk : a.kind ≠ .readRun) (hown : b.owner = a.owner) (hkind : b.kind = a.kind) : Serves b s := by
  obtain ⟨c, hc, hco, hck, -⟩ := h.current
  exact ⟨h.pool, c, hc, hco.trans hown.symm, hck.trans hkind.symm, fun hread => absurd (hkind.symm.trans hread) hk⟩

theorem runFits_writing (hk : a.kind ≠ .readRun) (hkind : b.kind = a.kind) (h : runFits a e) : runFits b e := by
  obtain ⟨hactive, hread, -⟩ := h
  have hnot : e.kind ≠ .read := fun he => hk (hread.2 he)
  exact ⟨hactive, hkind ▸ hread, fun he => absurd he hnot⟩

/-- Of an access that is no READ's nothing but the owner and the kind matters, and the stops that wait in it. -/
theorem Serves.updAccess (h : Serves a s) (hk : a.kind ≠ .readRun) {f : Access → Access}
    (hf : ∀ x, (f x).owner = x.owner ∧ (f x).kind = x.kind ∧ (f x).stops = x.stops) : Serves a (updAccess f s) := by
  obtain ⟨b, hb, hown, hkind, -⟩ := h.current
  refine ⟨h.pool.updAccess (fun c hc => ?_) (fun c hc e _ => runFits_writing ?_ (hf c).2.1), f b, congrArg (Option.map f) hb,
    (hf b).1.trans hown, (hf b).2.1.trans hkind, fun hread => absurd hread hk⟩
  · obtain ⟨ho, hkc, hs⟩ := hf c
    exact ⟨ho, hkc, fun hw => hs.trans ((h.pool.access c hc).2 hw)⟩
  · obtain rfl := Option.some.inj (hb.symm.trans hc)
    rwa [hkind]

/-- A READ's run is the run of its entry. -/
theorem Serves.readRun (h : Serves a s) (hk : a.kind = .readRun) : ∃ e ∈ s.work, a.owner = .entry e.order ∧ runFits a e := by
  obtain ⟨b, hb, hown, hkind, hrole⟩ := h.current
  obtain ⟨hmakes, -⟩ := h.pool.access b hb
  rw [hown, hkind, hk] at hmakes
  cases ho : a.owner with
  | entry n =>
    obtain ⟨e, he, rfl, hfits⟩ := h.pool.run b n hb (hown.trans ho)
    exact ⟨e, he, rfl, runFits_of_pool (hrole hk).symm rfl hfits⟩
  | posted | sweep | volume =>
    rw [ho] at hmakes
    simp [Owner.makes] at hmakes

theorem Serves.activeOwner (h : Serves a s) : ActiveOwner a s := by
  intro n hown e he
  obtain ⟨b, hb, hbo, hbk, -⟩ := h.current
  obtain ⟨x, hx, rfl, hactive, hread, -⟩ := h.pool.run b n hb (hbo.trans hown)
  obtain rfl := Option.some.inj ((entry_of_mem h.pool.orders hx).symm.trans he)
  exact ⟨hactive, hbk ▸ hread⟩

/-- A READ whose run is in progress has sectors left. -/
theorem Serves.sectorsLeft (h : Serves a s) (hown : a.owner = .entry n) (he : s.entry n = some e) (hk : e.kind = .read) :
    e.done + a.done < e.count := by
  obtain ⟨-, hread⟩ := h.activeOwner n hown e he
  obtain ⟨x, hx, hxo, -, -, hrun⟩ := h.readRun (hread.2 hk)
  obtain rfl : x.order = n := Owner.entry.inj (hxo.symm.trans hown)
  obtain rfl := Option.some.inj ((entry_of_mem h.pool.orders hx).symm.trans he)
  obtain ⟨hsector, -, hcount, -⟩ := hrun hk
  omega

/-! ## Runs that end, are cut, or stop (R84, R133, R140 to R146, R158) -/

theorem Serves.ended (h : Serves a s) : PoolLawful (endAccess s) := h.pool.endAccess

theorem Serves.endRun (h : Serves a s) : PoolLawful (endRun a code s) := h.pool.toPoolBase.endRun h.activeOwner

theorem Serves.runEnds (h : Serves a s) : PoolLawful (runEnds a s) := h.pool.toPoolBase.runEnds h.activeOwner

theorem Serves.stopRun (h : Serves a s) : PoolLawful (stopRun a torn s) :=
  h.pool.toPoolBase.stopRun h.activeOwner (fun _ hown _ he hk => h.sectorsLeft hown he hk)

theorem Serves.cutRun (h : Serves a s) : PoolLawful (cutRun a torn s) := by
  unfold Machine.cutRun
  split
  exacts [h.endRun, h.stopRun]

theorem PoolLawful.withSlot (h : PoolLawful s) {f : Slot → State → State} (hf : ∀ k, PoolLawful (f k s)) : PoolLawful (withSlot a f s) := by
  unfold Machine.withSlot
  split
  exacts [hf _, h]

theorem PoolLawful.clearCut (h : PoolLawful s) : PoolLawful (clearCut m k s) := by
  unfold Machine.clearCut
  repeat' split
  exacts [h.fillBecomesUnknown, h, h]

theorem PoolLawful.clearingCut (h : PoolLawful s) : PoolLawful (Machine.stepUnmade (Machine.endAccess (Machine.withSlot a (Machine.clearCut m) s))) :=
  (h.withSlot (fun _ => h.clearCut)).endAccess.stepUnmade

theorem dropBuffer_seq (a : Access) (s : State) : (dropBuffer a s).seq = s.seq := by
  unfold dropBuffer
  split <;> rfl

theorem PoolLawful.dropBuffer (h : PoolLawful s) : PoolLawful (dropBuffer a s) := by
  unfold Machine.dropBuffer
  split
  · refine h.updEntry (fun _ => ⟨rfl, rfl⟩) (fun x hx _ => ⟨id, h.reads x hx, ?_⟩) (fun _ _ _ _ _ _ hfits => hfits)
    simp only [Entry.holding, List.length_tail]
    omega
  · refine h.updPosted (fun p => ⟨rfl, rfl, ?_⟩)
    simp
  · exact h

theorem Serves.dropBuffer (h : Serves a s) : Serves a (dropBuffer a s) := h.of_seq h.pool.dropBuffer (dropBuffer_seq a s)

theorem Serves.countTorn (h : Serves a s) : Serves a (countTorn a s) := by
  have hdropped := (h.same (reportSector_pool s a .torn)).dropBuffer
  unfold Machine.countTorn
  dsimp only
  repeat' split
  exacts [hdropped.same (updPosted_pool _ _ (fun _ => rfl)), hdropped.same (updPosted_pool _ _ (fun _ => rfl)), hdropped.same rfl, hdropped]

theorem Serves.appendPowerCut (h : Serves a s) (hk : a.kind ≠ .readRun) : PoolLawful (appendPowerCut a k s) := by
  have htorn : Serves { a with done := a.done + 1 } (Machine.countTorn a s) := h.countTorn.of_like hk rfl rfl
  unfold Machine.appendPowerCut
  dsimp only
  repeat' split
  exacts [(h.same (reportSector_pool ..)).endRun.fillBecomesUnknown, h.cutRun, htorn.runEnds, htorn.cutRun]

theorem Serves.appendFaultCut (h : Serves a s) (hk : a.kind ≠ .readRun) : PoolLawful (appendFaultCut a k s) := by
  have htorn : Serves { a with done := a.done + 1 } (Machine.countTorn a s) := h.countTorn.of_like hk rfl rfl
  unfold Machine.appendFaultCut
  split
  exacts [h.endRun.fillBecomesUnknown, h.endRun, htorn.endRun]

theorem Serves.powerCut (h : Serves a s) : PoolLawful (powerCut a s) := by
  have htear : Serves a (tear s) := h.same (tear_pool s)
  unfold Machine.powerCut
  dsimp only
  split
  case h_1 => exact htear.cutRun
  case h_2 hk => exact htear.pool.withSlot (fun _ => htear.appendPowerCut (by rw [hk]; simp))
  case h_3 =>
    repeat' split
    exacts [htear.stopRun, htear.cutRun, htear.ended]
  case h_4 => exact htear.pool.clearingCut
  case h_5 => exact htear.pool

theorem Serves.faultCut (h : Serves a s) : PoolLawful (faultCut a s) := by
  have htear : Serves a (tear s) := h.same (tear_pool s)
  unfold Machine.faultCut
  dsimp only
  split
  case h_1 => exact htear.endRun
  case h_2 hk => exact htear.pool.withSlot (fun _ => htear.appendFaultCut (by rw [hk]; simp))
  case h_3 =>
    split
    exacts [htear.endRun, htear.ended]
  case h_4 => exact htear.stopRun
  case h_5 => exact htear.pool.clearingCut
  case h_6 => exact htear.ended.stepUnmade
  case h_7 => exact htear.ended
  case h_8 => exact htear.ended

theorem Serves.takeStop (h : Serves a s) (c : Stop) : PoolLawful (takeStop a torn c s) := by
  unfold Machine.takeStop
  repeat' split
  exacts [h.powerCut, h.stopRun, h.ended.stepUnmade, h.ended.same (storeEnds_pool s), h.endRun]

theorem Serves.drainStop (h : Serves a s) : PoolLawful (drainStop a s) := by
  unfold Machine.drainStop
  split
  exacts [h.ended.stepUnmade, h.stopRun]

theorem Serves.stopAtCommandEnd (h : Serves a s) (hs : s.stopAtCommandEnd a = some t) : PoolLawful t := by
  revert hs
  unfold State.stopAtCommandEnd
  (repeat' split) <;> rintro ⟨⟩
  exacts [h.ended, h.takeStop _, h.drainStop]

/-! ## Sector ends (R123, R130) -/

theorem Serves.turnTo (h : Serves a s) (hk : a.kind ≠ .readRun) : PoolLawful (turnTo m s) :=
  (h.updAccess hk (f := fun x => turned x m) (fun _ => ⟨rfl, rfl, rfl⟩)).pool.same (nextPassage_pool _)

theorem Serves.midRun (h : Serves a s) (hk : a.kind ≠ .readRun) : PoolLawful (midRun m a s) := by
  unfold Machine.midRun
  repeat' split
  exacts [h.takeStop _, h.stopRun, h.turnTo hk]

theorem Serves.sectorEnds (h : Serves a s) (hk : a.kind ≠ .readRun) : PoolLawful (sectorEnds a s) := by
  rw [sectorEnds_eq]
  split
  exacts [h.runEnds, h.midRun hk]

theorem Serves.appendSectorEnds (h : Serves a s) (hk : a.kind ≠ .readRun) : PoolLawful (appendSectorEnds a k s) := by
  unfold Machine.appendSectorEnds
  repeat' split
  exacts [h.runEnds, h.endRun, h.runEnds, h.takeStop _, h.stopRun, h.turnTo hk]

/-! ## Reading (R124 to R126) -/

/-- The access in progress changed to another of its owner and kind, in which no stop waits that its kind forbids. -/
theorem PoolBase.updAccess (h : PoolBase s) {f : Access → Access}
    (hf : ∀ x, (f x).owner = x.owner ∧ (f x).kind = x.kind ∧ (f x).stops = x.stops) : PoolBase (updAccess f s) where
  orders := h.orders
  quotas := h.quotas
  due := h.due
  reads := h.reads
  access c hc := by
    obtain ⟨b, hb, rfl⟩ := Option.map_eq_some_iff.1 hc
    obtain ⟨hown, hkind, hstops⟩ := hf b
    exact ⟨hown ▸ hkind ▸ (h.access b hb).1, fun hw => hstops.trans ((h.access b hb).2 (hkind ▸ hw))⟩
  held := h.held

/-- A READ's run within its entry that turns to another sector fits its entry there. -/
theorem PoolBase.turnTo (h : PoolBase s) (ha : s.seq.access.map Access.role = some a.role)
    (hfits : ∀ n, a.owner = .entry n → ∃ e ∈ s.work, e.order = n ∧ runFits (turned a m) e) : PoolLawful (turnTo m s) := by
  have hturned : PoolLawful (Machine.updAccess (fun x => turned x m) s) := by
    refine ⟨h.updAccess (fun _ => ⟨rfl, rfl, rfl⟩), fun c n hc hown => ?_⟩
    obtain ⟨b, hb, rfl⟩ := Option.map_eq_some_iff.1 hc
    rw [hb] at ha
    have hrole : b.role = a.role := Option.some.inj ha
    simp only [Access.role, Prod.mk.injEq] at hrole
    obtain ⟨hbo, hbk, -, hend, hdone, -, hstops⟩ := hrole
    obtain ⟨e, he, hord, hrun⟩ := hfits n (hbo.symm.trans hown)
    refine ⟨e, he, hord, runFits_of_pool (a := turned a m) (e := e) ?_ rfl hrun⟩
    simp only [Access.role, turned, hbo, hbk, hend, hdone, hstops]
  exact hturned.same (nextPassage_pool _)

/-- A sector of a READ's run has reached its end: no stop waits in a read, and the sectors left fit the entry still. -/
theorem PoolBase.readSectorEnds (h : PoolBase s) (ho : ActiveOwner a s) (ha : s.seq.access.map Access.role = some a.role)
    (hstops : a.stops = []) (he : e ∈ s.work) (hown : a.owner = .entry e.order)
    (hfits : a.sector + 1 < a.runEnd → runFits (turned a (a.sector + 1)) e) : PoolLawful (sectorEnds a s) := by
  rw [sectorEnds_eq]
  split
  · exact h.runEnds ho
  · next hmid =>
    have hrun := hfits (not_le.1 hmid)
    rw [Machine.midRun, nextStop_none hstops]
    dsimp only
    split
    · refine h.stopRun ho (fun n hn x hx hk => ?_)
      obtain rfl := Owner.entry.inj (hown.symm.trans hn)
      obtain rfl := Option.some.inj ((entry_of_mem h.orders he).symm.trans hx)
      obtain ⟨hlt, -, hcount, -⟩ := hrun.2.2 hk
      simp only [turned] at hlt hcount
      omega
    · exact h.turnTo ha (fun n hn => ⟨e, he, Owner.entry.inj (hown.symm.trans hn), hrun⟩)

/-- An entry with a sector of a READ's run in one of its buffers (R98, R124). -/
def Entry.filled (ws : List Word) (e : Entry) : Entry :=
  { e with readBuffers := e.readBuffers ++ [ws], allocated := e.allocated - 1 }

theorem filled_holding (ws : List Word) (h : 0 < e.allocated) : (e.filled ws).holding = e.holding := by
  simp only [Entry.holding, Entry.filled, List.length_append, List.length_cons, List.length_nil]
  omega

/-- A sector read: an allocated buffer becomes a filled one, and the run stands one sector on. -/
theorem Serves.runRead (h : Serves a s) (hk : a.kind = .readRun) (he : e ∈ s.work) (hown : a.owner = .entry e.order) (hfits : runFits a e)
    (ws : List Word) :
    PoolLawful (Machine.sectorEnds { a with done := a.done + 1 }
      (Machine.updAccess (fun x => { x with done := x.done + 1 }) (Machine.updEntry e.order (Entry.filled ws) s))) := by
  obtain ⟨b, hb, -, -, hrole⟩ := h.current
  obtain ⟨hactive, hread, hrun⟩ := hfits
  obtain ⟨hsector, halloc, hcount, hmark, hcheck⟩ := hrun (hread.1 hk)
  have hbase : PoolBase (Machine.updEntry e.order (Entry.filled ws) s) := by
    refine h.pool.toPoolBase.updEntry (fun _ => ⟨rfl, rfl⟩) (fun x hx hord => ?_)
    obtain rfl := eq_of_order (work_orders_nodup h.pool.orders) hx he hord
    exact ⟨id, h.pool.reads x hx, (filled_holding ws (by omega)).le.trans (Nat.le_add_right ..)⟩
  have hmem : e.filled ws ∈ (Machine.updEntry e.order (Entry.filled ws) s).work := List.mem_map.2 ⟨e, he, if_pos rfl⟩
  have hstops : a.stops = [] := by
    have hbk : b.kind = a.kind := congrArg (·.2.1) (hrole hk)
    have hbs : b.stops = a.stops := congrArg (·.2.2.2.2.2.2) (hrole hk)
    exact hbs.symm.trans ((h.pool.access b hb).2 (by rw [hbk, hk]; rfl))
  refine (hbase.updAccess (f := fun x => { x with done := x.done + 1 }) (fun _ => ⟨rfl, rfl, rfl⟩)).readSectorEnds (e := e.filled ws) ?_ ?_ hstops
    hmem hown (fun hmid => ?_)
  · intro n hn x hx
    obtain rfl := Owner.entry.inj (hown.symm.trans hn)
    obtain rfl := Option.some.inj ((entry_of_mem hbase.orders hmem).symm.trans hx)
    exact ⟨hactive, hread⟩
  · have hrole' := hrole hk
    simp only [Access.role, Prod.mk.injEq] at hrole'
    obtain ⟨hbo, hbk, hbs, hbe, hbd, hbp, hbt⟩ := hrole'
    show (s.seq.access.map _).map _ = _
    rw [hb]
    simp only [Option.map_some, Access.role, hbo, hbk, hbs, hbe, hbd, hbp, hbt]
  · refine ⟨hactive, hread, fun _ => ?_⟩
    simp only [turned, Entry.filled] at hmid ⊢
    refine ⟨hmid, by omega, by omega, by simp, by simp⟩

theorem Serves.sectorRead (h : Serves a s) (ws : List Word) (c : Option Condition) : PoolLawful (sectorRead a ws c s) := by
  unfold Machine.sectorRead
  split
  · next n hk hown =>
    have hreported : Serves a (match c with | some c => reportSector a c s | none => s) := by
      split
      exacts [h.same (reportSector_pool ..), h]
    obtain ⟨e, he, ho, hfits⟩ := hreported.readRun hk
    obtain rfl := Owner.entry.inj (hown.symm.trans ho)
    exact hreported.runRead hk he ho hfits ws
  · exact h.ended.scanningStepEnded ..
  · exact h.pool

end Sys2Proof.Machine
end

section
/-! PROOFS. O9: what the passages of an access come to, the mount's accesses, departure, and the stops that a line asks for keep the laws of the
buffer pool (R117, R119 to R131, R140 to R146, R150 to R155, R159). -/

namespace Sys2Proof.Machine

open Sys2Proof.Safety

variable {s t : State} {ch : Channel} {n m : Nat} {k : Slot} {code : Code} {a b : Access} {e : Entry} {torn : Bool} {cause : DefectCause}

/-! ## The mount's accesses (R150 to R154) -/

/-- An access of the volume manager begins. -/
theorem PoolLawful.beginVolume (h : PoolLawful s) {kind : AccessKind} {cls : Option WorkClass} {verify : Bool} {slot : Option Slot}
    {base sector runEnd size : Nat} (hk : kind ∈ Owner.makes .volume) :
    PoolLawful (beginAccess (Access.begin .volume kind cls verify slot base sector runEnd size) s) :=
  h.beginOther ⟨hk, fun _ => rfl⟩ (fun _ hn => by cases hn)

theorem PoolLawful.mountAdvance (h : PoolLawful s) : PoolLawful (mountAdvance s) := by
  have hlabel : PoolLawful (beginLabelRead s) := PoolLawful.beginVolume (h.same (by rfl)) (by simp [Owner.makes])
  unfold Machine.mountAdvance beginProbe
  repeat' split
  exacts [hlabel, hlabel, h.beginVolume (by simp [Owner.makes]), h, h, h]

theorem PoolLawful.searchFrom (h : PoolLawful s) (i : Nat) : PoolLawful (searchFrom i s) := by
  unfold Machine.searchFrom
  repeat' split
  exacts [h.same (mountComplete_pool s), PoolLawful.mountAdvance (h.same (setMount_pool ..)), h]

theorem PoolLawful.labelFound (h : PoolLawful s) (l : Option Label) : PoolLawful (labelFound l s) := by
  unfold Machine.labelFound
  split
  exacts [PoolLawful.searchFrom (h.same (by rfl)) 0, h.same (by rfl)]

theorem PoolLawful.probeFound (h : PoolLawful s) (r : Option HeaderState) : PoolLawful (probeFound r s) := by
  unfold Machine.probeFound
  dsimp only
  have hmarked : ∀ (k : Slot) (f : Fill → Fill) (i : Nat), PoolLawful (Machine.searchFrom i (updFill k f s)) := fun k f i =>
    PoolLawful.searchFrom (h.same (updFill_pool ..)) i
  have hsearching : ∀ stage, PoolLawful (Machine.mountAdvance (setMount stage s)) := fun stage =>
    PoolLawful.mountAdvance (h.same (setMount_pool ..))
  repeat' split
  exacts [hmarked .., hsearching _, hmarked .., hsearching _, hmarked .., h]

theorem PoolLawful.mountAccessEnds (h : PoolLawful s) {f : State → State} (hf : ∀ t, PoolLawful t → PoolLawful (f t)) :
    PoolLawful (mountAccessEnds f s) := by
  unfold Machine.mountAccessEnds
  dsimp only
  split
  exacts [hf _ h.endAccess, h.endAccess]

theorem PoolLawful.labelReadEnds (h : PoolLawful s) (l : Option Label) : PoolLawful (Machine.mountAccessEnds (Machine.labelFound l) s) :=
  h.mountAccessEnds (fun _ ht => ht.labelFound l)

theorem PoolLawful.probeEnds (h : PoolLawful s) (r : Option HeaderState) : PoolLawful (Machine.mountAccessEnds (Machine.probeFound r) s) :=
  h.mountAccessEnds (fun _ ht => ht.probeFound r)

/-! ## Reads that fail (R117, R125) -/

theorem Serves.readFails (h : Serves a s) : PoolLawful (readFails a cause s) := by
  have hrecorded : Serves a (recordDefect a.cylinder (headOf a.sector) (sectorOf a.sector) cause s) := h.same (recordDefect_pool ..)
  unfold Machine.readFails
  dsimp only
  split
  exacts [hrecorded.sectorRead .., hrecorded.ended.scanningStepEnded .., hrecorded.pool.labelReadEnds _, hrecorded.pool.probeEnds _,
    hrecorded.pool]

theorem Serves.passAgain (h : Serves a s) (further : Bool) : PoolLawful (nextPassage (countFailure further s)) :=
  h.pool.same ((nextPassage_pool _).trans (countFailure_pool ..))

theorem Serves.readAttemptFails (h : Serves a s) : PoolLawful (readAttemptFails a cause s) := by
  unfold Machine.readAttemptFails
  repeat' split
  exacts [h.ended, h.passAgain _, h.readFails]

theorem Serves.goodField (h : Serves a s) (f : FieldImage) : PoolLawful (goodField a f s) := by
  unfold Machine.goodField
  split
  exacts [h.pool.labelReadEnds _, h.sectorRead .., h.sectorRead ..]

theorem PoolLawful.storeEnds (h : PoolLawful s) : PoolLawful (storeEnds s) := h.endAccess.same (storeEnds_pool s)

theorem Serves.seekFails (h : Serves a s) : PoolLawful (seekFails a s) := by
  have hstep : PoolLawful (Machine.withSlot a (fillAsLastDone a.sector) (Machine.endAccess s)) :=
    h.ended.withSlot (fun _ => h.ended.same (by rfl))
  unfold Machine.seekFails
  split
  exacts [hstep.stepSeekError, h.ended.stepSeekError, h.pool.labelReadEnds _, h.pool.probeEnds _, h.pool.storeEnds, h.endRun]

/-! ## Writes (R127 to R131) -/

theorem Serves.countAppended (h : Serves a s) (hk : a.kind ≠ .readRun) : PoolLawful (countAppended a k s) := by
  have hcounted : Serves a (lowerPending k 1 (countCommitted a (Machine.dropBuffer a s))) := h.dropBuffer.same (by simp)
  have hdone : Serves { a with done := a.done + 1 } (Machine.updAccess (fun x => { x with done := x.done + 1 })
      (lowerPending k 1 (countCommitted a (Machine.dropBuffer a s)))) :=
    (hcounted.updAccess hk (f := fun x => { x with done := x.done + 1 }) (fun _ => ⟨rfl, rfl, rfl⟩)).of_like hk rfl rfl
  exact hdone.appendSectorEnds hk

theorem PoolLawful.mapStoreDone (h : PoolLawful s) : PoolLawful (mapStoreDone n a s) := by
  have hstored : PoolLawful { s with volume := { s.volume with
      label := some .valid, serial := match s.ctlBuffer with | .label l => some l.serial | _ => s.volume.serial
      mapModified := a.mapLoadSeen && s.volume.mapModified } } := h.same (by rfl)
  exact hstored.endAccess.endEntry (unowned_of_idle rfl n)

theorem Serves.writeCounts (h : Serves a s) : PoolLawful (writeCounts a s) := by
  unfold Machine.writeCounts
  split
  case h_1 hk =>
    have hne : a.kind ≠ .readRun := by rw [hk]; simp
    have hremoved : Serves a (if s.ownerForce a then removeDefect a.cylinder (headOf a.sector) (sectorOf a.sector) s else s) := by
      split
      exacts [h.same (removeDefect_pool ..), h]
    have hcounted := hremoved.dropBuffer.same (countCommitted_pool _ a)
    have hdone := (hcounted.updAccess hne (f := fun x => { x with done := x.done + 1 }) (fun _ => ⟨rfl, rfl, rfl⟩)).of_like
      (b := { a with done := a.done + 1 }) hne rfl rfl
    exact hdone.sectorEnds hne
  case h_2 hk => exact h.pool.withSlot (fun _ => h.countAppended (by rw [hk]; simp))
  case h_3 =>
    split
    exacts [h.pool.mapStoreDone, PoolLawful.storeEnds (h.pool.same (by rfl))]
  case h_4 =>
    have hcleared : PoolLawful (Machine.endAccess (removeDefect a.cylinder (headOf a.sector) (sectorOf a.sector) s)) :=
      (h.same (removeDefect_pool ..)).ended
    exact hcleared.withSlot (fun _ => hcleared.clearingStepDone)
  case h_5 => exact h.pool

theorem Serves.writeFails (h : Serves a s) : PoolLawful (writeFails a cause s) := by
  have hrecorded : Serves a (recordDefect a.cylinder (headOf a.sector) (sectorOf a.sector) cause s) := h.same (recordDefect_pool ..)
  have hended : PoolLawful (Machine.endRun a .mediumError (reportSector a .mediumError
      (recordDefect a.cylinder (headOf a.sector) (sectorOf a.sector) cause s))) := (hrecorded.same (reportSector_pool ..)).endRun
  unfold Machine.writeFails
  dsimp only
  split
  case h_1 => exact hended
  case h_2 hk =>
    exact (hrecorded.updAccess (by rw [hk]; simp) (f := fun x => { x with pass := .marking }) (fun _ => ⟨rfl, rfl, rfl⟩)).pool.same
      (nextPassage_pool _)
  case h_3 =>
    split
    exacts [hended, hrecorded.pool.storeEnds]
  case h_4 => exact hrecorded.ended.withSlot (fun _ => hrecorded.ended.clearingStepFailed)
  case h_5 => exact hrecorded.pool

theorem Serves.checkAttemptFails (h : Serves a s) : PoolLawful (checkAttemptFails a s) := by
  unfold Machine.checkAttemptFails
  repeat' split
  exacts [h.passAgain _, (h.same (countFailure_pool ..)).writeFails, h.passAgain _,
    h.pool.same ((issueRestore_pool _).trans (countFailure_pool ..))]

theorem writeFails_read (hk : a.kind = .readRun) (s : State) :
    writeFails a cause s = recordDefect a.cylinder (headOf a.sector) (sectorOf a.sector) cause s := by
  unfold writeFails
  rw [hk]

/-- A pass that is no part of a VOID marking changes nothing that a READ's run has to fit. -/
theorem PoolLawful.setPass (h : PoolLawful s) {p : Pass} (hm : p ≠ .marking) (hc : p ≠ .markCheck) :
    PoolLawful (Machine.updAccess (fun x => { x with pass := p }) s) := by
  refine h.updAccess (fun b hb => ⟨rfl, rfl, fun hw => (h.access b hb).2 hw⟩) (fun b _ e _ hfits => ?_)
  obtain ⟨hactive, hread, hrun⟩ := hfits
  refine ⟨hactive, hread, fun he => ?_⟩
  obtain ⟨hsector, halloc, hcount, -⟩ := hrun he
  exact ⟨hsector, halloc, hcount, hm, hc⟩

theorem Serves.readBackFails (h : Serves a s) : PoolLawful (readBackFails a s) := by
  have hcounted : Serves a (countFailure false s) := h.same (countFailure_pool s false)
  have hagain : PoolLawful (Machine.updAccess (fun x => { x with pass := .work }) (countFailure false s)) :=
    hcounted.pool.setPass (by simp) (by simp)
  unfold Machine.readBackFails
  dsimp only
  split
  · exact hagain.same (nextPassage_pool _)
  · by_cases hk : a.kind = .readRun
    · rw [writeFails_read hk]
      exact hagain.same (recordDefect_pool ..)
    · exact (hcounted.updAccess hk (f := fun x => { x with pass := .work }) (fun _ => ⟨rfl, rfl, rfl⟩)).writeFails

theorem Serves.markingSucceeds (h : Serves a s) (hk : a.kind ≠ .readRun) : PoolLawful (markingSucceeds a k s) :=
  Serves.appendSectorEnds (h.same ((reportSector_pool ..).trans (updFill_pool ..))) hk

theorem Serves.markingFails (h : Serves a s) : PoolLawful (markingFails a cause k s) :=
  (Serves.endRun (h.same ((reportSector_pool ..).trans (recordDefect_pool ..)))).fillBecomesUnknown

/-! ## Passages (R119 to R122, R127) -/

/-- No READ is in a VOID marking. -/
theorem Serves.notMarking (h : Serves a s) (hp : a.pass = .marking ∨ a.pass = .markCheck) : a.kind ≠ .readRun := by
  intro hk
  obtain ⟨e, -, -, -, hread, hrun⟩ := h.readRun hk
  obtain ⟨-, -, -, hm, hc⟩ := hrun (hread.1 hk)
  exact hp.elim hm hc

theorem Serves.checkFails (h : Serves a s) : PoolLawful (checkFails a s) := by
  unfold Machine.checkFails
  repeat' split
  exacts [h.pool.withSlot (fun _ => h.markingFails), h.pool.withSlot (fun _ => h.markingFails), h.readBackFails, h.checkAttemptFails,
    h.readAttemptFails]

theorem Serves.readHeader (h : Serves a s) (st : HeaderState) : PoolLawful (readHeader a st s) := by
  unfold Machine.readHeader
  split
  exacts [(h.pool.probeEnds _).settle, (h.pool.labelReadEnds _).settle, (h.pool.labelReadEnds _).settle, (h.sectorRead ..).settle,
    (h.sectorRead ..).settle, h.pool.same rfl]

theorem Serves.headerChecked (h : Serves a s) (c : AddressCheck) : PoolLawful (headerChecked a c s) := by
  have hgate : PoolLawful (openGate a s) := h.pool.same (openGate_pool ..)
  have hfails : PoolLawful (Machine.settle (Machine.checkFails a s)) := h.checkFails.settle
  unfold Machine.headerChecked
  repeat' split
  case h_1 hp => exact (h.pool.withSlot (fun _ => h.markingSucceeds (h.notMarking (.inr hp)))).settle
  exacts [hfails, h.pool, hgate, hgate, hfails, hfails, hgate, h.readHeader _, hgate, hfails, hfails]

theorem Serves.afterData (h : Serves a s) : PoolLawful (afterData a s) := by
  unfold Machine.afterData
  split
  · next hp =>
    exact (h.updAccess (h.notMarking (.inl hp)) (f := fun x => { x with pass := .markCheck }) (fun _ => ⟨rfl, rfl, rfl⟩)).pool.same
      (nextPassage_pool _)
  split
  · exact (h.pool.setPass (by simp) (by simp)).same (nextPassage_pool _)
  · by_cases hk : a.kind = .readRun
    · refine PoolLawful.settle ?_
      unfold Machine.writeCounts
      rw [hk]
      exact h.pool
    · exact (h.of_like (b := { a with checkPassed := true, tornResume := false }) hk rfl rfl).writeCounts.settle

theorem Serves.accessGoesOn (h : Serves a s) (restored : Bool) : PoolLawful (accessGoesOn a restored s) := by
  unfold Machine.accessGoesOn
  split
  · next hstop => exact (h.stopAtCommandEnd hstop).settle
  · split
    exacts [h.seekFails.settle, h.pool.same (approach_pool s)]

theorem Serves.searchPulse (h : Serves a s) (before : Option Nat) : PoolLawful (searchPulse a before s) := by
  have hnoted : ∀ g : Access → Nat, Serves a (Machine.updAccess (fun x => { x with unsync := g x }) s) := fun g =>
    h.same (updAccess_pool s (fun _ => rfl))
  unfold Machine.searchPulse
  repeat' split
  exacts [h.pool.same (beginPassage_pool ..), (hnoted (fun _ => 0)).checkFails.settle,
    (hnoted (fun x => x.unsync + 1)).pool, (hnoted (fun _ => 0)).pool]

/-! ## Departure (R155) -/

theorem endAccess_creditRun (a : Access) (s : State) : endAccess (creditRun a s) = creditRun a (endAccess s) := by
  unfold creditRun
  split <;> rfl

/-- The access that a departure cuts is credited and gone. -/
theorem PoolLawful.creditedDeparture (h : PoolLawful s) (ha : s.seq.access = some a) :
    PoolLawful (Machine.endAccess (creditRun a (tear (reportTornAppend s)))) := by
  have hserves : Serves a (tear (reportTornAppend s)) := (h.serves ha).same ((tear_pool _).trans (reportTornAppend_pool s))
  rw [endAccess_creditRun]
  exact hserves.pool.toPoolBase.credited hserves.activeOwner

/-- The volume's work ends with the access cut. -/
theorem PoolLawful.departs (h : PoolLawful (Machine.endAccess s)) (es ps : List Nat) (c : Option StopCause) :
    PoolLawful (Machine.endSweep c (Machine.faultAll ps .volumeGone
      (Machine.endEntries es .volumeGone { seqDeparts s with ctlBuffer := .free }))) := by
  have hcut : PoolLawful { seqDeparts s with ctlBuffer := .free } := h.same (seqDeparts_pool s)
  have hidle : ({ seqDeparts s with ctlBuffer := .free } : State).seq.access = none := idle_of_pool (seqDeparts_pool s) rfl
  exact ((hcut.endEntries (fun n _ => unowned_of_idle hidle n)).faultAll ps).endSweep c

theorem PoolLawful.depart (h : PoolLawful s) : PoolLawful (depart s) := by
  unfold Machine.depart
  split
  · exact h
  · dsimp only
    refine PoolLawful.retakeStage (PoolLawful.retakeStage (PoolLawful.same (s := ?u) ?hs ?hp) .A) .B
    case hp =>
      rw [raiseBoth_pool, pool_mk]
      dsimp only
      exact pool_eta _
    case hs =>
      refine PoolLawful.departs ?_ _ _ _
      split
      · next a ha => exact h.creditedDeparture ha
      · exact h.endAccess

theorem olderGone_seq (a : Access) (s : State) : (olderGone a s).seq = s.seq := by
  unfold olderGone
  split
  · rw [faultAll_frame]
  · rfl

theorem Serves.olderGone (h : Serves a s) : Serves a (olderGone a s) := by
  refine h.of_seq ?_ (olderGone_seq a s)
  unfold Machine.olderGone
  split
  exacts [h.pool.faultAll _, h.pool]

/-! ## Stops asked for by a line (R140, R143 to R146) -/

/-- A stop waits in a write. -/
theorem Serves.addStop (h : Serves a s) (hw : a.kind.writes = true) (c : Stop) : PoolLawful (addStop c s) := by
  obtain ⟨b, hb, -, hkind, -⟩ := h.current
  refine h.pool.updAccess (fun x hx => ⟨rfl, rfl, fun hno => ?_⟩) (fun _ _ _ _ hfits => hfits)
  obtain rfl := Option.some.inj (hb.symm.trans hx)
  rw [hkind, hw] at hno
  cases hno

theorem Serves.askStop (h : Serves a s) (hw : a.kind.writes = true) (c : Stop) : PoolLawful (askStop c a s) := by
  unfold Machine.askStop
  split
  exacts [h.addStop hw c, h.takeStop c]

theorem Serves.askCut (h : Serves a s) (hw : a.kind.writes = true) : PoolLawful (askCut a s) := by
  unfold Machine.askCut
  split
  exacts [h.addStop hw .cut, h.powerCut]

theorem Serves.powerStop (h : Serves a s) (hw : a.kind.writes = true) : PoolLawful (powerStop a s) := by
  unfold Machine.powerStop
  split
  exacts [h.askStop hw _, h.askStop hw _, h.pool]

theorem PoolLawful.onWriteAccess (h : PoolLawful s) {f : Access → State → State}
    (hf : ∀ a, Serves a s → a.kind.writes = true → PoolLawful (f a s)) : PoolLawful (onWriteAccess f s) := by
  unfold Machine.onWriteAccess
  split
  · next a ha =>
    split
    · next hw => exact hf a (h.serves ha) hw
    · exact h
  · exact h

theorem PoolLawful.cutByFault (h : PoolLawful s) : PoolLawful (cutByFault s) := by
  unfold Machine.cutByFault
  split
  · next a ha =>
    split
    exacts [(h.serves ha).powerCut, (h.serves ha).faultCut]
  · exact h

theorem PoolLawful.shutDown (h : PoolLawful s) : PoolLawful (shutDown s) := by
  have htaken : PoolLawful (takeBeginning s) := h.same (takeBeginning_pool s)
  have hcut := htaken.onWriteAccess (fun _ ha hw => ha.askCut hw)
  unfold Machine.shutDown
  dsimp only
  repeat' split
  exacts [htaken.settle, (htaken.onWriteAccess (fun _ ha hw => ha.powerStop hw)).settle, PoolLawful.settle (hcut.same (updSeq_pool _ rfl))]

end Sys2Proof.Machine
end

section
/-! PROOFS. O9: the channel paths, resets and lines keep the laws of the buffer pool, and so does every command (R97, R98, R101, R137 to R143,
R175 to R178, R184). -/

namespace Sys2Proof.Machine

open Sys2Proof.Safety

variable {s t : State} {ch : Channel} {n m : Nat} {a : Access} {e : Entry} {f : Frame} {w : Word}

/-! ## The inbound path (R97, R101, R175, R176) -/

theorem receiver_holding (p : Port) (v : Receiver) : ({ p with receiver := v } : Port).holding + p.receiver.holding = p.holding + v.holding := by
  simp only [Port.holding]
  omega

/-- The inbound path comes to hold more by no more than the unused quota. -/
theorem PoolLawful.setReceiver (h : PoolLawful s) {v : Receiver} (hv : v.holding ≤ (s.port ch).receiver.holding + s.unused ch) :
    PoolLawful (setReceiver ch v s) := by
  refine h.updPort (h.due ch) ?_
  have hsum := receiver_holding (s.port ch) v
  have hheld := h.held ch
  have hunused : s.unused ch = s.settings.quota ch - s.holding ch := rfl
  omega

theorem PoolLawful.rejectFrame (h : PoolLawful s) {v : Receiver} (hv : v.holding = 0) {tag taken : Nat} {reason : LinkReason} :
    PoolLawful (rejectFrame ch v tag reason taken s) :=
  (PoolLawful.formReply (h.setReceiver (by rw [hv]; exact Nat.zero_le _)) rfl).topUp ch

theorem frame_holding_le (f : Frame) : f.buffers.length + (if f.filling.isEmpty then 0 else 1) ≤ f.holding := by
  unfold Frame.holding
  omega

/-- The count's buffers come from the unused quota (R97). -/
theorem takeCount_holding_le (f : Frame) (unused : Nat) (w : Word) : (f.takeCount unused w).holding ≤ f.holding + unused := by
  have hle := frame_holding_le f
  unfold Frame.takeCount
  repeat' split
  · simp only [Frame.holding] at hle ⊢
    omega
  · exact Nat.le_add_right ..
  · exact Nat.le_add_right ..

/-- A reserved buffer becomes a write data buffer: a word of data changes nothing of what the frame holds (R97). -/
theorem takeData_holding (f : Frame) (span : Option CheckSpan) (w : Word) : (f.takeData span w).holding = f.holding := by
  unfold Frame.takeData
  split
  · rfl
  · next hroom =>
    by_cases hempty : f.filling.isEmpty = true
    · have hreserved : f.reserved ≠ 0 := fun hz => hroom ⟨hempty, hz⟩
      dsimp only
      split <;> (simp [Frame.holding, hempty]; omega)
    · dsimp only
      split
      · simp [Frame.holding, hempty]
        omega
      · simp [Frame.holding, hempty]

theorem takeBody_holding_le (f : Frame) (i unused : Nat) (span : Option CheckSpan) (w : Word) :
    (f.takeBody i unused span w).holding ≤ f.holding + unused := by
  unfold Frame.takeBody
  split
  · split
    · exact (takeData_holding ..).le.trans (Nat.le_add_right ..)
    · dsimp only
      split
      · exact takeCount_holding_le { f with body := f.body ++ [w] } unused w
      · exact Nat.le_add_right ..
  · exact Nat.le_add_right ..

/-- A whole frame's buffers are the request's (R47, R97). -/
theorem request_holding (f : Frame) (length : Nat) : (f.request length).holding = f.holding := by
  simp only [Frame.request, Request.holding, Frame.holding]
  omega

theorem PoolLawful.takeCheckWord (h : PoolLawful s) (hf : (s.port ch).receiver = .receiving f) {length : Nat} :
    PoolLawful (takeCheckWord ch f length w s) := by
  unfold Machine.takeCheckWord
  split
  · refine h.lessPort (List.Subset.refl _) ?_
    have hrequest := request_holding f length
    simp only [Port.holding, hf, Receiver.holding, Stage.holding]
    omega
  · exact h.rejectFrame rfl

theorem PoolLawful.takeFrameWord (h : PoolLawful s) (hf : (s.port ch).receiver = .receiving f) : PoolLawful (takeFrameWord ch f w s) := by
  have hholds : (s.port ch).receiver.holding = f.holding := by rw [hf]; rfl
  unfold Machine.takeFrameWord takeLengthWord
  repeat' split
  · exact h.rejectFrame rfl
  · exact h.setReceiver (hholds ▸ Nat.le_add_right ..)
  · exact h.setReceiver (hholds ▸ takeBody_holding_le (f.count w) ..)
  · exact h.takeCheckWord hf

theorem PoolLawful.takeHeaderWord (h : PoolLawful s) (w : Word) : PoolLawful (takeHeaderWord ch w s) := by
  unfold Machine.takeHeaderWord
  split
  · exact h.setReceiver (Nat.zero_le _)
  · exact h.rejectFrame rfl

theorem PoolLawful.takeWord (h : PoolLawful s) (w : Word) : PoolLawful (takeWord ch w s) := by
  unfold Machine.takeWord
  split
  · exact h
  · split
    · split
      exacts [h.takeHeaderWord w, h]
    · next f hf =>
      split
      exacts [h, h.takeFrameWord hf]
    · exact h

/-- The unused quota covers the whole count at once (R97). -/
theorem PoolLawful.reservationMade (h : PoolLawful s) (hf : (s.port ch).receiver = .receiving f) (hn : n ≤ s.unused ch) :
    PoolLawful (Machine.setReceiver ch (.receiving { f with reservation := .made n, reserved := n }) s) := by
  refine h.setReceiver ?_
  have hle := frame_holding_le f
  rw [hf]
  simp only [Receiver.holding, Frame.holding] at hle ⊢
  omega

/-! ## The outbound path (R178) -/

theorem delivered_pool (p : Port) (r : Reply) : (p.delivered r).pool = p.pool := by
  unfold Port.delivered
  (repeat' split) <;> rfl

/-- A delivered reply gives up what it held. -/
theorem PoolLawful.deliver (h : PoolLawful s) (r : Reply) : PoolLawful (deliver ch r s) := by
  have hpool := delivered_pool { (s.port ch) with queue := (s.port ch).queue.tail, outTaken := 0 } r
  have hdue : (Port.delivered { (s.port ch) with queue := (s.port ch).queue.tail, outTaken := 0 } r).due = (s.port ch).due :=
    congrArg Prod.fst hpool
  have hholding := congrArg Prod.snd hpool
  refine PoolLawful.settle (h.lessPort (fun _ hd => hdue ▸ hd) (hholding.le.trans ?_))
  exact Nat.add_le_add_left (((List.tail_sublist _).map Reply.holding).sum_le_sum (fun _ _ => Nat.zero_le _)) _

/-! ## Resets (R92, R137, R184) -/

theorem poolLawful_reset : PoolLawful State.reset := by
  obtain ⟨-, -, -, -, horders, -, -, hsettings, -, -, -, hbuffers, hruns⟩ := reset_lawful
  exact poolLawful_of_laws horders hsettings hruns hbuffers

theorem afterPowerOn_lawful (levels : LineSet) (s : State) : PoolLawful (s.afterPowerOn levels) := poolLawful_reset.same rfl

theorem resetEntry_seq (ch : Channel) (s : State) (e : Entry) : (resetEntry ch s e).seq = s.seq := by
  unfold resetEntry
  (repeat' split) <;> rfl

/-- A channel's reset drops of its entries none whose run is in progress. -/
theorem PoolLawful.resetEntry (h : PoolLawful s) (hu : e.state ≠ .active → Unowned e.order s) : PoolLawful (resetEntry ch s e) := by
  have hmarked : PoolLawful (Machine.updEntry e.order (fun x => { x with discard := true }) s) := h.same (updEntry_pool _ _ (fun _ => rfl))
  unfold Machine.resetEntry
  split
  · cases hs : e.state with
    | active | parked => exact hmarked
    | queued =>
      have hgone := hu (by rw [hs]; simp)
      dsimp only
      split
      exacts [PoolLawful.dropEntry (h.same (lowerPending_pool ..)) hgone, h.dropEntry hgone]
    | watching | finished => exact h.dropEntry (hu (by rw [hs]; simp))
  · exact h

theorem PoolLawful.resetEntries (h : PoolLawful s) {l : List Entry} (hu : ∀ e ∈ l, e.state ≠ .active → Unowned e.order s) :
    PoolLawful (l.foldl (Machine.resetEntry ch) s) := by
  induction l generalizing s with
  | nil => exact h
  | cons e l ih =>
    refine ih (h.resetEntry (hu e (List.mem_cons_self ..))) (fun x hx hs => ?_)
    exact (hu x (List.mem_cons_of_mem _ hx) hs).of_seq (resetEntry_seq ..)

theorem PoolLawful.resetChannel (h : PoolLawful s) : PoolLawful (resetChannel ch s) := by
  have hreset : PoolLawful (s.updPort ch Port.channelReset) := h.lessPort (List.nil_subset _) (Nat.zero_le _)
  have hentries := hreset.resetEntries (ch := ch) (l := s.work) (fun e he hs => hreset.unowned (by rwa [State.updPort_work]) hs)
  exact PoolLawful.settle (hentries.same (by rfl))

/-! ## Lines (R137, R143) -/

/-- The end of a POWER period withdraws its stop (R143). -/
theorem PoolLawful.endPeriod (h : PoolLawful s) : PoolLawful (endPeriod s) := by
  have hover : PoolLawful { s with powerPeriod := none } := h.same rfl
  unfold Machine.endPeriod
  dsimp only
  split
  · exact hover.updAccess (fun b hb => ⟨rfl, rfl, fun hw => by simp [(h.access b hb).2 hw]⟩) (fun _ _ _ _ hfits => hfits)
  · exact hover

theorem PoolLawful.monitorTakes (h : PoolLawful s) (l : Line) (active : Bool) : PoolLawful (monitorTakes l active s) := by
  have htaken : PoolLawful (takeLine l active s) := h.same (takeLine_pool ..)
  unfold Machine.monitorTakes periodChange
  repeat' split
  exacts [h, htaken.same rfl, htaken.endPeriod, htaken]

theorem PoolLawful.ownerTakes (h : PoolLawful s) {act : State → State} (hact : ∀ u, PoolLawful u → PoolLawful (act u)) (l : Line)
    (active : Bool) : PoolLawful (ownerTakes l active act s) := by
  unfold Machine.ownerTakes
  split
  exacts [h, hact _ (h.same rfl)]

theorem PoolLawful.lineChange (h : PoolLawful s) {act : State → State} (hact : ∀ u, PoolLawful u → PoolLawful (act u)) (l : Line)
    (active : Bool) : PoolLawful (lineChange l active act s) := by
  have hrest : PoolLawful { s with takers := s.takers.tail } := h.same rfl
  have hmonitor := hrest.monitorTakes l active
  unfold Machine.lineChange
  dsimp only
  split
  exacts [hmonitor, hrest.ownerTakes hact .., hmonitor.ownerTakes hact .., hmonitor.ownerTakes hact ..]

/-! ## The commands -/

theorem PoolLawful.of_next (hp : PoolLawful s) (h : (.next s : Host.Outcome State Fault Refusal) = .next t) : PoolLawful t :=
  Host.Outcome.next.inj h ▸ hp

/-- The access of a passage in some phase is the one in progress. -/
theorem PoolLawful.inPhase (h : PoolLawful s) {p : Phase} (ha : s.inPhase p = some a) : Serves a s := by
  unfold State.inPhase at ha
  split at ha
  · exact h.serves ha
  · cases ha

theorem dueDeadline_queued (h : s.dueDeadline ch n = some e) : e ∈ s.work ∧ e.state = .queued := by
  have hdue := List.find?_some h
  obtain ⟨-, -, hqueued, -⟩ := of_decide_eq_true hdue
  exact ⟨List.mem_of_find?_eq_some h, hqueued⟩

theorem PoolLawful.clockTick (h : PoolLawful s) (he : exec .clockTick s = .next t) : PoolLawful t := by
  have hwork : { s with work := s.work.map Entry.tick }.pool = s.pool := by
    unfold State.pool
    rw [work_map_pool (fun e => by unfold Entry.tick; split <;> rfl)]
  exact PoolLawful.of_next ((h.same hwork).same (by rfl)) he

theorem PoolLawful.deadlineExpiry (h : PoolLawful s) (he : exec (.deadlineExpiry ch n) s = .next t) : PoolLawful t := by
  refine PoolLawful.of_next ?_ he
  dsimp only
  split
  · exact h
  · next e hdue =>
    obtain ⟨hmem, hqueued⟩ := dueDeadline_queued hdue
    have hraised : PoolLawful (raise ch .late s) := h.same (raise_pool ..)
    have hu : Unowned e.order (raise ch .late s) := (h.unowned hmem (by rw [hqueued]; simp)).same (raise_pool ..)
    split
    exacts [(hraised.endEntry hu).settle, hraised.same (updEntry_pool _ _ (fun _ => rfl))]

theorem PoolLawful.arbiterChoice (h : PoolLawful s) (he : exec .arbiterChoice s = .next t) : PoolLawful t := by
  refine PoolLawful.of_next ?_ he
  split
  · next hfree =>
    obtain ⟨hchosen, hidle⟩ := h.endProtectedChoices ((driveFree_iff s).1 hfree).1
    exact (hchosen.chooseAndGrant hidle).settle
  · exact h

theorem PoolLawful.seekTimeout (h : PoolLawful s) (he : exec .seekTimeout s = .next t) : PoolLawful t := by
  refine PoolLawful.of_next ?_ he
  split
  · have hcounted : PoolLawful (updSeq (fun q => { q with seekTimeouts := min 2 (q.seekTimeouts + 1) }) s) := h.same (updSeq_pool _ rfl)
    dsimp only
    split
    · next v hstop =>
      obtain ⟨a, ha, hstop⟩ := Option.bind_eq_some_iff.1 hstop
      exact PoolLawful.settle (((hcounted.serves ha).stopAtCommandEnd hstop).same (issueRestore_pool v))
    · exact hcounted.same (issueRestore_pool _)
  · exact h

theorem PoolLawful.restoreTimeout (h : PoolLawful s) (he : exec .restoreTimeout s = .next t) : PoolLawful t := by
  refine PoolLawful.of_next ?_ he
  split
  · refine (PoolLawful.depart (PoolLawful.same ?_ (enterOffline_pool _))).settle
    split
    · next a ha =>
      split
      exacts [(h.serves ha).olderGone.seekFails, h]
    · exact h
  · exact h

theorem PoolLawful.seekDone (h : PoolLawful s) (he : exec .seekDone s = .next t) : PoolLawful t := by
  refine PoolLawful.of_next ?_ he
  split
  · dsimp only
    have harrived : ∀ c, PoolLawful (arrive c s) := fun c => h.same (arrive_pool ..)
    split
    · next a ha => exact ((harrived _).serves ha).accessGoesOn _
    · exact (harrived _).mountAdvance.same (releaseStop_pool _)
  · exact h

theorem PoolLawful.sectorPulse (h : PoolLawful s) {index : Bool} (he : exec (.sectorPulse index) s = .next t) : PoolLawful t := by
  have hcounted : PoolLawful (updSeq (fun q => { q with counter := nextCounter index q.counter }) s) := h.same (updSeq_pool _ rfl)
  refine PoolLawful.of_next ?_ he
  dsimp only
  split
  · next a _ ha => exact (hcounted.serves ha).searchPulse _
  · exact hcounted

theorem PoolLawful.drainTimerExpiry (h : PoolLawful s) (he : exec .drainTimerExpiry s = .next t) : PoolLawful t := by
  have hexpired : PoolLawful { s with volume := { s.volume with drainTimer := none, drainExpired := true } } := h.same rfl
  refine PoolLawful.of_next ?_ he
  dsimp only
  split
  · refine PoolLawful.settle ?_
    split
    · next a ha =>
      split
      exacts [(hexpired.serves ha).drainStop, hexpired]
    · exact hexpired
  · exact h

theorem exec_poolLawful (h : PoolLawful s) (c : Instr) (he : exec c s = .next t) : PoolLawful t := by
  cases c
  case read ch | write ch | append ch | flush ch | cancel ch | claim ch | mapRead ch | mapLoad ch | mapStore ch | defectRead ch | clear ch
      | scan ch | sweepHalt ch | context ch | settingsLoad ch | status ch | eventAck ch | faultRead ch | timeSet ch =>
    exact (h.takeRequest _).of_next he
  case powerOnReset levels =>
    refine ((afterPowerOn_lawful levels s).same ?_).of_next he
    split <;> simp
  case clockTick => exact h.clockTick he
  case seekTimeout => exact h.seekTimeout he
  case restoreTimeout => exact h.restoreTimeout he
  case deadlineExpiry => exact h.deadlineExpiry he
  case arbiterChoice => exact h.arbiterChoice he
  case seekDone => exact h.seekDone he
  case sectorPulse => exact h.sectorPulse he
  case drainTimerExpiry => exact h.drainTimerExpiry he
  case readyInactive =>
    exact (h.lineChange (fun u hu => (PoolLawful.depart (hu.same (by simp))).settle) ..).of_next he
  case doorOpen => exact (h.lineChange (fun u hu => hu.depart.settle) ..).of_next he
  case doorClose | unloadReleased | protectInactive => exact (h.lineChange (fun u hu => hu) ..).of_next he
  case powerInactive => exact (h.lineChange (fun u hu => hu.same (by rfl)) ..).of_next he
  case powerActive => exact (h.lineChange (fun u hu => hu.shutDown) ..).of_next he
  case protectActive =>
    exact (h.lineChange (fun u hu => (hu.protectSweep.onWriteAccess (fun _ ha hw => ha.askStop hw _)).settle) ..).of_next he
  case readyActive =>
    refine (h.lineChange (fun u hu => hu.same ?_) ..).of_next he
    split <;> simp
  case faultInactive =>
    refine (h.lineChange (fun u hu => ?_) ..).of_next he
    split
    exacts [hu.same ((issueRestore_pool _).trans (updSeq_pool _ rfl)), hu]
  case unloadPressed =>
    refine (h.lineChange (fun u hu => ?_) ..).of_next he
    split
    exacts [(PoolLawful.haltSweep (hu.same (by rfl))).settle, PoolLawful.settle (hu.same (by rfl)), hu]
  case faultActive =>
    refine (h.lineChange (fun u hu => ?_) ..).of_next he
    split
    exacts [PoolLawful.settle (hu.cutByFault.same (enterNotSafe_pool _)), hu]
  case leaseExpiry =>
    refine (h.same ?_).of_next he
    split <;> simp
  case resetRelease =>
    refine PoolLawful.of_next ?_ he
    split
    · refine h.lessPort (List.Subset.refl _) ?_
      simp only [Port.holding, Receiver.holding]
      omega
    · exact h
  case reservationMade =>
    refine PoolLawful.of_next ?_ he
    split
    · next f hf =>
      repeat' split
      exacts [h.reservationMade hf (by assumption), h, h]
    · exact h
  case attentionDelayExpiry =>
    refine PoolLawful.of_next ?_ he
    split
    exacts [h.same (updPort_pool _ _ (fun _ => rfl)), h]
  case collectionWindowExpiry =>
    refine PoolLawful.of_next ?_ he
    repeat' split
    exacts [h.same rfl, h, h]
  case seekDoneInactive =>
    refine PoolLawful.of_next ?_ he
    split
    exacts [h.same (updSeq_pool _ rfl), h]
  case headerPhaseComplete =>
    refine PoolLawful.of_next ?_ he
    split
    · exact h.same ((updSeq_pool _ rfl).trans ((headerFill_pool ..).trans (putHeader_pool ..)))
    · exact h
  case frameInactive =>
    refine PoolLawful.of_next ?_ he
    split
    exacts [h.setReceiver (Nat.zero_le _), h]
  case channelReset =>
    refine PoolLawful.of_next ?_ he
    split
    exacts [h, h.resetChannel]
  case inboundWord ch w => exact (h.takeWord w).of_next he
  case frameEarlyEnd =>
    refine PoolLawful.of_next ?_ he
    split
    exacts [h.rejectFrame rfl, h]
  case outboundWordTaken =>
    refine PoolLawful.of_next ?_ he
    repeat' split
    exacts [h.deliver _, h.same (updPort_pool _ _ (fun _ => rfl)), h]
  case requestRetake =>
    refine PoolLawful.of_next ?_ he
    split
    · next hst => exact h.retakeRequest (by rw [hst]; exact le_rfl)
    · exact h
  case headerReadComplete =>
    refine PoolLawful.of_next ?_ he
    split
    · next a ha => exact ((h.inPhase ha).same (noteCheck_pool ..)).headerChecked _
    · exact h
  case dataPhaseComplete =>
    refine PoolLawful.of_next ?_ he
    split
    · next a ha => exact ((h.inPhase ha).same (dataWritten_pool ..)).afterData
    · exact h
  case dataReadComplete =>
    refine PoolLawful.of_next ?_ he
    split
    · next a ha =>
      refine PoolLawful.settle ?_
      split
      exacts [(h.inPhase ha).goodField _, (h.inPhase ha).readAttemptFails]
    · exact h
  case readBackComplete hd f =>
    refine PoolLawful.of_next ?_ he
    dsimp only
    split
    · next a ha =>
      have hnoted := (h.inPhase ha).same (noteCheck_pool s (checkAddress a hd))
      refine PoolLawful.settle ?_
      split
      exacts [hnoted.writeCounts, hnoted.readBackFails]
    · exact h
  case faultPersistenceExpiry =>
    refine PoolLawful.of_next ?_ he
    dsimp only
    repeat' split
    exacts [PoolLawful.settle (h.depart.same (issueStop_pool _)), h.depart.settle, h]
  case storeBegin =>
    refine PoolLawful.of_next ?_ he
    repeat' split
    exacts [PoolLawful.settle (h.same (enterReleasing_pool s)),
      PoolLawful.settle (PoolLawful.beginVolume (h.same (by rfl)) (by simp [Owner.makes])), h]

theorem step_poolLawful (h : PoolLawful s) (he : step s = .next t) : PoolLawful t := by
  unfold step at he
  split at he
  · exact h.of_next he
  · next c rest _ => exact exec_poolLawful (h.same (by rfl)) c he

end Sys2Proof.Machine

namespace Sys2Proof.Proofs

open Sys2Proof.Machine Sys2Proof.Safety

/-- Settles O9: a command gives a channel buffers only out of its unused quota, or out of what the channel holds already, and what holds them
passes on no more than it held; a READ's run keeps an allocated buffer for every sector left of it. -/
theorem stepKeepsBuffersLawful : Obligations.StepKeepsBuffersLawful := by
  intro s t horders hsettings hruns hbuffers he
  have hlawful := step_poolLawful (poolLawful_of_laws horders hsettings hruns hbuffers) he
  have hA := hlawful.buffersLawful .A
  have hB := hlawful.buffersLawful .B
  exact ⟨hlawful.runsLawful, hlawful.buffersLawful, (Nat.add_le_add hA hB).trans hlawful.quotas⟩

end Sys2Proof.Proofs
end

section
/-! PROOFS. The write gate and what outlasts a step's passing work: the defect list, the medium, the settings, the lines and the POWER period; the
operations of the machine that leave them all as they are. -/

namespace Sys2Proof.Machine

open Sys2Proof.Safety

/-- What the drive's work leaves but for a sector's write, a failure recorded and a label loaded: the defect list, the medium, the settings,
the lines as both have taken them, the POWER period. -/
def State.lasting (s : State) : List Defect × List (Nat × SectorRecord) × Settings × LineSet × LineSet × Option ShutdownMode
    × Option ShutdownMode :=
  (s.seq.defects, s.medium, s.settings, s.levels, s.acted, s.powerPeriod, s.powerTaken)

/-- The same with the write gate and the place in which the sequencer holds it open (R121). -/
def State.gating (s : State) : (Bool × SeqState × Phase) × List Defect × List (Nat × SectorRecord) × Settings × LineSet × LineSet
    × Option ShutdownMode × Option ShutdownMode :=
  ((s.seq.gate, s.seq.state, s.seq.phase), s.lasting)

/-! ## The plain updates -/

@[simp] theorem lasting_mk {ports logs settings extents ctlClaim extClaims work posted nextOrder direction seq ctlBuffer volume sweep
    sweepSeen levels acted powerPeriod powerTaken powerOwed powerEarly clock medium pending takers} :
    State.lasting ⟨ports, logs, settings, extents, ctlClaim, extClaims, work, posted, nextOrder, direction, seq, ctlBuffer, volume, sweep,
      sweepSeen, levels, acted, powerPeriod, powerTaken, powerOwed, powerEarly, clock, medium, pending, takers⟩ =
        (seq.defects, medium, settings, levels, acted, powerPeriod, powerTaken) := rfl

@[simp] theorem lasting_eta (s : State) :
    (s.seq.defects, s.medium, s.settings, s.levels, s.acted, s.powerPeriod, s.powerTaken) = s.lasting := rfl

@[simp] theorem gating_mk {ports logs settings extents ctlClaim extClaims work posted nextOrder direction seq ctlBuffer volume sweep
    sweepSeen levels acted powerPeriod powerTaken powerOwed powerEarly clock medium pending takers} :
    State.gating ⟨ports, logs, settings, extents, ctlClaim, extClaims, work, posted, nextOrder, direction, seq, ctlBuffer, volume, sweep,
      sweepSeen, levels, acted, powerPeriod, powerTaken, powerOwed, powerEarly, clock, medium, pending, takers⟩ =
        ((seq.gate, seq.state, seq.phase), seq.defects, medium, settings, levels, acted, powerPeriod, powerTaken) := rfl

@[simp] theorem gating_eta (s : State) :
    ((s.seq.gate, s.seq.state, s.seq.phase), s.lasting) = s.gating := rfl

theorem foldl_gating {α : Type} {f : State → α → State} (h : ∀ s a, (f s a).gating = s.gating) (l : List α) (s : State) :
    (l.foldl f s).gating = s.gating := by
  induction l generalizing s with
  | nil => rfl
  | cons a l ih => rw [List.foldl_cons, ih, h]

section Operations

variable (s : State) (ch : Channel) (r : Request) (n m : Nat) (k : Slot) (ks : List Slot) (code : Code) (a : Access) (torn : Bool)
  (body : Body) (e : Entry)

@[simp] theorem updPort_gating (f : Port → Port) : (s.updPort ch f).gating = s.gating := rfl
@[simp] theorem raise_gating (ev : EventKind) : (raise ch ev s).gating = s.gating := rfl
@[simp] theorem raiseBoth_gating (ev : EventKind) : (raiseBoth ev s).gating = s.gating := rfl
@[simp] theorem placeFreed_gating : (placeFreed s).gating = s.gating := rfl
@[simp] theorem addDue_gating (d : Due) : (addDue ch d s).gating = s.gating := rfl
@[simp] theorem updExtent_gating (f : Extent → Extent) : (updExtent k f s).gating = s.gating := rfl
@[simp] theorem updFill_gating (f : Fill → Fill) : (updFill k f s).gating = s.gating := rfl
@[simp] theorem lowerPending_gating : (lowerPending k n s).gating = s.gating := rfl
@[simp] theorem reserveAppend_gating : (reserveAppend k n s).gating = s.gating := rfl
@[simp] theorem updEntry_gating (f : Entry → Entry) : (updEntry n f s).gating = s.gating := rfl
@[simp] theorem dropEntry_gating : (dropEntry n s).gating = s.gating := rfl
@[simp] theorem updPosted_gating (f : Posted → Posted) : (updPosted n f s).gating = s.gating := rfl
@[simp] theorem logFault_gating (p : Posted) : (logFault code s p).gating = s.gating := rfl
@[simp] theorem updAccess_gating (f : Access → Access) : (updAccess f s).gating = s.gating := rfl
@[simp] theorem countFailure_gating (further : Bool) : (countFailure further s).gating = s.gating := rfl
@[simp] theorem addStop_gating (c : Stop) : (addStop c s).gating = s.gating := rfl
@[simp] theorem noteMapLoad_gating : (noteMapLoad s).gating = s.gating := rfl
@[simp] theorem enterReleasing_gating : (enterReleasing s).gating = s.gating := rfl
@[simp] theorem setMount_gating (stage : MountStage) : (setMount stage s).gating = s.gating := rfl
@[simp] theorem mountComplete_gating : (mountComplete s).gating = s.gating := rfl
@[simp] theorem setSweepSector_gating : (setSweepSector m s).gating = s.gating := rfl
@[simp] theorem failItem_gating : (failItem s).gating = s.gating := rfl
@[simp] theorem fillAsLastDone_gating : (fillAsLastDone m k s).gating = s.gating := rfl
@[simp] theorem setReceiver_gating (v : Receiver) : (setReceiver ch v s).gating = s.gating := rfl
@[simp] theorem waitForPlace_gating : (waitForPlace ch r s).gating = s.gating := rfl
@[simp] theorem setClaim_gating (x : ClaimTarget) (c : ClaimRecord) : (setClaim x c s).gating = s.gating := by
  cases x <;> rfl

@[simp] theorem markSlots_gating (on : Bool) : (markSlots on ks s).gating = s.gating := foldl_gating (fun s k => updExtent_gating s k _) ks s

@[simp] theorem applyChange_gating (g : Slot × Option Definition) : (applyChange ch s g).gating = s.gating := by
  unfold applyChange
  dsimp only
  split <;> simp

@[simp] theorem noteCheck_gating (c : AddressCheck) : (noteCheck c s).gating = s.gating := by
  unfold noteCheck
  split <;> rfl

@[simp] theorem headerFill_gating : (headerFill a s).gating = s.gating := by
  rw [headerFill_extents]
  rfl

/-! ## Replies and endings (R25, R90, R98, R104, R177) -/

@[simp] theorem placeBoth_gating : (placeBoth s).gating = s.gating := by
  rw [placeBoth_frame]
  rfl

@[simp] theorem formReply_gating (reply : Reply) : (formReply ch reply s).gating = s.gating := by
  rw [formReply, placeDue, placeList_frame]
  rfl

@[simp] theorem complete_gating : (complete ch r code body s).gating = s.gating := formReply_gating ..

@[simp] theorem topUp_gating : (topUp ch s).gating = s.gating := by
  obtain ⟨w, h, -⟩ := topUp_work ch s
  rw [h]
  rfl

@[simp] theorem topUpBoth_gating : (topUpBoth s).gating = s.gating := by simp [topUpBoth]

@[simp] theorem refuse_gating : (refuse ch r code s).gating = s.gating := by simp [refuse]

@[simp] theorem endEntry_gating : (endEntry n code s).gating = s.gating := by
  rw [endEntry_frame]
  rfl

@[simp] theorem endEntries_gating (ns : List Nat) : (endEntries ns code s).gating = s.gating :=
  foldl_gating (fun s n => endEntry_gating s n code) ns s

@[simp] theorem postedLeaves_gating (fault : Bool) : (postedLeaves n fault s).gating = s.gating := by
  rw [postedLeaves_frame]
  rfl

@[simp] theorem leaveFaulted_gating (p : Posted) : (leaveFaulted p s).gating = s.gating := by
  unfold leaveFaulted
  split <;> simp

@[simp] theorem faultAll_gating (ns : List Nat) : (faultAll ns code s).gating = s.gating := by
  rw [faultAll_frame]
  rfl

@[simp] theorem faultPosted_gating : (faultPosted n code s).gating = s.gating := by
  have hone : ∀ u : State, (faultOne n code u).gating = u.gating := fun u => faultAll_gating u code [n]
  unfold faultPosted
  rw [hone]
  split <;> simp

@[simp] theorem fillBecomesUnknown_gating : (fillBecomesUnknown k s).gating = s.gating := by
  unfold fillBecomesUnknown
  dsimp only
  rw [foldl_gating (fun s (p : Posted) => faultPosted_gating s p.order .fillUnknown)]
  simp

/-! ## The sweep, and the ends of a drain (R157, R158, R167 to R174) -/

@[simp] theorem endSweep_gating (c : Option StopCause) : (endSweep c s).gating = s.gating := by
  rw [endSweep_frame]
  rfl

@[simp] theorem haltSweep_gating : (haltSweep s).gating = s.gating := by
  unfold haltSweep
  (repeat' split) <;> simp

@[simp] theorem giveResult_gating (x : SweepResult) : (giveResult x s).gating = s.gating := by
  unfold giveResult nextItem
  (repeat' split) <;> simp

@[simp] theorem stopAfterStep_gating (x : Option SweepResult) : (stopAfterStep x s).gating = s.gating := by
  unfold stopAfterStep
  (repeat' split) <;> simp

@[simp] theorem stepEnded_gating (x : Option SweepResult) : (stepEnded x s).gating = s.gating := by
  unfold stepEnded
  (repeat' split) <;> simp

@[simp] theorem stepUnmade_gating : (stepUnmade s).gating = s.gating := stepEnded_gating ..

@[simp] theorem clearingStepDone_gating : (clearingStepDone k m s).gating = s.gating := by
  unfold clearingStepDone passComplete
  split <;> simp

@[simp] theorem clearingStepFailed_gating : (clearingStepFailed k m s).gating = s.gating := by
  unfold clearingStepFailed
  dsimp only
  (repeat' split) <;> simp

@[simp] theorem scanningStepEnded_gating (size : Nat) (failed : Bool) : (scanningStepEnded m size failed s).gating = s.gating := by
  unfold scanningStepEnded
  (repeat' split) <;> simp

@[simp] theorem stepSeekError_gating : (stepSeekError s).gating = s.gating := by
  unfold stepSeekError
  (repeat' split) <;> simp

@[simp] theorem protectSweep_gating : (protectSweep s).gating = s.gating := by
  unfold protectSweep
  (repeat' split) <;> simp

@[simp] theorem drainExpiry_gating : (drainExpiry s).gating = s.gating := by
  unfold drainExpiry endVolumeWork
  dsimp only
  (repeat' split) <;> simp

@[simp] theorem drainCheck_gating : (drainCheck s).gating = s.gating := by
  unfold drainCheck drainEnds
  dsimp only
  (repeat' split) <;> simp

/-! ## The work of a run, kept in its list (R83, R84, R89, R99, R102, R141) -/

@[simp] theorem park_gating (o : Owner) : (park o torn s).gating = s.gating := by
  unfold park
  split <;> simp

@[simp] theorem reportSector_gating (c : Condition) : (reportSector a c s).gating = s.gating := by
  unfold reportSector
  split <;> rfl

@[simp] theorem reportTornAppend_gating : (reportTornAppend s).gating = s.gating := by
  unfold reportTornAppend
  (repeat' split) <;> simp

@[simp] theorem creditRun_gating : (creditRun a s).gating = s.gating := by
  unfold creditRun
  split <;> simp

@[simp] theorem dropBuffer_gating : (dropBuffer a s).gating = s.gating := by
  unfold dropBuffer
  split <;> simp

@[simp] theorem countCommitted_gating : (countCommitted a s).gating = s.gating := by
  unfold countCommitted
  split <;> simp

@[simp] theorem countTorn_gating : (countTorn a s).gating = s.gating := by
  unfold countTorn
  dsimp only
  (repeat' split) <;> simp

@[simp] theorem finishPosted_gating : (finishPosted n s).gating = s.gating := by
  unfold finishPosted commitPosted
  (repeat' split) <;> simp

@[simp] theorem clearCut_gating : (clearCut m k s).gating = s.gating := by
  unfold clearCut
  (repeat' split) <;> simp

theorem withSlot_gating {f : Slot → State → State} (h : ∀ k s, (f k s).gating = s.gating) : (withSlot a f s).gating = s.gating := by
  unfold withSlot
  split <;> simp [h]

@[simp] theorem endProtected_gating (o : Owner) : (endProtected o s).gating = s.gating := by
  unfold endProtected
  (repeat' split) <;> simp

@[simp] theorem endProtectedChoices_gating : (endProtectedChoices s).gating = s.gating := by
  have hchoices : ∀ (fuel : Nat) (s : State), (protectedChoices fuel s).gating = s.gating := by
    intro fuel
    induction fuel with
    | zero => exact fun _ => rfl
    | succ fuel ih =>
      intro s
      unfold protectedChoices
      (repeat' split) <;> simp [ih]
  unfold endProtectedChoices logProtected
  split
  · rw [foldl_gating (fun s p => logFault_gating s _ p), hchoices]
  · rfl

/-! ## Admission, but for SETTINGS-LOAD and what settles in it (chapter 4), and arriving frames (R175, R176) -/

@[simp] theorem joinOrWait_gating : (joinOrWait ch r e s).gating = s.gating := by
  unfold joinOrWait
  split <;> rfl

@[simp] theorem post_gating (p : Posted) : (post ch r p s).gating = s.gating := complete_gating ..

@[simp] theorem admitRead_gating : (admitRead ch r s).gating = s.gating := by
  unfold admitRead
  (repeat' split) <;> simp

@[simp] theorem admitWrite_gating : (admitWrite ch r s).gating = s.gating := by
  unfold admitWrite
  (repeat' split) <;> simp

@[simp] theorem admitAppend_gating : (admitAppend ch r s).gating = s.gating := by
  unfold admitAppend joinWork
  (repeat' split) <;> simp

@[simp] theorem admitFlush_gating : (admitFlush ch r s).gating = s.gating := by
  unfold admitFlush
  (repeat' split) <;> simp

@[simp] theorem admitMapStore_gating : (admitMapStore ch r s).gating = s.gating := by
  unfold admitMapStore
  (repeat' split) <;> simp

@[simp] theorem retakeRequest_gating : (retakeRequest ch r s).gating = s.gating := by
  unfold retakeRequest
  split <;> simp

@[simp] theorem retakeStage_gating : (retakeStage ch s).gating = s.gating := by
  unfold retakeStage
  split <;> simp

@[simp] theorem openSweep_gating (kind : SweepKind) : (openSweep ch r kind ks s).gating = s.gating := by
  unfold openSweep
  cases kind <;> simp

@[simp] theorem joinSweep_gating (sw : Sweep) : (joinSweep ch r sw ks s).gating = s.gating := by
  unfold joinSweep
  dsimp only
  split <;> simp

@[simp] theorem admitClaim_gating : (admitClaim ch r s).gating = s.gating := by
  unfold admitClaim
  dsimp only
  (repeat' split) <;> simp

@[simp] theorem admitMapRead_gating : (admitMapRead ch r s).gating = s.gating := by
  unfold admitMapRead
  (repeat' split) <;> simp

@[simp] theorem admitMapLoad_gating : (admitMapLoad ch r s).gating = s.gating := by
  have hchanges (gs : List (Slot × Option Definition)) : (gs.foldl (applyChange ch) s).gating = s.gating :=
    foldl_gating (fun s g => applyChange_gating s ch g) gs s
  unfold admitMapLoad
  (repeat' split) <;> simp [hchanges]

@[simp] theorem admitDefectRead_gating : (admitDefectRead ch r s).gating = s.gating := by
  unfold admitDefectRead
  (repeat' split) <;> simp

@[simp] theorem admitClear_gating : (admitClear ch r s).gating = s.gating := by
  unfold admitClear
  (repeat' split) <;> simp

@[simp] theorem admitScan_gating : (admitScan ch r s).gating = s.gating := by
  unfold admitScan
  (repeat' split) <;> simp

@[simp] theorem admitContext_gating : (admitContext ch r s).gating = s.gating := by
  unfold admitContext
  (repeat' split) <;> simp

@[simp] theorem admitStatus_gating : (admitStatus ch r s).gating = s.gating := by
  unfold admitStatus
  (repeat' split) <;> simp

@[simp] theorem admitEventAck_gating : (admitEventAck ch r s).gating = s.gating := by
  unfold admitEventAck
  (repeat' split) <;> simp

@[simp] theorem admitFaultRead_gating : (admitFaultRead ch r s).gating = s.gating := by
  unfold admitFaultRead
  (repeat' split) <;> simp

@[simp] theorem admitTimeSet_gating : (admitTimeSet ch r s).gating = s.gating := by
  unfold admitTimeSet
  (repeat' split) <;> simp

@[simp] theorem rejectFrame_gating (v : Receiver) (tag : Nat) (reason : LinkReason) : (rejectFrame ch v tag reason n s).gating = s.gating := by
  simp [rejectFrame]

@[simp] theorem takeWord_gating (w : Word) : (takeWord ch w s).gating = s.gating := by
  unfold takeWord takeHeaderWord takeFrameWord takeLengthWord takeCheckWord
  (repeat' split) <;> simp

theorem resetEntry_gating : (resetEntry ch s e).gating = s.gating := by
  unfold resetEntry
  (repeat' split) <;> simp

end Operations

end Sys2Proof.Machine
end

section
/-! PROOFS. O6 and O8: the laws of the write gate, the settings, the POWER period, the defect list and the medium, kept by whatever changes
what they speak of. -/

namespace Sys2Proof.Machine

open Sys2Proof.Safety

/-- The state `s`, reached from `u`, keeps what held at `u` of these laws. -/
structure DriveLawsKept (u s : State) : Prop where
  gate : GateLawful u → GateLawful s
  settings : SettingsLawful u → SettingsLawful s
  power : PowerLawful u → PowerLawful s
  defects : DefectsLawful u → DefectsLawful s
  medium : MediumLawful u → MediumLawful s

theorem DriveLawsKept.refl (u : State) : DriveLawsKept u u := ⟨id, id, id, id, id⟩

theorem DriveLawsKept.trans {u s t : State} (h : DriveLawsKept u s) (h' : DriveLawsKept s t) : DriveLawsKept u t :=
  ⟨fun x => h'.gate (h.gate x), fun x => h'.settings (h.settings x), fun x => h'.power (h.power x), fun x => h'.defects (h.defects x),
    fun x => h'.medium (h.medium x)⟩

/-- Where the gate is open only if it was open before, in its place, and the tables are the same, every law is kept. -/
theorem DriveLawsKept.narrowed {u s t : State} (h : DriveLawsKept u s) (hl : t.lasting = s.lasting)
    (hg : GateLawful s → t.seq.gate = true →
      t.seq.state = .transferring ∧ (t.seq.phase = .header ∨ t.seq.phase = .data) ∧ s.seq.gate = true) :
    DriveLawsKept u t := by
  simp only [State.lasting, Prod.mk.injEq] at hl
  obtain ⟨hdefects, hmedium, hsettings, hlevels, hacted, hperiod, htaken⟩ := hl
  have gate (hs : GateLawful s) : GateLawful t := fun hopen => by
    obtain ⟨hstate, hphase, hwas⟩ := hg hs hopen
    obtain ⟨-, -, hfault, hmode⟩ := hs hwas
    exact ⟨hstate, hphase, by rw [State.ownerActive, hacted]; exact hfault, by rw [htaken]; exact hmode⟩
  exact h.trans ⟨gate, by simp only [SettingsLawful, hsettings, imp_self],
    by simp only [PowerLawful, State.writeHold, State.lineActive, hlevels, hperiod, imp_self],
    by simp only [DefectsLawful, hdefects, imp_self], by simp only [MediumLawful, hmedium, imp_self]⟩

variable {u s t : State} {ch : Channel} {r : Request} {n m : Nat} {k : Slot} {code : Code} {a : Access} {torn : Bool} {cause : DefectCause}

/-- A step on that leaves the gate, its place and the tables as they were. -/
theorem DriveLawsKept.same (h : DriveLawsKept u s) (hs : t.gating = s.gating) : DriveLawsKept u t := by
  simp only [State.gating, Prod.mk.injEq] at hs
  obtain ⟨⟨hgate, hstate, hphase⟩, hl⟩ := hs
  refine h.narrowed hl fun hlaw hopen => ?_
  obtain ⟨hst, hph, -⟩ := hlaw (hgate ▸ hopen)
  exact ⟨hstate ▸ hst, hphase ▸ hph, hgate ▸ hopen⟩

/-- A step on that leaves the gate closed. -/
theorem DriveLawsKept.shut (h : DriveLawsKept u s) (hg : t.seq.gate = false) (hl : t.lasting = s.lasting) : DriveLawsKept u t :=
  h.narrowed hl fun _ hopen => absurd hopen (by rw [hg]; decide)

/-- A step on that leaves the gate as it was, from a place in which the law has it closed. -/
theorem DriveLawsKept.elsewhere (h : DriveLawsKept u s) (hg : t.seq.gate = s.seq.gate) (hl : t.lasting = s.lasting)
    (hs : ¬ (s.seq.state = .transferring ∧ (s.seq.phase = .header ∨ s.seq.phase = .data))) : DriveLawsKept u t :=
  h.narrowed hl fun hlaw hopen =>
    absurd (hlaw (hg ▸ hopen)) fun ⟨hstate, hphase, _⟩ => hs ⟨hstate, hphase⟩

theorem DriveLawsKept.foldl {α : Type} {f : State → α → State} (hf : ∀ s x, DriveLawsKept u s → DriveLawsKept u (f s x)) (l : List α)
    (h : DriveLawsKept u s) : DriveLawsKept u (l.foldl f s) := by
  induction l generalizing s with
  | nil => exact h
  | cons x l ih => exact ih (hf s x h)

/-! ## The tables that a step may replace -/

theorem DriveLawsKept.defectsSet (h : DriveLawsKept u s) {ds : List Defect} {o : Bool}
    (hd : DefectsLawful s → DefectsLawful { s with seq := { s.seq with defects := ds, overflow := o } }) :
    DriveLawsKept u { s with seq := { s.seq with defects := ds, overflow := o } } :=
  h.trans ⟨id, id, id, hd, id⟩

theorem DriveLawsKept.mediumSet (h : DriveLawsKept u s) {x : List (Nat × SectorRecord)}
    (hm : MediumLawful s → MediumLawful { s with medium := x }) : DriveLawsKept u { s with medium := x } :=
  h.trans ⟨id, id, id, id, hm⟩

theorem DriveLawsKept.settingsSet (h : DriveLawsKept u s) {x : Settings} (hx : SettingsLawful { s with settings := x }) :
    DriveLawsKept u { s with settings := x } :=
  h.trans ⟨id, fun _ => hx, id, id, id⟩

/-! ## The medium (R5, R6, R9) -/

theorem mediumLawful_set {x : SectorRecord} (hm : n < 7680) (hx : x.sound n = true) (h : MediumLawful s) :
    MediumLawful { s with medium := mediumSet n x s.medium } :=
  ⟨mediumWf_mediumSet hm h.1, fun y hy => (mem_mediumSet hy).elim (fun heq => heq ▸ hx) (h.2 y)⟩

/-- What a data field held is sound where the record of the medium is. -/
theorem oldData_sound (h : MediumLawful s) (n : Nat) {header : HeaderRecord}
    (hheader : ∀ i, header = .whole i → i = headerFor n i.state) : SectorRecord.sound n { header := header, data := s.oldData n } = true := by
  have hdata : ∀ ws c, s.oldData n = .whole ws c → c = crc ws := by
    intro ws c hold
    unfold State.oldData mediumAt at hold
    cases hfind : s.medium.find? (fun x => x.1 = n) with
    | none =>
      rw [hfind] at hold
      cases hold
    | some x =>
      rw [hfind] at hold
      have hsound := h.2 x (List.mem_of_find?_eq_some hfind)
      have hold' : x.2.data = .whole ws c := hold
      simp only [SectorRecord.sound, hold', Bool.and_eq_true, beq_iff_eq] at hsound
      exact hsound.2
  unfold SectorRecord.sound
  refine Bool.and_eq_true_iff.2 ⟨?_, ?_⟩
  · cases header with
    | torn => rfl
    | whole i => exact beq_iff_eq.2 (hheader i rfl)
  · cases hold : s.oldData n with
    | untouched => rfl
    | torn => rfl
    | whole ws c => exact beq_iff_eq.2 (hdata ws c hold)

theorem DriveLawsKept.putHeader (h : DriveLawsKept u s) {header : HeaderRecord}
    (hheader : ∀ i, header = .whole i → i = headerFor n i.state) : DriveLawsKept u (putHeader n header s) := by
  unfold Machine.putHeader
  split
  · next hn => exact h.mediumSet fun hs => mediumLawful_set hn (oldData_sound hs n hheader) hs
  · exact h

theorem DriveLawsKept.putData (h : DriveLawsKept u s) {st : HeaderState} {d : DataRecord} (hd : ∀ ws c, d = .whole ws c → c = crc ws) :
    DriveLawsKept u (putData n st d s) := by
  have hsound : SectorRecord.sound n { header := .whole (headerFor n st), data := d } = true := by
    refine Bool.and_eq_true_iff.2 ⟨beq_iff_eq.2 rfl, ?_⟩
    cases d with
    | untouched => rfl
    | torn => rfl
    | whole ws c => exact beq_iff_eq.2 (hd ws c rfl)
  unfold Machine.putData
  split
  · next hn => exact h.mediumSet (mediumLawful_set hn hsound)
  · exact h

theorem DriveLawsKept.tear (h : DriveLawsKept u s) : DriveLawsKept u (tear s) := by
  unfold Machine.tear
  repeat' split
  exacts [h, h.putHeader (fun _ hi => nomatch hi), h.putData (fun _ _ hd => nomatch hd), h]

/-! ## The defect list (R134 to R136) -/

theorem head_le_one (m : Nat) : headOf m ≤ 1 := by
  unfold headOf
  omega

theorem sector_le_eleven (m : Nat) : sectorOf m ≤ 11 := by
  unfold sectorOf
  omega

/-- The list with the count of one of its entries raised. -/
theorem defectsLawful_counted (c hd sc : Nat) {o : Bool} (h : DefectsLawful s) :
    DefectsLawful { s with seq := { s.seq with
      defects := s.seq.defects.map (fun d => if d.atAddress c hd sc then { d with cause := cause, count := min 255 (d.count + 1) } else d)
      overflow := o } } := by
  obtain ⟨hlen, hnd, hrange⟩ := h
  refine ⟨by simpa using hlen, ?_, fun d hd => ?_⟩
  · rw [List.map_map]
    refine Eq.mp (congrArg List.Nodup (List.map_congr_left fun d _ => ?_)) hnd
    simp only [Function.comp]
    split <;> rfl
  · obtain ⟨x, hx, rfl⟩ := List.mem_map.1 hd
    obtain ⟨h1, h2, h3, h4, h5, h6⟩ := hrange x hx
    split
    · exact ⟨h1, h2, h3, h4, le_min (by decide) (Nat.le_add_left 1 _), Nat.min_le_left ..⟩
    · exact ⟨h1, h2, h3, h4, h5, h6⟩

/-- The list with an entry of a sector that it did not have. -/
theorem defectsLawful_added {d : Defect} {o : Bool} (hroom : s.seq.defects.length < 16)
    (hnew : s.seq.defects.any (fun x => x.atAddress d.cylinder d.head d.sector) = false)
    (hd : 1 ≤ d.cylinder ∧ d.cylinder ≤ 319 ∧ d.head ≤ 1 ∧ d.sector ≤ 11 ∧ 1 ≤ d.count ∧ d.count ≤ 255) (h : DefectsLawful s) :
    DefectsLawful { s with seq := { s.seq with defects := s.seq.defects ++ [d], overflow := o } } := by
  obtain ⟨hlen, hnd, hrange⟩ := h
  refine ⟨by simpa using hroom, ?_, fun x hx => ?_⟩
  · simp only [List.map_append, List.map_cons, List.map_nil]
    refine List.nodup_append.2 ⟨hnd, List.nodup_singleton _, fun p hp q hq => ?_⟩
    obtain ⟨x, hx, rfl⟩ := List.mem_map.1 hp
    obtain rfl := List.mem_singleton.1 hq
    have hne := List.any_eq_false.1 hnew x hx
    simpa [Defect.atAddress, and_assoc] using hne
  · rcases List.mem_append.1 hx with hx | hx
    · exact hrange x hx
    · exact List.mem_singleton.1 hx ▸ hd

theorem DriveLawsKept.recordDefect (h : DriveLawsKept u s) {c : Nat} :
    DriveLawsKept u (recordDefect c (headOf m) (sectorOf m) cause s) := by
  unfold Machine.recordDefect
  split
  · exact h
  · next hcyl =>
    split
    · exact h.defectsSet (defectsLawful_counted c (headOf m) (sectorOf m))
    · next hnew =>
      split
      · next hroom =>
        refine h.defectsSet (defectsLawful_added hroom (Bool.eq_false_iff.2 hnew) ?_)
        exact ⟨(by omega : 1 ≤ c), (by omega : c ≤ 319), head_le_one m, sector_le_eleven m, le_rfl, (by decide : 1 ≤ 255)⟩
      · exact h.defectsSet id

theorem DriveLawsKept.removeDefect (h : DriveLawsKept u s) {c hd sc : Nat} : DriveLawsKept u (removeDefect c hd sc s) := by
  refine h.defectsSet (o := s.seq.overflow) fun ⟨hlen, hnd, hrange⟩ => ?_
  exact ⟨(List.length_filter_le ..).trans hlen, hnd.sublist (List.filter_sublist.map _),
    fun d hd => hrange d (List.mem_filter.1 hd).1⟩

/-- The defect list that a label's test passes is lawful (R11). -/
theorem defectsLawful_read {rs : List RawDefect} {ds : List Defect} (h : defectsOf rs = some ds) :
    DefectsLawful { s with seq := { s.seq with defects := ds, overflow := false } } := by
  unfold defectsOf at h
  split at h
  case isFalse => cases h
  case isTrue hok =>
    obtain ⟨hlen, hall, hnd⟩ := hok
    cases h
    have hsome : ∀ x ∈ rs, (defectOf x).isSome = true := List.all_eq_true.1 hall
    have hraw := filterMap_defectOf hsome
    refine ⟨(List.length_filterMap_le ..).trans hlen, ?_, fun d hd => ?_⟩
    · have haddress : (rs.filterMap defectOf).map (fun d => (d.cylinder, d.head, d.sector)) =
          ((rs.filterMap defectOf).map Defect.raw).map (fun x => (x.cylinder, x.head, x.sector)) := by
        rw [List.map_map]
        rfl
      show ((rs.filterMap defectOf).map (fun d => (d.cylinder, d.head, d.sector))).Nodup
      rw [haddress, hraw]
      exact hnd
    · have hmem : d.raw ∈ rs := hraw ▸ List.mem_map_of_mem hd
      obtain ⟨h1, h2, h3, h4, -, h5, h6⟩ := (defectOf_isSome d.raw).1 (hsome _ hmem)
      exact ⟨h1, h2, h3, h4, h5, h6⟩

theorem testLabel_defects {l : Label} {map : Vector (Option Definition) 32} {ds : List Defect} (h : testLabel l = some (map, ds)) :
    defectsOf l.defects = some ds := by
  unfold testLabel at h
  split at h
  case h_2 => cases h
  case h_1 hds =>
    split at h
    · cases h
      exact hds
    · cases h

end Sys2Proof.Machine
end

section
/-! PROOFS. O6 and O8: the laws of the gate and of the tables, kept by the commands to the drive and by the work of an access (R79 to R84,
R114 to R133, R139 to R146, R150 to R162). -/

namespace Sys2Proof.Machine

open Sys2Proof.Safety

variable {u s t : State} {ch : Channel} {r : Request} {n m : Nat} {k : Slot} {code : Code} {a : Access} {torn : Bool} {cause : DefectCause}

/-! ## Commands to the drive: each leaves the gate closed (R121) -/

theorem DriveLawsKept.issueStop (h : DriveLawsKept u s) : DriveLawsKept u (issueStop s) := h.shut rfl rfl

theorem DriveLawsKept.issueRestore (h : DriveLawsKept u s) : DriveLawsKept u (issueRestore s) := h.shut rfl rfl

theorem DriveLawsKept.startSearch (h : DriveLawsKept u s) : DriveLawsKept u (startSearch a s) := h.shut rfl rfl

theorem DriveLawsKept.endAccess (h : DriveLawsKept u s) : DriveLawsKept u (endAccess s) := h.shut rfl rfl

theorem DriveLawsKept.enterNotSafe (h : DriveLawsKept u s) : DriveLawsKept u (enterNotSafe s) := h.shut rfl rfl

theorem DriveLawsKept.releaseStop (h : DriveLawsKept u s) : DriveLawsKept u (releaseStop s) := by
  unfold Machine.releaseStop
  split
  exacts [h.issueStop, h]

theorem DriveLawsKept.settle (h : DriveLawsKept u s) : DriveLawsKept u (settle s) :=
  DriveLawsKept.releaseStop (h.same (by simp))

theorem DriveLawsKept.approach (h : DriveLawsKept u s) : DriveLawsKept u (approach s) := by
  unfold Machine.approach
  repeat' split
  exacts [h, h.startSearch, h.shut rfl rfl]

theorem DriveLawsKept.nextPassage (h : DriveLawsKept u s) : DriveLawsKept u (nextPassage s) := by
  unfold Machine.nextPassage
  repeat' split
  exacts [h, h.shut rfl rfl, h.startSearch]

theorem DriveLawsKept.turnTo (h : DriveLawsKept u s) : DriveLawsKept u (turnTo m s) :=
  DriveLawsKept.nextPassage (h.same (updAccess_gating ..))

theorem DriveLawsKept.beginAccess (h : DriveLawsKept u s) : DriveLawsKept u (beginAccess a s) :=
  DriveLawsKept.approach (h.same rfl)

theorem DriveLawsKept.seqDeparts (h : DriveLawsKept u s) : DriveLawsKept u (seqDeparts s) := by
  unfold Machine.seqDeparts
  dsimp only
  repeat' split
  all_goals exact h.shut rfl rfl

/-- The gate opens only while the sequencer has taken neither FAULT nor POWER in IMMEDIATE mode as active, in the HEADER phase. -/
theorem DriveLawsKept.openGate (h : DriveLawsKept u s) (hstate : s.seq.state = .transferring) : DriveLawsKept u (openGate a s) := by
  unfold Machine.openGate
  split
  · next hallowed =>
    simp only [State.gateAllowed, Bool.and_eq_true, Bool.not_eq_true', bne_iff_ne, ne_eq] at hallowed
    obtain ⟨⟨⟨-, hfault⟩, -⟩, hmode⟩ := hallowed
    exact h.trans ⟨fun _ _ => ⟨hstate, .inl rfl, hfault, hmode⟩, id, id, id, id⟩
  · exact h.startSearch

theorem DriveLawsKept.endEntry (h : DriveLawsKept u s) : DriveLawsKept u (endEntry n code s) := h.same (by simp)

/-! ## Grants (R83) and the sweep's steps (R168) -/

theorem DriveLawsKept.beginLabelWrite (h : DriveLawsKept u s) {o : Owner} {serial : BitVec 32} :
    DriveLawsKept u (beginLabelWrite o serial s) :=
  DriveLawsKept.beginAccess (h.same rfl)

theorem DriveLawsKept.grantEntry (h : DriveLawsKept u s) : DriveLawsKept u (grantEntry n s) := by
  unfold Machine.grantEntry
  split
  · exact h
  · have hactive : DriveLawsKept u (updEntry n (fun x => { x with state := .active, deadline := none }) s) := h.same (by simp)
    dsimp only
    repeat' split
    exacts [DriveLawsKept.beginAccess (hactive.same rfl), DriveLawsKept.beginAccess (hactive.same rfl), hactive.same (by simp),
      hactive.same (by simp), DriveLawsKept.beginAccess (hactive.same rfl), hactive.beginLabelWrite, hactive.beginLabelWrite, hactive]

theorem DriveLawsKept.grantPosted (h : DriveLawsKept u s) : DriveLawsKept u (grantPosted n s) := by
  unfold Machine.grantPosted
  split
  · exact h
  · have hcommitting : DriveLawsKept u (updPosted n (fun x => { x with committing := true, tornNext := false }) s) := h.same (by simp)
    dsimp only
    repeat' split
    exacts [hcommitting.beginAccess, hcommitting.same (by simp), hcommitting.same (by simp),
      DriveLawsKept.beginAccess (hcommitting.same rfl)]

theorem DriveLawsKept.beginStep (h : DriveLawsKept u s) {sw : Sweep} {it : SweepItem} {e : Extent} :
    DriveLawsKept u (beginStep sw it e m s) := by
  unfold Machine.beginStep
  split
  exacts [h.same (by simp), DriveLawsKept.beginAccess (h.same rfl)]

theorem DriveLawsKept.offerSweep (h : DriveLawsKept u s) : DriveLawsKept u (offerSweep s) := by
  unfold Machine.offerSweep takeOffer
  dsimp only
  repeat' split
  exacts [h, h, h, h, h.beginStep, h.same (by simp), DriveLawsKept.beginStep (h.same (by rfl))]

theorem DriveLawsKept.chooseAndGrant (h : DriveLawsKept u s) : DriveLawsKept u (chooseAndGrant s) := by
  unfold Machine.chooseAndGrant grant
  repeat' split
  exacts [h.offerSweep, DriveLawsKept.grantEntry (h.same rfl), DriveLawsKept.grantPosted (h.same rfl), h.same rfl]

/-! ## Run boundaries (R84, R103, R104) -/

theorem DriveLawsKept.boundaryEntry (h : DriveLawsKept u s) (stop : Option Stop) : DriveLawsKept u (boundaryEntry stop n s) := by
  have hparked : DriveLawsKept u (park (.entry n) false s) := h.same (by simp)
  unfold Machine.boundaryEntry
  repeat' split
  exacts [h, h.same (by simp), hparked, hparked, h.grantEntry, hparked]

theorem DriveLawsKept.boundaryPosted (h : DriveLawsKept u s) (stop : Option Stop) : DriveLawsKept u (boundaryPosted stop n s) := by
  have hparked : DriveLawsKept u (park (.posted n) false s) := h.same (by simp)
  unfold Machine.boundaryPosted
  repeat' split
  exacts [h, h.same (by simp), hparked, hparked, h.grantPosted, hparked]

theorem DriveLawsKept.runEnds (h : DriveLawsKept u s) : DriveLawsKept u (runEnds a s) := by
  have hended : DriveLawsKept u (creditRun a (Machine.endAccess s)) := h.endAccess.same (by simp)
  have hnext : DriveLawsKept u (topUpBoth (creditRun a (Machine.endAccess s))) := hended.same (by simp)
  unfold Machine.runEnds
  dsimp only
  repeat' split
  exacts [hended, hended.same (by simp), hnext.boundaryEntry _, hended, hended.same (by simp), hnext.boundaryPosted _, hended]

/-! ## Cuts and stops (R133, R140 to R146, R158) -/

theorem DriveLawsKept.endRun (h : DriveLawsKept u s) : DriveLawsKept u (endRun a code s) := by
  unfold Machine.endRun
  dsimp only
  split
  exacts [h.endAccess.same (by simp), h.endAccess.same (by simp), h.endAccess.same (by simp)]

theorem DriveLawsKept.stopRun (h : DriveLawsKept u s) : DriveLawsKept u (stopRun a torn s) := h.endAccess.same (by simp [Machine.stopRun])

theorem DriveLawsKept.storeEnds (h : DriveLawsKept u s) : DriveLawsKept u (storeEnds s) := h.endAccess.same rfl

theorem DriveLawsKept.cutRun (h : DriveLawsKept u s) : DriveLawsKept u (cutRun a torn s) := by
  unfold Machine.cutRun
  split
  exacts [h.endRun, h.stopRun]

theorem DriveLawsKept.withSlot (h : DriveLawsKept u s) {f : Slot → State → State} (hf : ∀ k, DriveLawsKept u (f k s)) :
    DriveLawsKept u (withSlot a f s) := by
  unfold Machine.withSlot
  split
  exacts [hf _, h]

theorem DriveLawsKept.appendPowerCut (h : DriveLawsKept u s) : DriveLawsKept u (appendPowerCut a k s) := by
  have htorn : DriveLawsKept u (countTorn a s) := h.same (by simp)
  have hended : DriveLawsKept u (Machine.endRun a .mediumError (reportSector a .mediumError s)) := DriveLawsKept.endRun (h.same (by simp))
  unfold Machine.appendPowerCut
  dsimp only
  repeat' split
  exacts [hended.same (by simp), h.cutRun, htorn.runEnds, htorn.cutRun]

theorem DriveLawsKept.appendFaultCut (h : DriveLawsKept u s) : DriveLawsKept u (appendFaultCut a k s) := by
  have hended : DriveLawsKept u (Machine.endRun a .writeFault s) := h.endRun
  unfold Machine.appendFaultCut
  split
  exacts [hended.same (by simp), hended, DriveLawsKept.endRun (h.same (by simp))]

/-- A sweep's step that is cut is made again. -/
theorem DriveLawsKept.stepCut (h : DriveLawsKept u s) : DriveLawsKept u (stepUnmade (Machine.endAccess s)) := h.endAccess.same (by simp)

theorem DriveLawsKept.clearingCut (h : DriveLawsKept u s) :
    DriveLawsKept u (stepUnmade (Machine.endAccess (Machine.withSlot a (clearCut n) s))) :=
  (h.withSlot fun _ => h.same (by simp)).stepCut

theorem DriveLawsKept.powerCut (h : DriveLawsKept u s) : DriveLawsKept u (powerCut a s) := by
  have htear := h.tear
  unfold Machine.powerCut
  dsimp only
  repeat' split
  exacts [htear.cutRun, htear.withSlot (fun _ => htear.appendPowerCut), htear.stopRun, htear.cutRun, htear.endAccess, htear.clearingCut, htear]

theorem DriveLawsKept.faultCut (h : DriveLawsKept u s) : DriveLawsKept u (faultCut a s) := by
  have htear := h.tear
  unfold Machine.faultCut
  dsimp only
  repeat' split
  exacts [htear.endRun, htear.withSlot (fun _ => htear.appendFaultCut), htear.endRun, htear.endAccess, htear.stopRun, htear.clearingCut,
    htear.stepCut, htear.endAccess, htear.endAccess]

theorem DriveLawsKept.takeStop (h : DriveLawsKept u s) (c : Stop) : DriveLawsKept u (takeStop a torn c s) := by
  unfold Machine.takeStop
  repeat' split
  exacts [h.powerCut, h.stopRun, h.stepCut, h.storeEnds, h.endRun]

theorem DriveLawsKept.drainStop (h : DriveLawsKept u s) : DriveLawsKept u (drainStop a s) := by
  unfold Machine.drainStop
  split
  exacts [h.stepCut, h.stopRun]

theorem DriveLawsKept.stopAtCommandEnd (h : DriveLawsKept u s) {t : State} (hs : s.stopAtCommandEnd a = some t) : DriveLawsKept u t := by
  revert hs
  unfold State.stopAtCommandEnd
  (repeat' split) <;> rintro ⟨⟩
  exacts [h.endAccess, h.takeStop _, h.drainStop]

/-! ## The mount (R150 to R154) -/

theorem DriveLawsKept.mountAdvance (h : DriveLawsKept u s) : DriveLawsKept u (mountAdvance s) := by
  have hlabel : DriveLawsKept u (beginLabelRead s) := DriveLawsKept.beginAccess (h.same rfl)
  unfold Machine.mountAdvance beginProbe
  repeat' split
  exacts [hlabel, hlabel, h.beginAccess, h, h, h]

theorem DriveLawsKept.searchFrom (h : DriveLawsKept u s) : DriveLawsKept u (searchFrom n s) := by
  unfold Machine.searchFrom
  repeat' split
  exacts [h.same (by simp), DriveLawsKept.mountAdvance (h.same (by simp)), h]

theorem DriveLawsKept.labelFound (h : DriveLawsKept u s) (l : Option Label) : DriveLawsKept u (labelFound l s) := by
  unfold Machine.labelFound
  split
  · next htest =>
    obtain ⟨l', hl, htest⟩ := Option.bind_eq_some_iff.1 htest
    exact DriveLawsKept.searchFrom ((h.defectsSet fun _ => defectsLawful_read (testLabel_defects htest)).same rfl)
  · exact h.same (by simp)

theorem DriveLawsKept.probeFound (h : DriveLawsKept u s) (x : Option HeaderState) : DriveLawsKept u (probeFound x s) := by
  have hfilled : ∀ k i f, DriveLawsKept u (Machine.searchFrom i (updFill k f s)) := fun _ _ _ => DriveLawsKept.searchFrom (h.same (by simp))
  have hhalved : ∀ k lo hi, DriveLawsKept u (Machine.mountAdvance (setMount (.search k lo hi) s)) := fun _ _ _ =>
    DriveLawsKept.mountAdvance (h.same (by simp))
  unfold Machine.probeFound
  split
  · cases x with
    | none => exact hfilled ..
    | some st =>
      dsimp only
      repeat' split
      exacts [hhalved .., hfilled .., hhalved .., hfilled ..]
  · exact h

theorem DriveLawsKept.mountAccessEnds (h : DriveLawsKept u s) {f : State → State} (hf : ∀ s, DriveLawsKept u s → DriveLawsKept u (f s)) :
    DriveLawsKept u (mountAccessEnds f s) := by
  unfold Machine.mountAccessEnds
  dsimp only
  split
  exacts [hf _ h.endAccess, h.endAccess]

theorem DriveLawsKept.beginMount (h : DriveLawsKept u s) : DriveLawsKept u (beginMount s) := by
  have hmounting : ∀ v, DriveLawsKept u { s with volume := v } := fun v => h.same rfl
  unfold Machine.beginMount
  dsimp only
  repeat' split
  exacts [(hmounting _).issueRestore.enterNotSafe, (hmounting _).issueRestore, hmounting _]

/-! ## Sectors read and written (R22, R123 to R131) -/

theorem DriveLawsKept.sectorEnds (h : DriveLawsKept u s) : DriveLawsKept u (sectorEnds a s) := by
  unfold Machine.sectorEnds
  repeat' split
  exacts [h.runEnds, h.takeStop _, h.stopRun, h.turnTo]

theorem DriveLawsKept.appendSectorEnds (h : DriveLawsKept u s) : DriveLawsKept u (appendSectorEnds a k s) := by
  unfold Machine.appendSectorEnds
  repeat' split
  exacts [h.runEnds, h.endRun, h.runEnds, h.takeStop _, h.stopRun, h.turnTo]

theorem DriveLawsKept.sectorRead (h : DriveLawsKept u s) (ws : List Word) (c : Option Condition) : DriveLawsKept u (sectorRead a ws c s) := by
  unfold Machine.sectorRead
  dsimp only
  repeat' split
  exacts [DriveLawsKept.sectorEnds (h.same (by simp)), DriveLawsKept.sectorEnds (h.same (by simp)), h.endAccess.same (by simp), h]

theorem DriveLawsKept.readFails (h : DriveLawsKept u s) : DriveLawsKept u (readFails a cause s) := by
  have hrecorded := h.recordDefect (c := a.cylinder) (m := a.sector) (cause := cause)
  unfold Machine.readFails
  dsimp only
  repeat' split
  exacts [hrecorded.sectorRead .., hrecorded.endAccess.same (by simp), hrecorded.mountAccessEnds fun _ hs => hs.labelFound _,
    hrecorded.mountAccessEnds fun _ hs => hs.probeFound _, hrecorded]

theorem DriveLawsKept.readAttemptFails (h : DriveLawsKept u s) : DriveLawsKept u (readAttemptFails a cause s) := by
  unfold Machine.readAttemptFails
  repeat' split
  exacts [h.endAccess, DriveLawsKept.nextPassage (h.same (by simp)), h.readFails]

theorem DriveLawsKept.goodField (h : DriveLawsKept u s) (f : FieldImage) : DriveLawsKept u (goodField a f s) := by
  unfold Machine.goodField
  split
  exacts [h.mountAccessEnds fun _ hs => hs.labelFound _, h.sectorRead .., h.sectorRead ..]

theorem DriveLawsKept.mapStoreDone (h : DriveLawsKept u s) : DriveLawsKept u (mapStoreDone n a s) := by
  have hstored : ∀ v, DriveLawsKept u (Machine.endAccess { s with volume := v }) := fun v => DriveLawsKept.endAccess (h.same rfl)
  unfold Machine.mapStoreDone
  dsimp only
  split
  exacts [(hstored _).endEntry, (hstored _).endEntry]

theorem DriveLawsKept.storeDone (h : DriveLawsKept u s) : DriveLawsKept u (storeDone s) := DriveLawsKept.storeEnds (h.same rfl)

theorem DriveLawsKept.countAppended (h : DriveLawsKept u s) : DriveLawsKept u (countAppended a k s) :=
  DriveLawsKept.appendSectorEnds (h.same (by simp))

theorem DriveLawsKept.writeCounts (h : DriveLawsKept u s) : DriveLawsKept u (writeCounts a s) := by
  have hremoved : DriveLawsKept u (Machine.removeDefect a.cylinder (headOf a.sector) (sectorOf a.sector) s) := h.removeDefect
  unfold Machine.writeCounts
  dsimp only
  repeat' split
  exacts [DriveLawsKept.sectorEnds (hremoved.same (by simp)), DriveLawsKept.sectorEnds (h.same (by simp)), h.withSlot fun _ => h.countAppended,
    h.mapStoreDone, h.storeDone, hremoved.endAccess.withSlot fun _ => hremoved.endAccess.same (by simp), h]

theorem DriveLawsKept.writeFails (h : DriveLawsKept u s) : DriveLawsKept u (writeFails a cause s) := by
  have hrecorded := h.recordDefect (c := a.cylinder) (m := a.sector) (cause := cause)
  unfold Machine.writeFails
  dsimp only
  repeat' split
  exacts [DriveLawsKept.endRun (hrecorded.same (by simp)), DriveLawsKept.nextPassage (hrecorded.same (by simp)),
    DriveLawsKept.endRun (hrecorded.same (by simp)), hrecorded.storeEnds,
    hrecorded.endAccess.withSlot fun _ => hrecorded.endAccess.same (by simp), hrecorded]

theorem DriveLawsKept.checkAttemptFails (h : DriveLawsKept u s) : DriveLawsKept u (checkAttemptFails a s) := by
  have hcounted : ∀ x, DriveLawsKept u (countFailure x s) := fun _ => h.same (by simp)
  unfold Machine.checkAttemptFails
  repeat' split
  exacts [(hcounted _).nextPassage, (hcounted _).writeFails, (hcounted _).nextPassage, (hcounted _).issueRestore]

theorem DriveLawsKept.readBackFails (h : DriveLawsKept u s) : DriveLawsKept u (readBackFails a s) := by
  unfold Machine.readBackFails
  dsimp only
  split
  exacts [DriveLawsKept.nextPassage (h.same (by simp)), DriveLawsKept.writeFails (h.same (by simp))]

theorem DriveLawsKept.markingSucceeds (h : DriveLawsKept u s) : DriveLawsKept u (markingSucceeds a k s) :=
  DriveLawsKept.appendSectorEnds (h.same (by simp))

theorem DriveLawsKept.markingFails (h : DriveLawsKept u s) : DriveLawsKept u (markingFails a cause k s) := by
  have hrecorded := h.recordDefect (c := a.cylinder) (m := a.sector) (cause := cause)
  have hended := DriveLawsKept.endRun (a := a) (code := .mediumError) (hrecorded.same (reportSector_gating _ a .mediumError))
  exact hended.same (by simp [Machine.markingFails])

theorem DriveLawsKept.checkFails (h : DriveLawsKept u s) : DriveLawsKept u (checkFails a s) := by
  unfold Machine.checkFails
  repeat' split
  exacts [h.withSlot (fun _ => h.markingFails), h.withSlot (fun _ => h.markingFails), h.readBackFails, h.checkAttemptFails, h.readAttemptFails]

/-! ## Passages (R120 to R122, R127, R128, R131) -/

/-- A header is read outside the HEADER and DATA phases of a write. -/
theorem DriveLawsKept.readHeader (h : DriveLawsKept u s) (hphase : s.seq.phase = .headerCheck) (st : HeaderState) :
    DriveLawsKept u (readHeader a st s) := by
  unfold Machine.readHeader
  split
  exacts [(h.mountAccessEnds fun _ hs => hs.probeFound _).settle, (h.mountAccessEnds fun _ hs => hs.labelFound _).settle,
    (h.mountAccessEnds fun _ hs => hs.labelFound _).settle, (h.sectorRead ..).settle, (h.sectorRead ..).settle,
    h.elsewhere rfl rfl (by simp [hphase])]

theorem DriveLawsKept.headerChecked (h : DriveLawsKept u s) (hstate : s.seq.state = .transferring) (hphase : s.seq.phase = .headerCheck)
    (c : AddressCheck) : DriveLawsKept u (headerChecked a c s) := by
  have hgate : DriveLawsKept u (Machine.openGate a s) := h.openGate hstate
  have hfails : DriveLawsKept u (Machine.settle (Machine.checkFails a s)) := h.checkFails.settle
  unfold Machine.headerChecked
  repeat' split
  exacts [(h.withSlot (fun _ => h.markingSucceeds)).settle, hfails, h, hgate, hgate, hfails, hfails, hgate, h.readHeader hphase _, hgate,
    hfails, hfails]

/-- A completed DATA phase closes the gate over a data field with its check word. -/
theorem DriveLawsKept.dataWritten (h : DriveLawsKept u s) : DriveLawsKept u (dataWritten a s) := by
  have hput : DriveLawsKept u (Machine.putData a.address a.headerWritten (dataFor (s.writeData a)) s) :=
    h.putData fun _ _ heq => by
      cases heq
      rfl
  exact hput.shut rfl rfl

theorem DriveLawsKept.afterData (h : DriveLawsKept u s) : DriveLawsKept u (afterData a s) := by
  unfold Machine.afterData
  repeat' split
  exacts [DriveLawsKept.nextPassage (h.same (by simp)), DriveLawsKept.nextPassage (h.same (by simp)), h.writeCounts.settle]

theorem DriveLawsKept.searchPulse (h : DriveLawsKept u s) (hstate : s.seq.state = .searching) (before : Option Nat) :
    DriveLawsKept u (searchPulse a before s) := by
  unfold Machine.searchPulse
  repeat' split
  exacts [h.elsewhere rfl rfl (by simp [hstate]), (DriveLawsKept.checkFails (h.same (by simp))).settle, h.same (by simp), h.same (by simp)]

/-! ## Where a command to the drive ends (R116 to R118) -/

theorem DriveLawsKept.seekFails (h : DriveLawsKept u s) : DriveLawsKept u (seekFails a s) := by
  have hended := h.endAccess
  unfold Machine.seekFails
  split
  exacts [DriveLawsKept.same (hended.withSlot fun _ => hended.same (by simp)) (stepSeekError_gating _), hended.same (by simp),
    h.mountAccessEnds fun _ hs => hs.labelFound _, h.mountAccessEnds fun _ hs => hs.probeFound _, h.storeEnds, h.endRun]

theorem DriveLawsKept.accessGoesOn (h : DriveLawsKept u s) (restored : Bool) : DriveLawsKept u (accessGoesOn a restored s) := by
  unfold Machine.accessGoesOn
  split
  · next hstop => exact (h.stopAtCommandEnd hstop).settle
  · split
    exacts [h.seekFails.settle, h.approach]

/-! ## Departure (R155) and what a line asks of the access in progress (R140, R144 to R146) -/

theorem DriveLawsKept.unlisted (h : DriveLawsKept u s) : DriveLawsKept u { s with seq := { s.seq with defects := [], overflow := false } } :=
  h.defectsSet fun _ => ⟨Nat.zero_le 16, List.nodup_nil, fun _ hd => absurd hd List.not_mem_nil⟩

theorem DriveLawsKept.depart (h : DriveLawsKept u s) : DriveLawsKept u (depart s) := by
  have hcut : ∀ a : Access, DriveLawsKept u (creditRun a (Machine.tear (reportTornAppend s))) := fun a =>
    (DriveLawsKept.tear (h.same (reportTornAppend_gating s))).same (by simp)
  have hended : ∀ {v es ps}, DriveLawsKept u v → DriveLawsKept u (endSweep (some .departure) (faultAll ps .volumeGone
      (endEntries es .volumeGone { Machine.seqDeparts v with ctlBuffer := .free }))) := fun hv => hv.seqDeparts.same (by simp)
  have hemptied : ∀ {w x c v}, DriveLawsKept u w → DriveLawsKept u (retakeStage .B (retakeStage .A (raiseBoth .volumeChange
      { w with extents := x, extClaims := c, seq := { w.seq with defects := [], overflow := false }, volume := v }))) := fun hw =>
    hw.unlisted.same (by simp)
  unfold Machine.depart
  split
  · exact h
  · dsimp only
    split
    exacts [hemptied (hended (hcut _)), hemptied (hended h)]

end Sys2Proof.Machine
end

section
/-! PROOFS. O6 and O8: what every command keeps of the laws of the gate and of the tables, and so every step. -/

namespace Sys2Proof.Machine

open Sys2Proof.Safety

variable {u s t : State} {ch : Channel} {r : Request} {a : Access}

/-! ## Requests (chapter 4) -/

theorem DriveLawsKept.admitCancel (h : DriveLawsKept u s) : DriveLawsKept u (admitCancel ch r s) := by
  unfold Machine.admitCancel
  repeat' split
  exacts [h.same (by simp), h.same (by simp), h.same (by simp), DriveLawsKept.settle (h.same (by simp)), h.same (by simp)]

theorem DriveLawsKept.admitSweepHalt (h : DriveLawsKept u s) : DriveLawsKept u (admitSweepHalt ch r s) := by
  have hrefused : ∀ c, DriveLawsKept u (refuse ch r c s) := fun _ => h.same (by simp)
  unfold Machine.admitSweepHalt
  repeat' split
  exacts [hrefused _, hrefused _, hrefused _, hrefused _, DriveLawsKept.settle (h.same (by simp))]

/-- Settings that a list of words holds are in the ranges of R65 and R66. -/
theorem settingsAt_lawful {ws : List Word} (hclass : ∀ c, classWordsOk ws c) (htail : tailWordsOk ws) :
    SettingsLawful { s with settings := settingsAt ws } := by
  obtain ⟨ha, ha', hb, hb', hsum, hdrain, hdrain', -⟩ := htail
  have hrow : ∀ c, rowLawful (classRowAt ws c) := fun c => by
    obtain ⟨hd, -, hr, hw, -⟩ := hclass c
    exact ⟨hd, hr, hw⟩
  refine ⟨fun c => ?_, fun ch => ?_, hsum, hdrain, hdrain'⟩
  · cases c
    exacts [hrow .urgent, hrow .setup, hrow .log, hrow .bulk]
  · cases ch
    exacts [⟨ha, ha'⟩, ⟨hb, hb'⟩]

theorem DriveLawsKept.admitSettingsLoad (h : DriveLawsKept u s) : DriveLawsKept u (admitSettingsLoad ch r s) := by
  have hrefused : ∀ c, DriveLawsKept u (refuse ch r c s) := fun _ => h.same (by simp)
  unfold Machine.admitSettingsLoad
  repeat' split
  case h_2.isFalse heq _ =>
    obtain ⟨-, hlen⟩ := (settingsOperands_iff r _).1 ‹_›
    obtain ⟨⟨hclass, htail⟩, rfl⟩ := (settingsOf_eq_some hlen _).1 heq
    exact (h.settingsSet (settingsAt_lawful hclass htail)).same (by simp)
  exacts [hrefused _, hrefused _, hrefused _, hrefused _, hrefused _]

/-- Whatever the kind of the request that the stage holds. -/
theorem DriveLawsKept.admitAs (h : DriveLawsKept u s) (kind : ReqKind) : DriveLawsKept u (admitAs kind ch r s) := by
  cases kind
  case cancel => exact h.admitCancel
  case sweepHalt => exact h.admitSweepHalt
  case settingsLoad => exact h.admitSettingsLoad
  all_goals exact h.same (by simp [Machine.admitAs])

theorem DriveLawsKept.takeRequest (h : DriveLawsKept u s) (kind : ReqKind) : DriveLawsKept u (takeRequest kind (Machine.admitAs kind) ch s) := by
  unfold Machine.takeRequest
  repeat' split
  exacts [h.admitAs kind, h, h]

/-! ## Resets (R137, R184) -/

theorem DriveLawsKept.afterPowerOn (levels : LineSet) (s : State) : DriveLawsKept s (s.afterPowerOn levels) := by
  obtain ⟨-, -, -, -, -, -, hdefects, hsettings, -⟩ := reset_lawful
  have hclosed : (s.afterPowerOn levels).seq.gate = false := rfl
  refine ⟨fun _ hopen => absurd hopen (by rw [hclosed]; decide), fun _ => hsettings, fun _ => ?_, fun _ => hdefects,
    (DriveLawsKept.refl s).tear.medium⟩
  simp only [PowerLawful, State.writeHold, State.lineActive, State.afterPowerOn]
  split
  · next hp => exact hp.symm
  · next hp => exact (Bool.eq_false_iff.2 hp).symm

theorem DriveLawsKept.resetChannel (h : DriveLawsKept u s) : DriveLawsKept u (resetChannel ch s) := by
  unfold Machine.resetChannel
  refine DriveLawsKept.settle (DriveLawsKept.same (DriveLawsKept.foldl (fun s e hs => hs.same (resetEntry_gating s ch e)) _ ?_) rfl)
  exact h.same (updPort_gating s ch Port.channelReset)

/-! ## Changes of the six lines (R137 to R146, R150, R155) -/

theorem hasLine_setLine (l m : Line) (active : Bool) (ls : LineSet) :
    hasLine (setLine l active ls) m = if m = l then active else hasLine ls m := by
  cases l <;> cases m <;> cases active <;> simp [hasLine, setLine, lineBit, lineIndex]

/-- The line monitor's part: a hold is in force exactly while the kept level of POWER is ACTIVE (R143). -/
theorem DriveLawsKept.monitorTakes (h : DriveLawsKept u s) (l : Line) (active : Bool) : DriveLawsKept u (monitorTakes l active s) := by
  unfold Machine.monitorTakes
  split
  · exact h
  · by_cases hl : l = .power
    · subst hl
      have hlevel : hasLine (setLine .power active s.levels) .power = active := hasLine_setLine .power .power active s.levels
      cases active
      · unfold periodChange endPeriod
        dsimp only
        split
        exacts [h.trans ⟨id, id, fun _ => hlevel.symm, id, id⟩, h.trans ⟨id, id, fun _ => hlevel.symm, id, id⟩]
      · exact h.trans ⟨id, id, fun _ => hlevel.symm, id, id⟩
    · have hlevel : hasLine (setLine l active s.levels) .power = hasLine s.levels .power := by
        rw [hasLine_setLine, if_neg (Ne.symm hl)]
      have hplain : periodChange l active (takeLine l active s) = takeLine l active s := by
        cases l
        case power => exact absurd rfl hl
        all_goals rfl
      rw [hplain]
      exact h.trans ⟨id, id, fun hp => hp.trans hlevel.symm, id, id⟩

/-- The blocks that act on a line take its change; all but FAULT becoming active leaves the place of an open gate. -/
theorem DriveLawsKept.acted (h : DriveLawsKept u s) {l : Line} {active : Bool} (hl : l = .fault → active = false) :
    DriveLawsKept u { s with acted := setLine l active s.acted } := by
  refine h.trans ⟨fun hs hopen => ?_, id, id, id, id⟩
  obtain ⟨hstate, hphase, hfault, hmode⟩ := hs hopen
  refine ⟨hstate, hphase, ?_, hmode⟩
  show hasLine (setLine l active s.acted) .fault = false
  rw [hasLine_setLine]
  split
  · next heq => exact hl heq.symm
  · exact hfault

theorem DriveLawsKept.lineChange (h : DriveLawsKept u s) {l : Line} {active : Bool} {act : State → State}
    (hact : ∀ s, DriveLawsKept u s → DriveLawsKept u (act { s with acted := setLine l active s.acted })) :
    DriveLawsKept u (Machine.lineChange l active act s) := by
  have howner : ∀ s, DriveLawsKept u s → DriveLawsKept u (ownerTakes l active act s) := fun s h => by
    unfold ownerTakes
    split
    exacts [h, hact _ h]
  have hrest : DriveLawsKept u { s with takers := s.takers.tail } := h.same rfl
  unfold Machine.lineChange
  dsimp only
  split
  exacts [hrest.monitorTakes .., howner _ hrest, howner _ (hrest.monitorTakes ..), howner _ (hrest.monitorTakes ..)]

/-- A change of a line other than FAULT becoming active. -/
theorem DriveLawsKept.lineChanged (h : DriveLawsKept u s) {l : Line} {active : Bool} {act : State → State} (hl : l = .fault → active = false)
    (hact : ∀ s, DriveLawsKept u s → DriveLawsKept u (act s)) : DriveLawsKept u (Machine.lineChange l active act s) :=
  h.lineChange fun _ hs => hact _ (hs.acted hl)

theorem settle_gate (h : s.seq.gate = false) : (settle s).seq.gate = false := by
  have hbefore : (drainCheck (placeBoth (topUpBoth (drainExpiry s)))).gating = s.gating := by simp
  simp only [State.gating, Prod.mk.injEq] at hbefore
  obtain ⟨⟨hgate, -⟩, -⟩ := hbefore
  unfold Machine.settle releaseStop
  split
  exacts [rfl, hgate.trans h]

/-- A step through a state in which the gate may stand open against the law, to one in which it is closed. -/
theorem DriveLawsKept.closing {v : State} (h : DriveLawsKept u s) (h' : DriveLawsKept v t) (hg : t.seq.gate = false)
    (hsettings : v.settings = s.settings) (hperiod : v.powerPeriod = s.powerPeriod) (hlevels : v.levels = s.levels)
    (hdefects : v.seq.defects = s.seq.defects) (hmedium : v.medium = s.medium) : DriveLawsKept u t :=
  ⟨fun _ hopen => absurd hopen (by rw [hg]; decide), fun x => h'.settings (by rw [SettingsLawful, hsettings]; exact h.settings x),
    fun x => h'.power (by rw [PowerLawful, State.writeHold, State.lineActive, hperiod, hlevels]; exact h.power x),
    fun x => h'.defects (by rw [DefectsLawful, hdefects]; exact h.defects x),
    fun x => h'.medium (by rw [MediumLawful, hmedium]; exact h.medium x)⟩

theorem DriveLawsKept.cutByFault (h : DriveLawsKept u s) : DriveLawsKept u (cutByFault s) := by
  unfold Machine.cutByFault
  repeat' split
  exacts [h.powerCut, h.faultCut, h]

/-- FAULT becoming active: the gate closes with the transfer that is cut, and in the other states no transfer has it open (R121, R140). -/
theorem DriveLawsKept.faultTaken (h : DriveLawsKept u s) :
    DriveLawsKept u
      (if s.seq.state.takesFault then
        Machine.settle (Machine.enterNotSafe (Machine.cutByFault { s with acted := setLine .fault true s.acted }))
      else { s with acted := setLine .fault true s.acted }) := by
  split
  · have hcut := (DriveLawsKept.refl { s with acted := setLine .fault true s.acted }).cutByFault.enterNotSafe.settle
    have hshut : (Machine.enterNotSafe (Machine.cutByFault { s with acted := setLine .fault true s.acted })).seq.gate = false := rfl
    exact h.closing hcut (settle_gate hshut) rfl rfl rfl rfl rfl
  · next hstate =>
    refine h.trans ⟨fun hs hopen => ?_, id, id, id, id⟩
    obtain ⟨htransferring, -⟩ := hs hopen
    exact absurd (congrArg SeqState.takesFault htransferring) hstate

theorem DriveLawsKept.onWriteAccess (h : DriveLawsKept u s) {f : Access → State → State} (hf : ∀ a, DriveLawsKept u (f a s)) :
    DriveLawsKept u (onWriteAccess f s) := by
  unfold Machine.onWriteAccess
  repeat' split
  exacts [hf _, h, h]

theorem DriveLawsKept.askStop (h : DriveLawsKept u s) (c : Stop) : DriveLawsKept u (askStop c a s) := by
  unfold Machine.askStop
  split
  exacts [h.same (by simp), h.takeStop c]

theorem DriveLawsKept.askCut (h : DriveLawsKept u s) : DriveLawsKept u (askCut a s) := by
  unfold Machine.askCut
  split
  exacts [h.same (by simp), h.powerCut]

theorem DriveLawsKept.powerStop (h : DriveLawsKept u s) : DriveLawsKept u (powerStop a s) := by
  unfold Machine.powerStop
  split
  exacts [h.askStop _, h.askStop _, h]

/-- POWER becoming active: SECTOR-END mode leaves the gate its place, IMMEDIATE mode closes it (R121, R144, R145). -/
theorem DriveLawsKept.shutDown (h : DriveLawsKept u s) : DriveLawsKept u (shutDown s) := by
  unfold Machine.shutDown
  dsimp only
  split
  · next hmode =>
    have htaken : DriveLawsKept u (takeBeginning s) := by
      refine h.trans ⟨fun hs hopen => ?_, id, id, id, id⟩
      obtain ⟨hstate, hphase, hfault, -⟩ := hs hopen
      exact ⟨hstate, hphase, hfault, by simp [takeBeginning, hmode]⟩
    split
    exacts [htaken.settle, (htaken.onWriteAccess fun _ => htaken.powerStop).settle]
  · have htaken := DriveLawsKept.refl (takeBeginning s)
    exact h.closing (DriveLawsKept.settle ((htaken.onWriteAccess fun _ => htaken.askCut).shut rfl rfl)) (settle_gate rfl) rfl rfl rfl rfl rfl

/-! ## The commands -/

theorem DriveLawsKept.of_next (hk : DriveLawsKept u s) (h : (.next s : Host.Outcome State Fault Refusal) = .next t) : DriveLawsKept u t :=
  Host.Outcome.next.inj h ▸ hk

theorem DriveLawsKept.execSeekTimeout (h : DriveLawsKept u s) (he : exec .seekTimeout s = .next t) : DriveLawsKept u t := by
  refine DriveLawsKept.of_next ?_ he
  split
  · dsimp only
    split
    · next hstop =>
      obtain ⟨a, -, hstop⟩ := Option.bind_eq_some_iff.1 hstop
      exact (DriveLawsKept.stopAtCommandEnd (h.same (by rfl)) hstop).issueRestore.settle
    · exact DriveLawsKept.issueRestore (h.same rfl)
  · exact h

theorem DriveLawsKept.enterNoCartridge (h : DriveLawsKept u s) : DriveLawsKept u (enterNoCartridge s) := h.shut rfl rfl

theorem DriveLawsKept.enterOffline (h : DriveLawsKept u s) : DriveLawsKept u (enterOffline s) := h.shut rfl rfl

theorem DriveLawsKept.olderGone (h : DriveLawsKept u s) : DriveLawsKept u (olderGone a s) := by
  unfold Machine.olderGone
  split
  exacts [h.same (by simp), h]

theorem DriveLawsKept.execRestoreTimeout (h : DriveLawsKept u s) (he : exec .restoreTimeout s = .next t) : DriveLawsKept u t := by
  refine DriveLawsKept.of_next ?_ he
  split
  · refine (DriveLawsKept.depart (DriveLawsKept.enterOffline ?_)).settle
    repeat' split
    exacts [h.olderGone.seekFails, h, h]
  · exact h

/-- SEEK_DONE: no transfer is in progress while a command is outstanding. -/
theorem DriveLawsKept.execSeekDone (h : DriveLawsKept u s) (he : exec .seekDone s = .next t) : DriveLawsKept u t := by
  refine DriveLawsKept.of_next ?_ he
  split
  · next hdone =>
    have hcommand : s.commandOutstanding = true := (Bool.and_eq_true_iff.1 hdone).2
    have harrived : ∀ c, DriveLawsKept u (arrive c s) := fun c => h.elsewhere rfl rfl fun ⟨hstate, _⟩ => by
      simp [State.commandOutstanding, hstate] at hcommand
    dsimp only
    split
    exacts [(harrived _).accessGoesOn _, (harrived _).mountAdvance.releaseStop]
  · exact h

/-- The end of a HEADER phase: the header stands on the medium with its check word, and the open gate is in its DATA phase (R8). -/
theorem DriveLawsKept.execHeaderPhaseComplete (h : DriveLawsKept u s) (he : exec .headerPhaseComplete s = .next t) :
    DriveLawsKept u t := by
  refine DriveLawsKept.of_next ?_ he
  split
  · next a _ =>
    have hput : DriveLawsKept u (Machine.putHeader a.address (.whole (headerFor a.address a.headerWritten)) s) :=
      h.putHeader fun _ heq => by
        cases heq
        rfl
    have hfilled := hput.same (headerFill_gating _ a)
    exact hfilled.narrowed rfl fun hs hopen => ⟨(hs hopen).1, .inr rfl, hopen⟩
  · exact h

theorem exec_driveLawsKept (c : Instr) (he : exec c s = .next t) : DriveLawsKept s t := by
  have h := DriveLawsKept.refl s
  cases c
  case read ch | write ch | append ch | flush ch | cancel ch | claim ch | mapRead ch | mapLoad ch | mapStore ch | defectRead ch | clear ch
      | scan ch | sweepHalt ch | context ch | settingsLoad ch | status ch | eventAck ch | faultRead ch | timeSet ch =>
    exact (h.takeRequest _).of_next he
  case powerOnReset levels =>
    have hreset := DriveLawsKept.afterPowerOn levels s
    refine DriveLawsKept.of_next ?_ he
    split
    exacts [hreset.beginMount, hreset]
  case seekTimeout => exact h.execSeekTimeout he
  case restoreTimeout => exact h.execRestoreTimeout he
  case seekDone => exact h.execSeekDone he
  case headerPhaseComplete => exact h.execHeaderPhaseComplete he
  case readyInactive =>
    refine DriveLawsKept.of_next ?_ he
    refine h.lineChanged (by decide) fun v hv => ?_
    have hcut : DriveLawsKept s (Machine.tear (reportTornAppend v)) := DriveLawsKept.tear (hv.same (by simp))
    exact hcut.enterNoCartridge.depart.settle
  case readyActive =>
    refine DriveLawsKept.of_next ?_ he
    refine h.lineChanged (by decide) fun v hv => ?_
    split
    exacts [(hv.mediumSet fun _ => ⟨rfl, fun _ hx => absurd hx List.not_mem_nil⟩).beginMount, hv]
  case doorOpen =>
    refine DriveLawsKept.of_next ?_ he
    exact h.lineChanged (by decide) fun v hv => hv.depart.settle
  case doorClose | unloadReleased | protectInactive =>
    refine DriveLawsKept.of_next ?_ he
    exact h.lineChanged (by decide) fun v hv => hv
  case powerInactive =>
    refine DriveLawsKept.of_next ?_ he
    refine h.lineChanged (by decide) fun v hv => hv.trans ⟨fun hs hopen => ?_, id, id, id, id⟩
    obtain ⟨hstate, hphase, hfault, -⟩ := hs hopen
    exact ⟨hstate, hphase, hfault, by simp⟩
  case powerActive =>
    refine DriveLawsKept.of_next ?_ he
    exact h.lineChanged (by decide) fun v hv => hv.shutDown
  case protectActive =>
    refine DriveLawsKept.of_next ?_ he
    refine h.lineChanged (by decide) fun v hv => ?_
    have hsweep := hv.same (protectSweep_gating v)
    exact (hsweep.onWriteAccess fun _ => hsweep.askStop _).settle
  case faultActive => exact (h.lineChange fun v hv => hv.faultTaken).of_next he
  case faultInactive =>
    refine DriveLawsKept.of_next ?_ he
    refine h.lineChanged (fun _ => rfl) fun v hv => ?_
    split
    exacts [DriveLawsKept.issueRestore (hv.same rfl), hv]
  case unloadPressed =>
    refine DriveLawsKept.of_next ?_ he
    refine h.lineChanged (by decide) fun v hv => ?_
    split
    exacts [DriveLawsKept.settle (hv.same (by simp [beginDrain])), DriveLawsKept.settle (hv.same rfl), hv]
  case clockTick => exact (h.same (by rfl)).of_next he
  case resetRelease | reservationMade | attentionDelayExpiry | collectionWindowExpiry | seekDoneInactive | frameInactive =>
    refine (h.same ?_).of_next he
    (repeat' split) <;> rfl
  case leaseExpiry =>
    refine (h.same ?_).of_next he
    split <;> simp
  case channelReset =>
    refine DriveLawsKept.of_next ?_ he
    repeat' split
    exacts [h, h.resetChannel]
  case inboundWord ch w => exact (h.same (by simp)).of_next he
  case frameEarlyEnd =>
    refine (h.same ?_).of_next he
    (repeat' split) <;> simp
  case outboundWordTaken =>
    refine DriveLawsKept.of_next ?_ he
    repeat' split
    exacts [DriveLawsKept.settle (h.same (by rfl)), h.same rfl, h]
  case requestRetake =>
    refine (h.same ?_).of_next he
    (repeat' split) <;> simp
  case deadlineExpiry =>
    refine DriveLawsKept.of_next ?_ he
    dsimp only
    repeat' split
    exacts [h, DriveLawsKept.settle (h.same (by simp)), h.same (by simp)]
  case arbiterChoice =>
    refine DriveLawsKept.of_next ?_ he
    split
    exacts [(DriveLawsKept.chooseAndGrant (h.same (endProtectedChoices_gating s))).settle, h]
  case sectorPulse =>
    refine DriveLawsKept.of_next ?_ he
    dsimp only
    split
    · next hstate _ => exact DriveLawsKept.searchPulse (h.same (by rfl)) hstate _
    · exact h.same rfl
  case headerReadComplete header =>
    refine DriveLawsKept.of_next ?_ he
    split
    · next a hpassage =>
      obtain ⟨⟨hstate, hphase⟩, -⟩ := Option.ite_none_right_eq_some.1 hpassage
      have hplace := noteCheck_gating s (checkAddress a header)
      simp only [State.gating, Prod.mk.injEq] at hplace
      obtain ⟨⟨-, hst, hph⟩, -⟩ := hplace
      exact DriveLawsKept.headerChecked (h.same (noteCheck_gating ..)) (hst.trans hstate) (hph.trans hphase) _
    · exact h
  case dataPhaseComplete =>
    refine DriveLawsKept.of_next ?_ he
    split
    exacts [h.dataWritten.afterData, h]
  case dataReadComplete =>
    refine DriveLawsKept.of_next ?_ he
    repeat' split
    exacts [(h.goodField _).settle, h.readAttemptFails.settle, h]
  case readBackComplete =>
    refine DriveLawsKept.of_next ?_ he
    dsimp only
    repeat' split
    exacts [(DriveLawsKept.writeCounts (h.same (noteCheck_gating ..))).settle, (DriveLawsKept.readBackFails (h.same (noteCheck_gating ..))).settle,
      h]
  case faultPersistenceExpiry =>
    refine DriveLawsKept.of_next ?_ he
    dsimp only
    repeat' split
    exacts [h.depart.issueStop.settle, h.depart.settle, h]
  case drainTimerExpiry =>
    refine DriveLawsKept.of_next ?_ he
    dsimp only
    repeat' split
    exacts [(DriveLawsKept.drainStop (h.same (by rfl))).settle, DriveLawsKept.settle (h.same (by rfl)), DriveLawsKept.settle (h.same (by rfl)), h]
  case storeBegin =>
    refine DriveLawsKept.of_next ?_ he
    repeat' split
    exacts [DriveLawsKept.settle (h.same (by simp)), h.beginLabelWrite.settle, h]

theorem step_driveLawsKept (he : step s = .next t) : DriveLawsKept s t := by
  unfold step at he
  split at he
  · exact (DriveLawsKept.refl s).of_next he
  · next c rest _ => exact DriveLawsKept.trans ((DriveLawsKept.refl s).same (by rfl)) (exec_driveLawsKept c he)

end Sys2Proof.Machine

namespace Sys2Proof.Proofs

open Sys2Proof.Machine Sys2Proof.Safety

/-- Settles O6: only a sector write that may begin opens the gate, and what leaves its phases, or takes FAULT or POWER in IMMEDIATE mode as
active, closes it; settings change as a request whose words are in range; the POWER period begins and ends with the kept level. -/
theorem stepKeepsGateSettingsAndPowerLawful : Obligations.StepKeepsGateSettingsAndPowerLawful :=
  ⟨fun _ _ hgate he => (step_driveLawsKept he).gate hgate, fun _ _ hsettings he => (step_driveLawsKept he).settings hsettings,
    fun _ _ hpower he => (step_driveLawsKept he).power hpower⟩

/-- Settles O8: entries join the defect list only for sectors that it does not hold, or with a label whose list R11 tests; a header or a data
field stands on the medium torn or as the controller forms it. -/
theorem stepKeepsDefectsAndMediumLawful : Obligations.StepKeepsDefectsAndMediumLawful :=
  ⟨fun _ _ hdefects he => (step_driveLawsKept he).defects hdefects, fun _ _ hmedium he => (step_driveLawsKept he).medium hmedium⟩

end Sys2Proof.Proofs
end

section
/-! PROOFS. O43: SECTOR_PULSE (R119, R120): the counter, the passage that begins, the search that goes on, and the twelfth pulse of a search
that has been UNSYNCHRONISED throughout. -/

namespace Sys2Proof.Machine

open Sys2Proof.Safety

variable {s : State} {a : Access} {index : Bool} {counter : Option Nat}

/-- The state with the counter after a pulse. -/
def State.counted (counter : Option Nat) (s : State) : State := { s with seq := { s.seq with counter := counter } }

theorem sectorPulse_elsewhere (h : s.seq.state ≠ .searching ∨ s.seq.access = none) :
    exec (.sectorPulse index) s = .next (s.counted (nextCounter index s.seq.counter)) := by
  show execSectorPulse index s = _
  unfold execSectorPulse
  refine congrArg _ ?_
  dsimp only
  split
  · next hstate haccess => exact absurd haccess (h.elim (absurd hstate) (fun hnone => by
      have hnone' : (updSeq (fun q => { q with counter := nextCounter index q.counter }) s).seq.access = none := hnone
      rw [hnone']
      exact nofun))
  · rfl

theorem sectorPulse_searching (hs : s.seq.state = .searching) (ha : s.seq.access = some a) :
    exec (.sectorPulse index) s = .next (searchPulse a s.seq.counter (s.counted (nextCounter index s.seq.counter))) := by
  have hs' : (updSeq (fun q => { q with counter := nextCounter index q.counter }) s).seq.state = .searching := hs
  have ha' : (updSeq (fun q => { q with counter := nextCounter index q.counter }) s).seq.access = some a := ha
  show execSectorPulse index s = _
  unfold execSectorPulse
  dsimp only
  rw [hs', ha']
  rfl

theorem searchPulse_found {before : Option Nat} {n : Nat} (hc : s.seq.counter = some n) (ht : s.seq.target = some n) :
    searchPulse a before s = beginPassage a s := if_pos ⟨by rw [hc]; rfl, hc.trans ht.symm⟩

/-- The target does not pass, and the search has not been UNSYNCHRONISED through twelve pulses. -/
theorem searchPulse_goesOn {before : Option Nat} (ha : s.seq.access = some a) (hother : ∀ n, s.seq.counter = some n → s.seq.target ≠ some n)
    (hearly : before.isSome ∨ s.seq.counter.isSome ∨ a.unsync < 11) :
    searchPulse a before s = { s with seq := { s.seq with
      access := some { a with unsync := if before = none ∧ s.seq.counter = none then a.unsync + 1 else 0 } } } := by
  have hfound : ¬ (s.seq.counter.isSome ∧ s.seq.counter = s.seq.target) := fun ⟨hsome, heq⟩ => by
    obtain ⟨n, hn⟩ := Option.isSome_iff_exists.1 hsome
    exact hother n hn (heq ▸ hn)
  unfold searchPulse
  rw [if_neg hfound]
  by_cases hunsync : before = none ∧ s.seq.counter = none
  · obtain ⟨rfl, hc⟩ := hunsync
    have hcount : ¬ (a.unsync + 1 ≥ 12) := by
      simp only [hc, Option.isSome_none, Bool.false_eq_true, false_or] at hearly
      omega
    simp [hc, hcount, updAccess, updSeq, ha]
  · have hsync : ¬ (before.isNone ∧ s.seq.counter.isNone) := by simpa using hunsync
    rw [if_neg hsync, if_neg hunsync]
    simp [updAccess, updSeq, ha]

theorem beginPassage_eq (ha : s.seq.access = some a) :
    beginPassage a s = { s with seq := { s.seq with
      state := .transferring, phase := if a.pass = .readBack then .readBack else .headerCheck
      access := some { a with underWay := a.underWay || !a.kind.writes, unsync := 0 } } } := by
  simp [beginPassage, updAccess, updSeq, ha, AccessKind.underWayAtPassage]

/-- A failed check of the sector's work with attempts left, of an access that the sequencer holds but for what the check does not ask. -/
theorem checkFails_retries {b : Access} (hb : s.seq.access = some b) (hp : a.pass = .work) (hlabel : a.kind ≠ .labelRead)
    (hprobe : a.kind ≠ .probe) (hf : a.failed < (if a.kind.writes = true then s.writeRetries a else s.readRetries a)) :
    checkFails a s = { s with seq := retried { b with failed := b.failed + 1, further := false } s.seq } := by
  have hnext := nextPassage_of_failure false hb
  unfold checkFails
  rw [hp]
  dsimp only
  split
  · next hwrites =>
    rw [if_pos hwrites] at hf
    unfold checkAttemptFails
    rw [if_pos (by omega), hnext]
  · next hreads =>
    rw [if_neg hreads] at hf
    have hmount : s.mountWasCut a = false := mountWasCut_false fun hk => hk.elim (absurd · hlabel) (absurd · hprobe)
    unfold readAttemptFails
    rw [hmount, if_neg (by simp), if_pos (by omega), hnext]

/-- The twelfth pulse of a search UNSYNCHRONISED throughout counts as a header failure (R119, log 17). -/
theorem searchPulse_twelfth (ha : s.seq.access = some a) (hc : s.seq.counter = none) (hu : a.unsync = 11) (hp : a.pass = .work)
    (hlabel : a.kind ≠ .labelRead) (hprobe : a.kind ≠ .probe)
    (hf : a.failed < (if a.kind.writes = true then s.writeRetries a else s.readRetries a)) :
    searchPulse a none s =
      settle { s with seq := retried { a with unsync := 0, failed := a.failed + 1, further := false } s.seq } := by
  have hfresh : updAccess (fun x => { x with unsync := 0 }) s = { s with seq := { s.seq with access := some { a with unsync := 0 } } } := by
    simp [updAccess, updSeq, ha]
  have hagain := checkFails_retries (s := { s with seq := { s.seq with access := some { a with unsync := 0 } } }) rfl hp hlabel hprobe hf
  unfold searchPulse
  rw [hfresh, hagain, if_neg (by simp [hc]), if_pos (by simp [hc]), if_pos (by omega)]
  rfl

end Sys2Proof.Machine

namespace Sys2Proof.Proofs

open Sys2Proof.Machine Sys2Proof.Safety

/-- Settles O43, by what the pulse meets: no search, the target's passage, a search that goes on, or its twelfth pulse without a counter. -/
theorem sectorPulse : Obligations.SectorPulse := by
  intro index s counter
  have hcounter : nextCounter index s.seq.counter = counter := rfl
  refine ⟨fun h => ?elsewhere, fun a n hs ha hc ht => ?found, fun a hs ha hother hearly => ?goesOn,
    fun a hs ha hc hindex hu hp hlabel hprobe hv hl hf => ?twelfth⟩
  case elsewhere => exact sectorPulse_elsewhere h
  case found =>
    rw [sectorPulse_searching hs ha, hcounter, searchPulse_found (s := s.counted counter) hc ht, beginPassage_eq (s := s.counted counter) ha]
    rfl
  case goesOn =>
    rw [sectorPulse_searching hs ha, hcounter, searchPulse_goesOn (s := s.counted counter) ha hother hearly]
    rfl
  case twelfth =>
    subst hindex
    have hnone : counter = none := by rw [← hcounter, hc]; rfl
    have hsame : s.counted none = s := by rw [State.counted, ← hc]
    rw [sectorPulse_searching hs ha, hcounter, hnone, hsame, hc, searchPulse_twelfth ha hc hu hp hlabel hprobe hf]
    exact ⟨_, rfl, settle_of_mounted hl hv⟩

end Sys2Proof.Proofs
end

section
/-! PROOFS. O41: SEEK_DONE_INACTIVE, SEEK_DONE and SEEK_TIMEOUT (R111, R112, R116 to R118), and the stops of a WRITE's run that are taken as
its command ends (R133, R144, R146, R158). -/

namespace Sys2Proof.Machine

open Sys2Proof.Safety

variable {s v u : State} {a : Access} {e : Entry} {c : Instr} {F : Sequencer → Sequencer}

theorem commandOutstanding_iff (s : State) : s.commandOutstanding = true ↔ s.seq.state = .seeking ∨ s.seq.state = .restoring := by
  simp [State.commandOutstanding]

/-! ## The commands, by what they meet -/

theorem seekDoneInactive_eq (h : s.seq.state = .seeking ∨ s.seq.state = .restoring) :
    exec .seekDoneInactive s = .next { s with seq := { s.seq with accepted := true } } :=
  congrArg _ (if_pos ((commandOutstanding_iff s).2 h))

theorem seekDoneInactive_ignored (h : ¬ (s.seq.state = .seeking ∨ s.seq.state = .restoring)) : exec .seekDoneInactive s = .next s :=
  congrArg _ (if_neg fun hout => h ((commandOutstanding_iff s).1 hout))

theorem seekDone_ignored (h : ¬ (s.seq.state = .seeking ∨ s.seq.state = .restoring) ∨ s.seq.accepted = false) : exec .seekDone s = .next s := by
  refine congrArg _ (if_neg fun hdone => ?_)
  obtain ⟨haccepted, hout⟩ := Bool.and_eq_true_iff.1 hdone
  exact h.elim (fun hnot => hnot ((commandOutstanding_iff s).1 hout)) (fun hno => by simp [hno] at haccepted)

/-- The sequencer as its command completes, the access apart (R116, R118). -/
def Sequencer.arrived (q : Sequencer) : Sequencer :=
  { q with state := .idle, cylinder := some (if q.state = .restoring then 0 else q.seekTo), seekTimer := none, restoreTimer := none
           accepted := false }

theorem arrive_eq (s : State) : arrive (if (s.seq.state == .restoring) = true then 0 else s.seq.seekTo) s = updSeq Sequencer.arrived s := by
  simp [arrive, updSeq, Sequencer.arrived]

section Done

variable (hout : s.seq.state = .seeking ∨ s.seq.state = .restoring) (haccepted : s.seq.accepted = true)

include hout haccepted

theorem seekDone_access (ha : s.seq.access = some a) :
    exec .seekDone s = .next (accessGoesOn a (s.seq.state == .restoring) (updSeq Sequencer.arrived s)) := by
  show execSeekDone s = _
  have hdone : (s.seq.accepted && s.commandOutstanding) = true := by rw [haccepted, (commandOutstanding_iff s).2 hout]; rfl
  have ha' : (updSeq Sequencer.arrived s).seq.access = some a := ha
  unfold execSeekDone
  rw [if_pos hdone]
  dsimp only
  rw [arrive_eq, ha']

theorem seekDone_alone (ha : s.seq.access = none) :
    exec .seekDone s = .next (releaseStop (mountAdvance (updSeq Sequencer.arrived s))) := by
  show execSeekDone s = _
  have hdone : (s.seq.accepted && s.commandOutstanding) = true := by rw [haccepted, (commandOutstanding_iff s).2 hout]; rfl
  have ha' : (updSeq Sequencer.arrived s).seq.access = none := ha
  unfold execSeekDone
  rw [if_pos hdone]
  dsimp only
  rw [arrive_eq, ha']

theorem seekDone_stopped {t : State} (ha : s.seq.access = some a) (ht : (updSeq Sequencer.arrived s).stopAtCommandEnd a = some t) :
    exec .seekDone s = .next (settle t) := by
  rw [seekDone_access hout haccepted ha, accessGoesOn, ht]

end Done

/-- The sequencer as a SEEK's time has run out (R117). -/
def Sequencer.seekLost (q : Sequencer) : Sequencer := { q with seekTimeouts := min 2 (q.seekTimeouts + 1) }

/-- The sequencer as it issues RESTORE (R111, R118). -/
def Sequencer.restoringFrom (q : Sequencer) : Sequencer :=
  { q with state := .restoring, cylinder := none, accepted := false, seekTimer := none, restoreTimer := some 600, target := none
           phase := .none, gate := false, access := q.access.map (fun a => { a with restored := true }) }

theorem issueRestore_eq (s : State) : issueRestore s = updSeq Sequencer.restoringFrom s := rfl

section TimedOut

variable (hs : s.seq.state = .seeking) (htimer : s.seq.seekTimer = some 0)

include hs htimer

theorem seekTimeout_stopped {t : State} (ha : s.seq.access = some a) (ht : (updSeq Sequencer.seekLost s).stopAtCommandEnd a = some t) :
    exec .seekTimeout s = .next (settle (updSeq Sequencer.restoringFrom t)) := by
  show execSeekTimeout s = _
  have hstop : (updSeq Sequencer.seekLost s).seq.access.bind (updSeq Sequencer.seekLost s).stopAtCommandEnd = some t := by
    rw [show (updSeq Sequencer.seekLost s).seq.access = some a from ha]
    exact ht
  unfold execSeekTimeout
  rw [if_pos ⟨hs, htimer⟩]
  dsimp only
  rw [show updSeq (fun q => { q with seekTimeouts := min 2 (q.seekTimeouts + 1) }) s = updSeq Sequencer.seekLost s from rfl, hstop]
  rfl

theorem seekTimeout_restores (hgoes : ∀ a, s.seq.access = some a → (updSeq Sequencer.seekLost s).stopAtCommandEnd a = none) :
    exec .seekTimeout s = .next (updSeq Sequencer.restoringFrom (updSeq Sequencer.seekLost s)) := by
  show execSeekTimeout s = _
  have hstop : (updSeq Sequencer.seekLost s).seq.access.bind (updSeq Sequencer.seekLost s).stopAtCommandEnd = none :=
    Option.bind_eq_none_iff.2 hgoes
  unfold execSeekTimeout
  rw [if_pos ⟨hs, htimer⟩]
  dsimp only
  rw [show updSeq (fun q => { q with seekTimeouts := min 2 (q.seekTimeouts + 1) }) s = updSeq Sequencer.seekLost s from rfl, hstop]
  rfl

end TimedOut

/-! ## What ends an access with its command (R133, R154, R158) -/

theorem stopNow_none (h : a.stops = []) : a.stopNow = none := by
  unfold Access.stopNow
  split
  · simp [h]
  · exact nextStop_none h

theorem stopAtCommandEnd_none (hstops : a.stops = []) (hdrain : s.volume.drainExpired = false)
    (hmount : a.kind = .labelRead ∨ a.kind = .probe → s.volume.state = .mounting) : s.stopAtCommandEnd a = none := by
  unfold State.stopAtCommandEnd
  rw [mountWasCut_false hmount, if_neg (by simp), stopNow_none hstops]
  simp [State.drainStops, hdrain]

theorem accessGoesOn_approach {restored : Bool} (ha : s.seq.access = some a) (hstops : a.stops = []) (hdrain : s.volume.drainExpired = false)
    (hmount : a.kind = .labelRead ∨ a.kind = .probe → s.volume.state = .mounting) (htimeouts : restored = true → s.seq.seekTimeouts < 2) :
    accessGoesOn a restored s = { s with seq := sent a s.seq } := by
  unfold accessGoesOn
  rw [stopAtCommandEnd_none hstops hdrain hmount]
  dsimp only
  rw [if_neg fun ⟨hr, htwo⟩ => absurd (htimeouts hr) (by omega), approach_eq_sent ha]

theorem mountAdvance_idle (h : s.volume.state ≠ .mounting) : mountAdvance s = s := if_neg fun hm => h hm.1

theorem mountAdvance_label (hv : s.volume.state = .mounting) (hmount : s.volume.mount = .restore) (hfree : s.driveFree = true) :
    mountAdvance s =
      { s with ctlBuffer := .labelIn, volume := { s.volume with mount := .label }
               seq := begun (Access.begin .volume .labelRead none false none 0 0 1 1) s.seq } := by
  unfold mountAdvance
  rw [if_pos ⟨hv, hfree⟩, hmount]
  dsimp only [beginLabelRead]
  rw [beginAccess_eq_begun]
  rfl

/-! ## A WRITE's run that is stopped with its command -/

/-- With no sector under way the stop that waits is taken. -/
theorem stopAtCommandEnd_stop (hk : a.kind = .writeRun) (hu : a.underWay = false) {x : Stop} (hx : a.nextStop = some x) :
    s.stopAtCommandEnd a = some (takeStop a a.tornResume x s) := by
  have hstop : a.stopNow = some x := by rw [Access.stopNow, hu]; exact hx
  unfold State.stopAtCommandEnd
  rw [mountWasCut_false (by simp [hk]), if_neg (by simp), hstop]

theorem stopAtCommandEnd_drain (hk : a.kind = .writeRun) (hu : a.underWay = false) (ho : a.owner = .entry e.order) (hstops : a.stops = [])
    (hdrain : s.volume.drainExpired = true) : s.stopAtCommandEnd a = some (stopRun a a.tornResume s) := by
  have hstops' : s.drainStops a = true := by simp [State.drainStops, hdrain, hu, Access.isRun, ho]
  have hrun : drainStop a s = stopRun a a.tornResume s := if_neg (by simp [hk])
  unfold State.stopAtCommandEnd
  rw [mountWasCut_false (by simp [hk]), if_neg (by simp), stopNow_none hstops, ← hrun]
  exact if_pos hstops'

theorem takeStop_protect (hk : a.kind = .writeRun) (torn : Bool) : takeStop a torn .protect s = endRun a .writeProtected s := by
  simp [takeStop, hk]

/-- An entry whose run is put down with the sectors it has done (R144). -/
def Entry.putDown (n : Nat) (torn : Bool) (e : Entry) : Entry :=
  { e with done := e.done + n, state := .parked, run := none, allocated := 0, tornNext := torn }

section Stopped

/-! The command ends at `v`, what it does with the sequencer after the stop is `F`, and `u` is `v` with the access ended and that done. -/

variable (hu : updSeq F (endAccess v) = u) (hown : a.owner = .entry e.order) (he : e ∈ u.work) (ho : OrdersLawful u)

include hu hown he ho

theorem endRun_commandEnd (code : Code) : updSeq F (endRun a code v) = endEntry e.order code (withEntry (e.credited a.done) u) := by
  have hcredited : updEntry e.order (Entry.credited a.done) u = withEntry (e.credited a.done) u := updEntry_of_mem ho he rfl
  have hcomm : updSeq F (updEntry e.order (Entry.credited a.done) (endAccess v)) = updEntry e.order (Entry.credited a.done) u := by
    rw [← hu]
    rfl
  rw [← hcredited, ← hcomm, ← updSeq_endEntry, endRun_entry hown]
  rfl

theorem stopRun_commandEnd (torn : Bool) : updSeq F (stopRun a torn v) = withEntry (e.putDown a.done torn) u := by
  have hput : updEntry e.order (Entry.putDown a.done torn) u = withEntry (e.putDown a.done torn) u := updEntry_of_mem ho he rfl
  rw [← hput, ← hu, stopRun_entry hown]
  rfl

variable (hexec : ∀ t, v.stopAtCommandEnd a = some t → exec c s = .next (settle (updSeq F t))) (hk : a.kind = .writeRun)
  (hunder : a.underWay = false) (hl : RepliesLawful u)

include hexec hk hunder hl

theorem commandEnd_protect (hv : u.volume.state = .mounted) (hwaits : ProtectWaits a) :
    ∃ t, exec c s = .next t ∧ SameButReservations (entryEnded (e.credited a.done) .writeProtected (withEntry (e.credited a.done) u)) t := by
  refine ⟨_, hexec _ (stopAtCommandEnd_stop hk hunder (nextStop_protect hwaits)), ?_⟩
  rw [takeStop_protect hk, endRun_commandEnd hu hown he ho]
  exact settle_endEntry_with ho hl hv he (credited_order ..) .writeProtected

theorem commandEnd_power (hv : u.volume.state = .mounted) (hwaits : PowerWaits a) :
    ∃ t, exec c s = .next t ∧ SameButReservations (withEntry (e.putDown a.done a.tornResume) u) t := by
  refine ⟨_, hexec _ (stopAtCommandEnd_stop hk hunder (nextStop_power hwaits)), ?_⟩
  rw [show takeStop a a.tornResume .power v = stopRun a a.tornResume v from rfl, stopRun_commandEnd hu hown he ho]
  exact settle_of_mounted hl hv

theorem commandEnd_drain (hvd : v.volume = u.volume) (hidle : u.seq.access = none) (hwaits : DrainWaits a u) :
    ∃ t, exec c s = .next t ∧ DrainEnded (withEntry (e.credited a.done) u) t := by
  obtain ⟨hstops, hstate, hexpired⟩ := hwaits
  refine ⟨_, hexec _ (stopAtCommandEnd_drain hk hunder hown hstops (by rw [hvd]; exact hexpired)), ?_⟩
  have hparked : park (.entry e.order) a.tornResume (withEntry (e.credited a.done) u) = withEntry (e.putDown a.done a.tornResume) u :=
    updEntry_withEntry (credited_order a.done e) rfl u
  rw [stopRun_commandEnd hu hown he ho, ← hparked]
  exact drainEnded_park (sameBut_refl (withEntry (e.credited a.done) u)) hidle hstate hexpired (withEntry_ordersLawful ho _) hl _ _

end Stopped

end Sys2Proof.Machine

namespace Sys2Proof.Proofs

open Sys2Proof.Machine Sys2Proof.Safety

/-- Settles O41, by what the command meets: none outstanding, an access that goes on or is stopped, a mount, or no one's command. -/
theorem seekDoneAndTimeout : Obligations.SeekDoneAndTimeout := by
  refine ⟨fun s => ?done, fun a e c s ha hk hown he hkind hunder ho hl hc => ?stopped, fun s hs htimer hgoes => ?timeout⟩
  case done =>
    intro outstanding q
    have hq : updSeq Sequencer.arrived s = { s with seq := q } := rfl
    refine ⟨seekDoneInactive_eq, seekDoneInactive_ignored, seekDone_ignored, fun a hout hacc ha hstops hdrain hmount htimeouts => ?access,
      fun hout hacc ha hmounting hreleasing => ?alone, fun hout hacc ha hv hmount => ?mounts⟩
    case access =>
      rw [seekDone_access hout hacc ha, hq]
      exact congrArg _ (accessGoesOn_approach (s := { s with seq := q }) ha hstops hdrain hmount fun h => htimeouts (beq_iff_eq.1 h))
    case alone =>
      rw [seekDone_alone hout hacc ha, hq, mountAdvance_idle (s := { s with seq := q }) hmounting,
        releaseStop_eq (s := { s with seq := q }) hreleasing]
    case mounts =>
      have hfree : State.driveFree { s with seq := q } = true := by simp [State.driveFree, q, ha]
      rw [seekDone_alone hout hacc ha, hq, mountAdvance_label (s := { s with seq := q }) hv hmount hfree, releaseStop_eq (by simp [hv])]
  case stopped =>
    rcases hc with ⟨rfl, hout, hacc⟩ | ⟨rfl, hs, htimer⟩
    · intro kept q with_
      have hexec : ∀ t, (updSeq Sequencer.arrived s).stopAtCommandEnd a = some t → exec .seekDone s = .next (settle (updSeq id t)) :=
        fun t ht => seekDone_stopped hout hacc ha ht
      have hu : updSeq id (endAccess (updSeq Sequencer.arrived s)) = { s with ctlBuffer := .free, seq := q } := rfl
      exact ⟨commandEnd_protect hu hown he ho hexec hk hunder hl, commandEnd_power hu hown he ho hexec hk hunder hl,
        commandEnd_drain hu hown he ho hexec hk hunder hl rfl rfl⟩
    · intro kept q with_
      have hexec : ∀ t, (updSeq Sequencer.seekLost s).stopAtCommandEnd a = some t →
          exec .seekTimeout s = .next (settle (updSeq Sequencer.restoringFrom t)) := fun t ht => seekTimeout_stopped hs htimer ha ht
      have hu : updSeq Sequencer.restoringFrom (endAccess (updSeq Sequencer.seekLost s)) = { s with ctlBuffer := .free, seq := q } := rfl
      exact ⟨commandEnd_protect hu hown he ho hexec hk hunder hl, commandEnd_power hu hown he ho hexec hk hunder hl,
        commandEnd_drain hu hown he ho hexec hk hunder hl rfl rfl⟩
  case timeout =>
    refine seekTimeout_restores hs htimer fun a ha => ?_
    obtain ⟨hstops, hdrain, hmount⟩ := hgoes a ha
    exact stopAtCommandEnd_none hstops hdrain hmount

end Sys2Proof.Proofs
end

section
/-! PROOFS. The ports along the endings of one step (R104, R108, R157, R173): what is told to them, what waits in their stages, and which tags
are in use. -/

namespace Sys2Proof.Machine

open Sys2Proof.Safety

/-- On the way from `s` to `t` the events `E` have joined each port; besides them only what is due and the marks of waiting requests have
changed, and no tag has come into use. -/
structure PortsAlong (E : Channel → EventSet) (s t : State) : Prop where
  port : ∀ ch, t.port ch = { s.port ch with events := (s.port ch).events ||| E ch, due := (t.port ch).due, stage := (t.port ch).stage }
  waiting : ∀ ch r due, (s.port ch).stage = .waiting r due → ∃ due', (t.port ch).stage = .waiting r due'
  tags : ∀ ch tag, s.tagInUse ch tag = false → t.tagInUse ch tag = false

variable {s t u : State} {E E' : Channel → EventSet} {ch : Channel} {tag : Nat} {code : Code}

theorem or_noEvent (es : EventSet) : es ||| 0 = es := BitVec.or_zero

theorem noEvent_or (es : EventSet) : 0 ||| es = es := BitVec.zero_or

theorem PortsAlong.trans (h : PortsAlong E s t) (h' : PortsAlong E' t u) : PortsAlong (fun ch => E ch ||| E' ch) s u where
  port ch := by
    rw [h'.port ch, h.port ch, BitVec.or_assoc]
  waiting ch r due hw := by
    obtain ⟨due', hw'⟩ := h.waiting ch r due hw
    exact h'.waiting ch r due' hw'
  tags ch tag ht := h'.tags ch tag (h.tags ch tag ht)

/-- Nothing told first. -/
theorem PortsAlong.after (h : PortsAlong (fun _ => 0) s t) (h' : PortsAlong E t u) : PortsAlong E s u := by
  have hboth := h.trans h'
  simp only [noEvent_or] at hboth
  exact hboth

/-- Nothing told last. -/
theorem PortsAlong.before (h : PortsAlong E s t) (h' : PortsAlong (fun _ => 0) t u) : PortsAlong E s u := by
  have hboth := h.trans h'
  simp only [or_noEvent] at hboth
  exact hboth

/-! ## The tags in use (R52) -/

theorem tagInUse_false : s.tagInUse ch tag = false ↔
    (∀ e ∈ s.work, ¬ (e.channel = ch ∧ e.tag = tag)) ∧ (∀ sw, s.sweep = some sw → ¬ (sw.channel = ch ∧ sw.tag = tag))
      ∧ ∀ d ∈ (s.port ch).due, d.isSweepTag tag = false := by
  unfold State.tagInUse
  cases s.sweep <;> simp [and_assoc]

/-- No tag comes into use where the entries keep theirs, and neither sweep nor due reply comes. -/
theorem tagInUse_kept (hw : ∀ x ∈ t.work, ∃ y ∈ s.work, y.channel = x.channel ∧ y.tag = x.tag) (hs : ∀ sw, t.sweep = some sw → s.sweep = some sw)
    (hd : ∀ d ∈ (t.port ch).due, d ∈ (s.port ch).due ∨ d.isSweepTag tag = false) (h : s.tagInUse ch tag = false) :
    t.tagInUse ch tag = false := by
  obtain ⟨hwork, hsweep, hdue⟩ := tagInUse_false.1 h
  refine tagInUse_false.2 ⟨fun x hx ⟨hxc, hxt⟩ => ?_, fun sw hsw => hsweep sw (hs sw hsw), fun d hdm => (hd d hdm).elim (hdue d) id⟩
  obtain ⟨y, hy, hyc, hyt⟩ := hw x hx
  exact hwork y hy ⟨hyc.trans hxc, hyt.trans hxt⟩

/-! ## One operation after another -/

/-- An operation that leaves the ports. -/
theorem portsAlong_of_ports (hp : t.ports = s.ports) (hw : ∀ x ∈ t.work, ∃ y ∈ s.work, y.channel = x.channel ∧ y.tag = x.tag)
    (hs : ∀ sw, t.sweep = some sw → s.sweep = some sw) : PortsAlong (fun _ => 0) s t := by
  have hport : ∀ ch, t.port ch = s.port ch := fun ch => by rw [State.port, hp]; rfl
  refine ⟨fun ch => ?_, fun ch r due h => ⟨due, (hport ch).symm ▸ h⟩, fun ch tag => tagInUse_kept hw hs fun d hd => .inl (hport ch ▸ hd)⟩
  rw [hport, or_noEvent]

theorem PortsAlong.refl (s : State) : PortsAlong (fun _ => 0) s s :=
  portsAlong_of_ports rfl (fun x hx => ⟨x, hx, rfl, rfl⟩) fun _ h => h

theorem placeFreed_stage (s : State) (ch : Channel) : ((placeFreed s).port ch).stage = (s.port ch).stage.placeFreed := by
  cases ch <;> rfl

theorem portsAlong_placeFreed (s : State) : PortsAlong (fun _ => 0) s (placeFreed s) where
  port ch := by
    rw [or_noEvent]
    cases ch <;> rfl
  waiting ch r due h := ⟨true, by rw [placeFreed_stage, h]; rfl⟩
  tags ch tag := tagInUse_kept (fun x hx => ⟨x, hx, rfl, rfl⟩) (fun _ h => h) fun d hd => .inl ((placeFreed_port s ch).2.1 ▸ hd)

theorem portsAlong_dropEntry (n : Nat) (s : State) : PortsAlong (fun _ => 0) s (dropEntry n s) :=
  (portsAlong_of_ports (s := s) (t := { s with work := s.work.filter (fun e => e.order ≠ n) }) rfl
    (fun x hx => ⟨x, (List.mem_filter.1 hx).1, rfl, rfl⟩) fun _ h => h).after (portsAlong_placeFreed _)

/-- A reply that is due, whose tag is in use already or which is no sweep's. -/
theorem portsAlong_addDue (c : Channel) {d : Due} (s : State) (hd : ∀ tag, s.tagInUse c tag = false → d.isSweepTag tag = false) :
    PortsAlong (fun _ => 0) s (addDue c d s) where
  port ch := by
    rw [addDue_port, or_noEvent]
    split <;> rfl
  waiting ch r due h := ⟨due, by rw [addDue_port]; split <;> exact h⟩
  tags ch tag h := by
    refine tagInUse_kept (s := s) (fun x hx => ⟨x, hx, rfl, rfl⟩) (fun _ hs => hs) (fun e he => ?_) h
    rw [addDue_port] at he
    split at he
    · next heq =>
      rcases List.mem_append.1 he with he | he
      · exact .inl he
      · exact .inr (List.mem_singleton.1 he ▸ hd tag (heq ▸ h))
    · exact .inl he

theorem portsAlong_endEntry (n : Nat) (code : Code) (s : State) : PortsAlong (fun _ => 0) s (endEntry n code s) := by
  cases he : s.entry n with
  | none =>
    rw [endEntry_none he]
    exact .refl s
  | some e =>
    obtain rfl := entry_order he
    have hreleased : PortsAlong (fun _ => 0) s (pendingReleased e s) := by
      obtain ⟨g, hg⟩ := pendingReleased_extents e
      rw [hg]
      exact portsAlong_of_ports rfl (fun x hx => ⟨x, hx, rfl, rfl⟩) fun _ h => h
    have hfinished : PortsAlong (fun _ => 0) (pendingReleased e s) (updEntry e.order (Entry.finishedWith code) (pendingReleased e s)) := by
      refine portsAlong_of_ports rfl (fun x hx => ?_) fun _ h => h
      obtain ⟨y, hy, rfl⟩ := List.mem_map.1 hx
      refine ⟨y, hy, ?_⟩
      split <;> exact ⟨rfl, rfl⟩
    rw [endEntry_some he]
    split
    · exact hreleased.after (portsAlong_dropEntry ..)
    · exact hreleased.after (hfinished.after (portsAlong_addDue _ _ fun _ _ => rfl))

theorem portsAlong_endEntries (ns : List Nat) (code : Code) (s : State) : PortsAlong (fun _ => 0) s (endEntries ns code s) := by
  induction ns generalizing s with
  | nil => exact .refl s
  | cons n ns ih => exact (portsAlong_endEntry n code s).after (ih _)

/-! ## Posted writes that fault (R104, R108) -/

theorem sawEnd_tag (n : Nat) (fault : Bool) (e : Entry) : (e.sawEnd n fault).tag = e.tag := by
  unfold Entry.sawEnd
  split <;> rfl

theorem portsAlong_postedLeaves (n : Nat) (fault : Bool) (s : State) : PortsAlong (fun _ => 0) s (postedLeaves n fault s) := by
  have hflushes : ∀ (l : List Entry) (u : State), PortsAlong (fun _ => 0) u (l.foldl endFlush u) := by
    intro l
    induction l with
    | nil => exact .refl
    | cons e l ih =>
      intro u
      obtain heq | ⟨-, -, heq⟩ := endFlush_eq u e
      · rw [List.foldl_cons, heq]
        exact ih u
      · rw [List.foldl_cons, heq]
        exact (portsAlong_endEntry _ _ u).after (ih _)
  have hgone : PortsAlong (fun _ => 0) s { s with
      posted := s.posted.filter (fun p => p.order ≠ n), work := s.work.map (Entry.sawEnd n fault) } := by
    refine portsAlong_of_ports rfl (fun x hx => ?_) fun _ h => h
    obtain ⟨y, hy, rfl⟩ := List.mem_map.1 hx
    exact ⟨y, hy, (sawEnd_channel ..).symm, (sawEnd_tag ..).symm⟩
  rw [postedLeaves_eq]
  exact (hgone.after (portsAlong_placeFreed _)).after (hflushes _ _)

theorem portsAlong_raise (c : Channel) (k : EventKind) (s : State) :
    PortsAlong (fun ch => if ch = c then k.bit else 0) s (raise c k s) where
  port ch := by
    rw [raise, updPort_port]
    split
    · next heq => subst heq; rfl
    · rw [or_noEvent]
  waiting ch r due h := ⟨due, by
    rw [raise, updPort_port]
    split
    · next heq => subst heq; exact h
    · exact h⟩
  tags ch tag := by
    refine tagInUse_kept (fun x hx => ⟨x, hx, rfl, rfl⟩) (fun _ h => h) fun d hd => .inl ?_
    rw [raise, updPort_port] at hd
    split at hd
    · next heq => subst heq; exact hd
    · exact hd

/-- The event that a posted write's fault tells its channel of. -/
def faultEvent (p : Posted) (ch : Channel) : EventSet := if ch = p.channel then EventKind.postedFault.bit else 0

theorem portsAlong_faultOne {p : Posted} (hp : s.postedWrite p.order = some p) (code : Code) :
    PortsAlong (faultEvent p) s (faultOne p.order code s) := by
  have hlogged : PortsAlong (fun _ => 0) s
      (if p.kind = .append then lowerPending p.slot p.buffers.length (logFault code s p) else logFault code s p) := by
    refine portsAlong_of_ports ?_ (fun x hx => ⟨x, ?_, rfl, rfl⟩) fun sw h => ?_
    · split <;> rfl
    · revert hx
      split <;> exact id
    · revert h
      split <;> exact id
  rw [faultOne_some hp]
  exact (hlogged.after (portsAlong_raise p.channel .postedFault _)).before (portsAlong_postedLeaves ..)

/-- The events that the faults of a list of posted writes tell of. -/
def faultEvents (l : List Posted) (ch : Channel) : EventSet :=
  if l.any (fun p => decide (p.channel = ch)) then EventKind.postedFault.bit else 0

theorem faultEvents_cons (p : Posted) (l : List Posted) (ch : Channel) :
    faultEvents (p :: l) ch = faultEvent p ch ||| faultEvents l ch := by
  unfold faultEvents faultEvent
  rw [List.any_cons]
  by_cases hp : p.channel = ch
  · by_cases hl : l.any (fun p => decide (p.channel = ch)) = true <;> simp [hp, hl]
  · simp [hp, Ne.symm hp]

/-- Every posted write faulted, in the order of the list. -/
theorem portsAlong_faultAll (hp : (s.posted.map (fun p => p.order)).Nodup) (code : Code) :
    PortsAlong (faultEvents s.posted) s (faultAll (s.posted.map (fun p => p.order)) code s) := by
  suffices h : ∀ (l : List Posted) (u : State), u.posted = l → (l.map (fun p => p.order)).Nodup →
      PortsAlong (faultEvents l) u (faultAll (l.map (fun p => p.order)) code u) from h s.posted s rfl hp
  intro l
  induction l with
  | nil => exact fun u _ _ => .refl u
  | cons p l ih =>
    intro u hu hnd
    have hfind : u.postedWrite p.order = some p := by
      rw [State.postedWrite, hu]
      exact find?_posted_order hnd (List.mem_cons_self ..)
    rw [List.map_cons, List.nodup_cons] at hnd
    have hleft : (faultOne p.order code u).posted = l := by
      rw [faultOne_frame hfind]
      show u.posted.filter (fun x => decide (x.order ≠ p.order)) = l
      rw [hu, List.filter_cons_of_neg (by simp)]
      exact List.filter_eq_self.2 fun x hx => decide_eq_true fun h => hnd.1 (h ▸ List.mem_map_of_mem (f := fun p : Posted => p.order) hx)
    have hboth := (portsAlong_faultOne hfind code).trans (ih _ hleft hnd.2)
    rw [funext (faultEvents_cons p l)]
    exact hboth

/-! ## The end of the sweep (R173) -/

theorem portsAlong_raiseBoth (k : EventKind) (s : State) : PortsAlong (fun _ => k.bit) s (raiseBoth k s) where
  port ch := by cases ch <;> rfl
  waiting ch r due h := ⟨due, by cases ch <;> exact h⟩
  tags ch tag := tagInUse_kept (fun x hx => ⟨x, hx, rfl, rfl⟩) (fun _ h => h) fun d hd => .inl (by cases ch <;> exact hd)

/-- The sweep's tag passes from the sweep to its completion. -/
theorem portsAlong_endSweep (cause : Option StopCause) (s : State) :
    PortsAlong (fun _ => if s.sweep.isSome then EventKind.sweepEnd.bit else 0) s (endSweep cause s) := by
  cases hsw : s.sweep with
  | none =>
    have hsame : endSweep cause s = s := by rw [endSweep, hsw]
    rw [hsame]
    exact .refl s
  | some sw =>
    have hgone : PortsAlong (fun _ => EventKind.sweepEnd.bit) s (sweepGone sw s) := by
      have htable : PortsAlong (fun _ => 0) s { s with
          extents := Vector.ofFn (fun k => if sw.items.any (fun it => it.slot = k) then
            (s.extents.get k).map (fun e => { e with clearing := false }) else s.extents.get k)
          sweep := none, sweepSeen := true } :=
        portsAlong_of_ports rfl (fun x hx => ⟨x, hx, rfl, rfl⟩) fun _ h => absurd h nofun
      exact htable.after (portsAlong_raiseBoth .sweepEnd _)
    rw [endSweep_eq hsw]
    by_cases hdiscard : sw.discard = true
    · rw [if_pos hdiscard]
      exact hgone
    · rw [if_neg hdiscard]
      have hport := fun ch => addDue_port sw.channel (.sweep (sw.completion cause)) (sweepGone sw s) ch
      refine ⟨fun ch => ?_, fun ch r due h => ?_, fun ch tag h => ?_⟩
      · rw [hport, hgone.port ch]
        split <;> rfl
      · obtain ⟨due', h'⟩ := hgone.waiting ch r due h
        exact ⟨due', by rw [hport]; split <;> exact h'⟩
      · obtain ⟨hwork, -, hdue⟩ := tagInUse_false.1 (hgone.tags ch tag h)
        refine tagInUse_false.2 ⟨hwork, fun _ h => absurd h nofun, fun d hd => ?_⟩
        rw [hport] at hd
        split at hd
        · next heq =>
          rcases List.mem_append.1 hd with hd | hd
          · exact hdue d hd
          · have hne := (tagInUse_false.1 h).2.1 sw hsw
            obtain rfl := List.mem_singleton.1 hd
            exact beq_eq_false_iff_ne.2 fun htag => hne ⟨heq.symm, htag⟩
        · exact hdue d hd

end Sys2Proof.Machine
end

section
/-! PROOFS. Replies placed, and formed and placed (R177): what becomes of the queues, of finished entries, of an answer that stands in a stage,
and of what waits in the other one. -/

namespace Sys2Proof.Machine

open Sys2Proof.Safety

/-- A completion stands as a channel's answer: in its stage, or in its queue. -/
def Answered (ch : Channel) (c : Completion) (s : State) : Prop :=
  (s.port ch).stage = .reply (.completion c) ∨ Reply.completion c ∈ (s.port ch).queue

/-- On the way from `s` to `t` replies have been given out: queues grow, finished entries leave for them, answers stand, no tag comes into
use, and what waits in the stage of a channel not among `xs` waits on. -/
structure Given (xs : List Channel) (s t : State) : Prop where
  frame : t = { s with ports := t.ports, work := t.work, nextOrder := t.nextOrder }
  port : ∀ ch, t.port ch = { s.port ch with queue := (t.port ch).queue, due := (t.port ch).due, stage := (t.port ch).stage }
  queue : ∀ ch, ∃ more, (t.port ch).queue = (s.port ch).queue ++ more
  work : t.work.Sublist s.work
  entries : ∀ n y, s.entry n = some y →
    t.entry n = some y ∨ (y.state = .finished ∧ Reply.completion y.completion ∈ (t.port y.channel).queue)
  dues : DueOwn s → DueOwn t
  answers : ∀ ch c, Answered ch c s → Answered ch c t
  waiting : ∀ ch r due, ch ∉ xs → (s.port ch).stage = .waiting r due → ∃ due', (t.port ch).stage = .waiting r due'
  tags : ∀ ch tag, s.tagInUse ch tag = false → t.tagInUse ch tag = false

variable {s t u : State} {x ch : Channel} {xs : List Channel}

theorem Given.queueMem (h : Given xs s t) {r : Reply} (hr : r ∈ (s.port ch).queue) : r ∈ (t.port ch).queue := by
  obtain ⟨more, hmore⟩ := h.queue ch
  rw [hmore]
  exact List.mem_append_left _ hr

theorem Given.trans (h : Given xs s t) (h' : Given xs t u) : Given xs s u where
  frame := by
    have hst := h.frame
    rw [h'.frame, hst]
  port ch := by rw [h'.port ch, h.port ch]
  queue ch := by
    obtain ⟨more, hmore⟩ := h.queue ch
    obtain ⟨more', hmore'⟩ := h'.queue ch
    exact ⟨more ++ more', by rw [hmore', hmore, List.append_assoc]⟩
  work := h'.work.trans h.work
  entries n y hy := by
    rcases h.entries n y hy with hkept | ⟨hfin, hmem⟩
    · exact h'.entries n y hkept
    · exact .inr ⟨hfin, h'.queueMem hmem⟩
  dues hd := h'.dues (h.dues hd)
  answers ch c ha := h'.answers ch c (h.answers ch c ha)
  waiting ch r due hne hw := by
    obtain ⟨due', hw'⟩ := h.waiting ch r due hne hw
    exact h'.waiting ch r due' hne hw'
  tags ch tag ht := h'.tags ch tag (h.tags ch tag ht)

theorem Given.refl (xs : List Channel) (s : State) : Given xs s s where
  frame := rfl
  port _ := rfl
  queue _ := ⟨[], (List.append_nil _).symm⟩
  work := List.Sublist.refl _
  entries _ _ hy := .inl hy
  dues := id
  answers _ _ := id
  waiting _ _ due _ hw := ⟨due, hw⟩
  tags _ _ := id

theorem Given.mono (h : Given xs s t) {ys : List Channel} (hsub : xs ⊆ ys) : Given ys s t :=
  { h with waiting := fun ch r due hne => h.waiting ch r due fun hx => hne (hsub hx) }

/-! ## A due list given out -/

theorem placeReply_port (ch : Channel) (d : Due) (s : State) (c : Channel) :
    (placeReply ch d s).port c =
      { s.port c with queue := ((placeReply ch d s).port c).queue, due := (s.port c).due, stage := ((placeReply ch d s).port c).stage } := by
  cases d with
  | stage =>
    unfold placeReply
    dsimp only
    split
    · cases ch <;> cases c <;> rfl
    · rfl
  | entry n =>
    unfold placeReply
    dsimp only
    split
    · cases ch <;> cases c <;> rfl
    · rfl
  | sweep _ => cases ch <;> cases c <;> rfl

/-- A stage stands, with its request marked where a place has become free, or its answer has gone to the queue. -/
theorem placeReply_stage (ch : Channel) (d : Due) (s : State) (c : Channel) :
    ((placeReply ch d s).port c).stage = (s.port c).stage ∨ ((placeReply ch d s).port c).stage = (s.port c).stage.placeFreed
      ∨ ∃ r, (s.port c).stage = .reply r ∧ r ∈ ((placeReply ch d s).port c).queue := by
  cases d with
  | stage =>
    unfold placeReply
    dsimp only
    split
    · next r hr =>
      by_cases hc : c = ch
      · subst hc
        refine .inr (.inr ⟨r, hr, ?_⟩)
        rw [updPort_port_same]
        exact List.mem_append_right _ (List.mem_singleton.2 rfl)
      · exact .inl (by rw [updPort_port, if_neg hc])
    · exact .inl rfl
  | entry n =>
    unfold placeReply
    dsimp only
    split
    · refine .inr (.inl ?_)
      cases ch <;> cases c <;> rfl
    · exact .inl rfl
  | sweep _ => exact .inl (by cases ch <;> cases c <;> rfl)

theorem placeReply_answers (d : Due) {c : Completion} (h : Answered x c s) : Answered x c (placeReply ch d s) := by
  obtain ⟨hq, -⟩ := placeReply_grows ch d s
  obtain ⟨more, hmore⟩ := hq x
  rcases h with h | h
  · rcases placeReply_stage ch d s x with hst | hst | ⟨r, hr, hmem⟩
    · exact .inl (hst.trans h)
    · exact .inl (hst.trans (by rw [h]; rfl))
    · rw [h] at hr
      cases hr
      exact .inr hmem
  · exact .inr (hmore ▸ List.mem_append_left _ h)

theorem placeReply_waiting (d : Due) {r : Request} {due : Bool} (h : (s.port x).stage = .waiting r due) :
    ∃ due', ((placeReply ch d s).port x).stage = .waiting r due' := by
  rcases placeReply_stage ch d s x with hst | hst | ⟨r', hr, -⟩
  · exact ⟨due, hst.trans h⟩
  · exact ⟨true, hst.trans (by rw [h]; rfl)⟩
  · rw [h] at hr
    cases hr

/-- A reply placed that is no other channel's, and none's that is unfinished. -/
theorem given_placeReply (xs : List Channel) (ch : Channel) {d : Due} {s : State}
    (hown : ∀ m, d = .entry m → ∀ y, s.entry m = some y → y.channel = ch ∧ y.state = .finished) : Given xs s (placeReply ch d s) := by
  obtain ⟨hq, hw, he⟩ := placeReply_grows ch d s
  have hframe := placeReply_frame ch d s
  have hport := placeReply_port ch d s
  have hdue : ∀ c, ((placeReply ch d s).port c).due = (s.port c).due := fun c => by rw [hport c]
  refine ⟨by rw [hframe], fun c => by rw [hdue, ← hport], hq, hw, fun n y hy => ?_, fun hd c hroom m hm y hy => ?_,
    fun _ _ => placeReply_answers d,
    fun _ _ _ _ => placeReply_waiting d, fun c tag => ?_⟩
  · cases d with
    | stage => exact .inl (by unfold placeReply; dsimp only; split <;> exact hy)
    | sweep _ => exact .inl hy
    | entry m =>
      unfold placeReply
      dsimp only
      split
      · next e hm =>
        rw [entry_dropEntry]
        by_cases hn : n = m
        · subst hn
          obtain rfl := Option.some.inj (hm.symm.trans hy)
          obtain ⟨rfl, hfin⟩ := hown n rfl e hm
          refine .inr ⟨hfin, ?_⟩
          rw [(dropEntry_port _ _ _).1, updPort_port_same]
          exact List.mem_append_right _ (List.mem_singleton.2 rfl)
        · exact .inl (by rw [if_neg hn]; exact hy)
      · exact .inl hy
  · obtain ⟨more, hmore⟩ := hq c
    rw [hmore, List.length_append] at hroom
    exact hd c (by omega) m (hdue c ▸ hm) y (he m y hy)
  · exact tagInUse_kept (fun y hy => ⟨y, hw.subset hy, rfl, rfl⟩) (fun sw hsw => by rw [hframe] at hsw; exact hsw)
      fun e hem => .inl (hdue c ▸ hem)

/-- The due list as it is left: empty, or under a full queue. -/
theorem given_dueLeft (xs : List Channel) {ds : List Due} {s : State} (hleft : ds = [] ∨ ¬ (s.port ch).queue.length < 4)
    (htags : ∀ d ∈ ds, d ∈ (s.port ch).due ∨ d = .stage) : Given xs s (s.updPort ch (fun p => { p with due := ds })) := by
  have hport : ∀ c, (s.updPort ch (fun p => { p with due := ds })).port c =
      { s.port c with due := if c = ch then ds else (s.port c).due } := fun c => by
    rw [updPort_port]
    split
    · next heq => subst heq; rfl
    · rfl
  refine ⟨rfl, fun c => by rw [hport], fun c => ⟨[], by rw [hport, List.append_nil]⟩, List.Sublist.refl _, fun _ _ hy => .inl hy,
    fun hd c hroom m hm y hy => ?_, fun c _ h => ?_, fun c r due _ h => ⟨due, by rw [hport]; exact h⟩, fun c tag => ?_⟩
  · rw [hport] at hroom hm
    by_cases hc : c = ch
    · subst hc
      rcases hleft with rfl | hfull
      · simp at hm
      · exact absurd hroom hfull
    · exact hd c hroom m (by simpa [hc] using hm) y hy
  · unfold Answered at *
    rwa [hport]
  · refine tagInUse_kept (fun y hy => ⟨y, hy, rfl, rfl⟩) (fun _ h => h) fun d hd => ?_
    rw [hport] at hd
    by_cases hc : c = ch
    · subst hc
      exact (htags d (by simpa using hd)).imp id fun h => by rw [h]; rfl
    · exact .inl (by simpa [hc] using hd)

/-- A due list given out that is a part of the channel's own, but for its stage's reply. -/
theorem given_placeList (xs : List Channel) (ch : Channel) {ds : List Due} {s : State}
    (hown : (s.port ch).queue.length < 4 → ∀ m, Due.entry m ∈ ds → ∀ y, s.entry m = some y → y.channel = ch ∧ y.state = .finished)
    (htags : ∀ d ∈ ds, d ∈ (s.port ch).due ∨ d = .stage) : Given xs s (placeList ch ds s) := by
  induction ds generalizing s with
  | nil => exact given_dueLeft xs (.inl rfl) htags
  | cons d ds ih =>
    unfold placeList
    split
    · next hroom =>
      have hplaced : Given xs s (placeReply ch d s) :=
        given_placeReply xs ch fun m hm => hown hroom m (hm ▸ List.mem_cons_self ..)
      refine hplaced.trans (ih (fun _ m hm y hy => hown hroom m (List.mem_cons_of_mem _ hm) y ((placeReply_grows ch d s).2.2 m y hy)) ?_)
      intro e he
      rw [placeReply_port]
      exact htags e (List.mem_cons_of_mem _ he)
    · next hfull => exact given_dueLeft xs (.inr hfull) htags

theorem given_placeDue (xs : List Channel) (ch : Channel) (hd : DueOwn s) : Given xs s (placeDue ch s) :=
  given_placeList xs ch (hd ch) fun _ h => .inl h

theorem given_placeBoth (xs : List Channel) (hd : DueOwn s) : Given xs s (placeBoth s) :=
  have hA := given_placeDue xs .A hd
  hA.trans (given_placeDue xs .B (hA.dues hd))

/-! ## A reply formed in a stage -/

theorem restaged_port (x : Channel) (st : Stage) (s : State) (c : Channel) :
    (restaged x st s).port c = { s.port c with stage := if c = x then st else (s.port c).stage } := by
  rw [restaged, updPort_port]
  split
  · next heq => subst heq; rfl
  · rfl

/-- An answer in place of a waiting request. -/
theorem given_restaged {r : Request} {due : Bool} (hw : (s.port x).stage = .waiting r due) (a : Reply) :
    Given [x] s (restaged x (.reply a) s) := by
  have hport := restaged_port x (.reply a) s
  refine ⟨rfl, fun c => by rw [hport], fun c => ⟨[], by rw [hport, List.append_nil]⟩, List.Sublist.refl _, fun _ _ hy => .inl hy,
    fun hd c hroom m hm y hy => ?_, fun c a' h => ?_, fun c r due hne h => ⟨due, ?_⟩, fun c tag => ?_⟩
  · rw [hport] at hroom hm
    exact hd c hroom m hm y hy
  · unfold Answered at *
    rw [hport]
    by_cases hc : c = x
    · subst hc
      rw [hw] at h
      exact .inr (h.resolve_left nofun)
    · simpa [hc] using h
  · rw [hport]
    simpa [show c ≠ x by simpa using hne] using h
  · refine tagInUse_kept (fun y hy => ⟨y, hy, rfl, rfl⟩) (fun _ h => h) fun d hd => .inl ?_
    rw [hport] at hd
    exact hd

/-- An answer formed in place of a waiting request. -/
theorem given_formReply {r : Request} {due : Bool} (hd : DueOwn s) (hw : (s.port x).stage = .waiting r due) (a : Reply) :
    Given [x] s (formReply x a s) ∧ ∀ c, a = .completion c → Answered x c (formReply x a s) := by
  have hstaged := given_restaged hw a
  have hport := restaged_port x (.reply a) s x
  have hlist : Given [x] (restaged x (.reply a) s) (placeList x ((s.port x).due ++ [.stage]) (restaged x (.reply a) s)) := by
    refine given_placeList [x] x (fun hroom m hm y hy => ?_) fun d hm => ?_
    · refine hstaged.dues hd x hroom m ?_ y hy
      rw [hport]
      simpa using hm
    · rw [hport]
      simpa using hm
  rw [formReply_eq]
  refine ⟨hstaged.trans hlist, fun c hc => hlist.answers x c (.inl ?_)⟩
  rw [hport, if_pos rfl, hc]

theorem Given.live (h : Given xs s t) (hl : ∀ e ∈ s.work, e.live = false) : ∀ e ∈ t.work, e.live = false :=
  fun e he => hl e (h.work.subset he)

section Waiting

variable {r : Request} {due : Bool} (hd : DueOwn s) (hl : ∀ e ∈ s.work, e.live = false) (hw : (s.port x).stage = .waiting r due)

include hd hl hw

/-- A waiting request refused with no work live. -/
theorem given_refuse (code : Code) :
    Given [x] s (refuse x r code s) ∧ Answered x (r.completion code .none) (refuse x r code s) := by
  obtain ⟨hgiven, hans⟩ := given_formReply hd hw (.completion (r.completion code .none))
  unfold refuse
  rw [topUp_notLive (hgiven.live hl)]
  exact ⟨hgiven, hans _ rfl⟩

omit hl in
/-- A waiting request completed, under a sequence number of its own. -/
theorem given_complete (code : Code) (body : Body) :
    Given [x] s (complete x r code body s) ∧ Answered x (r.completion code body) (complete x r code body s) := by
  have hnumbered : Given [x] s { s with nextOrder := s.nextOrder + 1 } :=
    { Given.refl [x] s with frame := rfl }
  obtain ⟨hgiven, hans⟩ := given_formReply (s := { s with nextOrder := s.nextOrder + 1 }) hd hw (.completion (r.completion code body))
  exact ⟨hnumbered.trans hgiven, hans _ rfl⟩

end Waiting

end Sys2Proof.Machine
end

section
/-! PROOFS. A departure (R155) in its parts: the transfer cut, the work of the volume ended, the volume gone and the ports told, the waiting
requests taken afresh. -/

namespace Sys2Proof.Machine

open Sys2Proof.Safety

variable {s u w : State} {ch : Channel} {r : Request}

/-- The access in progress cut at a departure, its run credited, and the controller's buffer freed. -/
def departing (s : State) : State :=
  { seqDeparts (match s.seq.access with | some a => creditRun a (tear (reportTornAppend s)) | none => s) with ctlBuffer := .free }

/-- The end of the volume's work at a departure. -/
def volumeWorkGone (s : State) : State :=
  endSweep (some .departure) (faultAll (s.posted.map (fun p => p.order)) .volumeGone
    (endEntries ((s.work.filter Entry.live).map (fun e => e.order)) .volumeGone s))

/-- The volume ABSENT, its tables emptied. -/
def volumeEmptied (s : State) : State :=
  { s with
    extents := Vector.replicate 32 none, extClaims := Vector.replicate 32 ClaimRecord.free
    seq := { s.seq with defects := [], overflow := false }
    volume := { s.volume with
      state := .absent, label := none, serial := none, mapModified := false, drainTimer := none, mount := .none, drainExpired := false } }

/-- The volume ABSENT, and both ports told. -/
def volumeTold (s : State) : State := raiseBoth .volumeChange (volumeEmptied s)

theorem depart_eq (h : s.volume.state ≠ .absent) :
    depart s = retakeStage .B (retakeStage .A (volumeTold (volumeWorkGone (departing s)))) := if_neg h

/-! ## The work ends -/

/-- Every live entry of the work ended. -/
theorem endEntries_allLive (hn : (s.work.map (fun e => e.order)).Nodup) (code : Code) :
    let v := endEntries ((s.work.filter Entry.live).map (fun e => e.order)) code s
    EndingSteps s v ∧ (∀ x ∈ v.work, x.live = false)
      ∧ ∀ e ∈ s.work, e.live = true → e.discard = false → code ≠ .done → v.entry e.order = some (e.finishedWith code) := by
  have hns : ((s.work.filter Entry.live).map (fun e => e.order)).Nodup := hn.sublist (List.filter_sublist.map _)
  have hmem : ∀ x ∈ s.work, x.live = true → x.order ∈ (s.work.filter Entry.live).map (fun e => e.order) := fun x hx hl =>
    List.mem_map_of_mem (f := fun e : Entry => e.order) (List.mem_filter.2 ⟨hx, hl⟩)
  refine ⟨endingSteps_endEntries hns (fun m hm x hx hf => ?_) code, endEntries_live hmem, fun e he hl hd hc => ?_⟩
  · obtain ⟨y, hy, hym⟩ := List.mem_map.1 hm
    obtain ⟨hyw, hyl⟩ := List.mem_filter.1 hy
    obtain rfl : y = x := eq_of_order hn hyw (mem_of_entry hx) (hym.trans (entry_order hx).symm)
    simp [Entry.live, hf] at hyl
  · exact endEntries_entry_mem hns (hmem e he hl) (entry_of_nodup hn he) (by simp [Entry.leavesSilently, hd, hc])

theorem endSweep_seen (cause : Option StopCause) (s : State) : (endSweep cause s).sweepSeen = (s.sweepSeen || s.sweep.isSome) := by
  cases hsw : s.sweep with
  | none => simp [endSweep, hsw]
  | some sw =>
    rw [endSweep_eq hsw]
    split <;> simp [sweepGone, raiseBoth, addDue]

theorem volumeWorkGone_ended (hn : (s.work.map (fun e => e.order)).Nodup) (hp : (s.posted.map (fun p => p.order)).Nodup) :
    VolumeWorkEnded s (volumeWorkGone s) := by
  obtain ⟨hends, hlive, hfin⟩ := endEntries_allLive hn .volumeGone
  have hframe := endEntries_frame ((s.work.filter Entry.live).map (fun e => e.order)) .volumeGone s
  unfold volumeWorkGone
  generalize endEntries _ .volumeGone s = v at hends hlive hfin hframe
  have hposted : v.posted = s.posted := by rw [hframe]
  have hnv := hends.nodup hn
  obtain ⟨hgone, hlogs, htold⟩ := faultAll_all hnv (hposted ▸ hp) .volumeGone
  have hfaults := endingSteps_faultAll (s.posted.map (fun p => p.order)) hnv .volumeGone
  have hframe' := faultAll_frame (s.posted.map (fun p => p.order)) .volumeGone v
  rw [hposted] at hgone hlogs htold
  generalize faultAll _ .volumeGone v = x at hgone hlogs htold hfaults hframe'
  have hsweep := endingSteps_endSweep (some .departure) x
  have hframe'' := endSweep_frame (some .departure) x
  generalize endSweep _ x = y at hsweep hframe''
  refine ⟨hends.trans (hfaults.trans hsweep), ?_, fun e he => ?_, ?_, fun p hmem => hsweep.events _ _ (htold p hmem),
    fun e he hl hd => (hfaults.trans hsweep).kept _ _ (hfin e he hl hd nofun) rfl⟩
  · rw [hframe'', hframe', hgone, hframe]
  · refine Bool.eq_false_iff.2 fun hl => ?_
    obtain ⟨z, hz, hzl, -⟩ := (hfaults.trans hsweep).live e he hl
    exact absurd hzl (by rw [hlive z hz]; nofun)
  · rw [show y.logs = x.logs by rw [hframe''], hlogs, hframe]

theorem volumeWorkGone_seen (s : State) : (volumeWorkGone s).sweepSeen = (s.sweepSeen || s.sweep.isSome) := by
  rw [volumeWorkGone, endSweep_seen, faultAll_frame, endEntries_frame]

/-- What the end of the volume's work tells a channel. -/
def workGoneEvents (s : State) (ch : Channel) : EventSet :=
  faultEvents s.posted ch ||| if s.sweep.isSome then EventKind.sweepEnd.bit else 0

theorem volumeWorkGone_ports (hp : (s.posted.map (fun p => p.order)).Nodup) : PortsAlong (workGoneEvents s) s (volumeWorkGone s) := by
  have hends := portsAlong_endEntries ((s.work.filter Entry.live).map (fun e => e.order)) .volumeGone s
  have hframe := endEntries_frame ((s.work.filter Entry.live).map (fun e => e.order)) .volumeGone s
  unfold volumeWorkGone workGoneEvents
  generalize endEntries _ .volumeGone s = v at hends hframe
  have hposted : v.posted = s.posted := by rw [hframe]
  have hsw : v.sweep = s.sweep := by rw [hframe]
  have hfaults := portsAlong_faultAll (hposted ▸ hp) .volumeGone
  have hsweep := portsAlong_endSweep (some .departure) (faultAll (v.posted.map (fun p => p.order)) .volumeGone v)
  rw [show (faultAll (v.posted.map (fun p => p.order)) .volumeGone v).sweep = s.sweep by rw [faultAll_frame, hsw]] at hsweep
  rw [hposted] at hfaults hsweep
  exact hends.after (hfaults.trans hsweep)

/-! ## The volume gone -/

theorem volumeTold_ports (s : State) : PortsAlong (fun _ => EventKind.volumeChange.bit) s (volumeTold s) :=
  have hemptied : PortsAlong (fun _ => 0) s (volumeEmptied s) := portsAlong_of_ports rfl (fun x hx => ⟨x, hx, rfl, rfl⟩) fun _ h => h
  hemptied.after (portsAlong_raiseBoth .volumeChange (volumeEmptied s))

theorem volumeTold_port (s : State) (ch : Channel) : ((volumeTold s).port ch).queue = (s.port ch).queue
    ∧ ((volumeTold s).port ch).due = (s.port ch).due ∧ ((volumeTold s).port ch).stage = (s.port ch).stage := by
  cases ch <;> exact ⟨rfl, rfl, rfl⟩

theorem volumeTold_dueOwn (h : DueOwn s) : DueOwn (volumeTold s) := by
  intro ch hroom m hm y hy
  obtain ⟨hq, hd, -⟩ := volumeTold_port s ch
  exact h ch (hq ▸ hroom) m (hd ▸ hm) y hy

/-! ## Waiting requests with no volume (R49) -/

/-- With the volume gone and nothing posted, a request retaken is refused or done. -/
theorem retakeRequest_gone (hv : s.volume.state = .absent) (hp : s.posted = []) (ch : Channel) (r : Request) :
    retakeRequest ch r s = s ∨ (∃ code, retakeRequest ch r s = refuse ch r code s) ∨ retakeRequest ch r s = complete ch r .done .none s := by
  have hvol : s.transactionVolume ch = some .notMounted := transactionVolume_notMounted (.inl hv)
  unfold retakeRequest
  split
  · refine .inr (.inl ?_)
    simp only [admitRead, hvol]
    split <;> exact ⟨_, rfl⟩
  · refine .inr (.inl ?_)
    simp only [admitWrite, hvol]
    split <;> exact ⟨_, rfl⟩
  · refine .inr (.inl ?_)
    simp only [admitAppend, hvol]
    split <;> exact ⟨_, rfl⟩
  · simp only [admitFlush, hp, List.any_nil]
    split
    · exact .inr (.inl ⟨_, rfl⟩)
    · exact .inr (.inl ⟨_, rfl⟩)
    · exact .inr (.inr rfl)
  · refine .inr (.inl ?_)
    simp only [admitMapStore, hvol]
    split
    · exact ⟨_, rfl⟩
    · exact ⟨_, rfl⟩
    · split
      · exact ⟨_, rfl⟩
      · next h => exact ⟨_, rfl⟩
      · next h => cases h
  · exact .inl rfl

/-- A waiting request answered, as the departure asks: NOT-MOUNTED where it needs the volume, DONE for a FLUSH. -/
def AnsweredGone (ch : Channel) (r : Request) (ctl : Bool) (t : State) : Prop :=
  (r.kind = .read ∨ r.kind = .write ∨ r.kind = .append ∨ (r.kind = .mapStore ∧ ctl = true) → Answered ch (r.completion .notMounted .none) t)
    ∧ (r.kind = .flush → Answered ch (r.completion .done .none) t)

theorem Given.answeredGone {xs : List Channel} {t : State} (h : Given xs s t) {ctl : Bool} (ha : AnsweredGone ch r ctl s) :
    AnsweredGone ch r ctl t :=
  ⟨fun hk => h.answers _ _ (ha.1 hk), fun hk => h.answers _ _ (ha.2 hk)⟩

/-- No volume, no posted write and no live entry is left, and what is due is its channel's own. -/
structure Emptied (s : State) : Prop where
  volume : s.volume.state = .absent
  posted : s.posted = []
  live : ∀ e ∈ s.work, e.live = false
  dues : DueOwn s

theorem Given.emptied {xs : List Channel} {t : State} (h : Given xs s t) (he : Emptied s) : Emptied t where
  volume := by rw [h.frame]; exact he.volume
  posted := by rw [h.frame]; exact he.posted
  live := h.live he.live
  dues := h.dues he.dues

theorem retakeStage_waiting {due : Bool} (h : (s.port ch).stage = .waiting r due) : retakeStage ch s = retakeRequest ch r s := by
  unfold retakeStage
  rw [h]

theorem given_retakeStage (h : Emptied s) (ch : Channel) : Given [ch] s (retakeStage ch s) := by
  cases hst : (s.port ch).stage with
  | waiting r due =>
    rw [retakeStage_waiting hst]
    rcases retakeRequest_gone h.volume h.posted ch r with hsame | ⟨code, hrefused⟩ | hdone
    · rw [hsame]
      exact .refl _ s
    · rw [hrefused]
      exact (given_refuse h.dues h.live hst code).1
    · rw [hdone]
      exact (given_complete h.dues hst .done .none).1
  | _ =>
    have hsame : retakeStage ch s = s := by
      unfold retakeStage
      rw [hst]
    rw [hsame]
    exact .refl _ s

theorem retakeStage_answered (h : Emptied s) {due : Bool} (hst : (s.port ch).stage = .waiting r due) (htag : s.tagInUse ch r.tag = false)
    (h255 : r.tag ≠ 255) (hform : formFails ch r = false) : AnsweredGone ch r (s.holdsController ch) (retakeStage ch s) := by
  have hchecked := tagCheck_none htag h255
  have hvol : s.transactionVolume ch = some .notMounted := transactionVolume_notMounted (.inl h.volume)
  have hsame : restaged ch (.waiting r due) s = s := by
    rw [restaged, ← hst]
    cases ch <;> rfl
  have hretake : r.kind ∈ [ReqKind.read, .write, .append, .flush, .mapStore] → retakeRequest ch r s = admitAs r.kind ch r s := fun hk => by
    rw [← retakeRequest_eq hk (.waiting r due), hsame]
  rw [retakeStage_waiting hst]
  refine ⟨fun hk => ?_, fun hk => ?_⟩
  · have hrefused : retakeRequest ch r s = refuse ch r .notMounted s := by
      rcases hk with hk | hk | hk | ⟨hk, hctl⟩
      · rw [hretake (by simp [hk]), admitAs_volumeFails hchecked hform (by simp [hk]) hvol]
      · rw [hretake (by simp [hk]), admitAs_volumeFails hchecked hform (by simp [hk]) hvol]
      · rw [hretake (by simp [hk]), admitAs_volumeFails hchecked hform (by simp [hk]) hvol]
      · rw [hretake (by simp [hk]), admitAs_mapVolumeFails hchecked hform (.inr hk) hctl hvol]
    rw [hrefused]
    exact (given_refuse h.dues h.live hst .notMounted).2
  · have hlen : r.length = 0 := by simpa [formFails, hk] using hform
    have hdone : retakeRequest ch r s = complete ch r .done .none s := by
      rw [hretake (by simp [hk]), hk]
      exact admitFlush_none hchecked hlen (by rw [h.posted]; rfl)
    rw [hdone]
    exact (given_complete h.dues hst .done .none).2

/-- Both stages retaken, and the step settled. -/
theorem settle_retaken (h : Emptied s) : Given [.A, .B] s (settle (retakeStage .B (retakeStage .A s)))
    ∧ ∀ ch r due, (s.port ch).stage = .waiting r due → s.tagInUse ch r.tag = false → r.tag ≠ 255 → formFails ch r = false →
        AnsweredGone ch r (s.holdsController ch) (settle (retakeStage .B (retakeStage .A s))) := by
  have hA := given_retakeStage h .A
  have hemptyA := hA.emptied h
  have hB := given_retakeStage hemptyA .B
  have hempty := hB.emptied hemptyA
  have hsettle : settle (retakeStage .B (retakeStage .A s)) = placeBoth (retakeStage .B (retakeStage .A s)) := by
    have hv : (placeBoth (retakeStage .B (retakeStage .A s))).volume.state = .absent := by
      rw [placeBoth_frame]
      exact hempty.volume
    unfold settle
    rw [drainExpiry_eq (by simp [hempty.volume]), topUpBoth_notLive hempty.live, drainCheck_eq (by simp [hv])]
    exact if_neg (by simp [hv])
  have hplaced : Given [.B] (retakeStage .B (retakeStage .A s)) (settle (retakeStage .B (retakeStage .A s))) :=
    hsettle ▸ given_placeBoth [.B] hempty.dues
  have hlast := hB.trans hplaced
  refine ⟨(hA.mono (by simp)).trans (hlast.mono (by simp)), fun ch r due hst htag h255 hform => ?_⟩
  cases ch with
  | A => exact hlast.answeredGone (retakeStage_answered h hst htag h255 hform)
  | B =>
    obtain ⟨due', hst'⟩ := hA.waiting .B r due (by simp) hst
    have hctl : (retakeStage .A s).holdsController .B = s.holdsController .B := by
      rw [hA.frame]
      rfl
    exact hctl ▸ hplaced.answeredGone (retakeStage_answered hemptyA hst' (hA.tags .B r.tag htag) h255 hform)

end Sys2Proof.Machine
end

section
/-! PROOFS. What a departure comes to once its step has settled (R93, R104, R155, R177). -/

namespace Sys2Proof.Machine

open Sys2Proof.Safety

variable {s t u : State} {ch : Channel} {r : Request} {e : Entry}

/-- The volume of `u`, whose access has been cut, is gone in `t`. -/
structure Gone (u t : State) : Prop where
  frame : t = { u with
    ports := t.ports, logs := t.logs, extents := Vector.replicate 32 none, extClaims := Vector.replicate 32 ClaimRecord.free
    work := t.work, posted := [], nextOrder := t.nextOrder, seq := { u.seq with defects := [], overflow := false }
    volume := { u.volume with
      state := .absent, label := none, serial := none, mapModified := false, drainTimer := none, mount := .none, drainExpired := false }
    sweep := none, sweepSeen := u.sweepSeen || u.sweep.isSome }
  posted : PostedGone u t
  noneLive : ∀ e ∈ t.work, e.live = false
  ended : ∀ e ∈ u.work, e.live = true → e.discard = false →
    t.entry e.order = some (e.finishedWith .volumeGone) ∨ Reply.completion (e.finishedWith .volumeGone).completion ∈ (t.port e.channel).queue
  finished : ∀ e ∈ u.work, e.state = .finished → t.entry e.order = some e ∨ Reply.completion e.completion ∈ (t.port e.channel).queue
  port : ∀ ch, t.port ch = { u.port ch with
    events := (u.port ch).events ||| (workGoneEvents u ch ||| EventKind.volumeChange.bit)
    queue := (t.port ch).queue, due := (t.port ch).due, stage := (t.port ch).stage }
  queue : ∀ ch, ∃ more, (t.port ch).queue = (u.port ch).queue ++ more
  answered : ∀ ch r due, (u.port ch).stage = .waiting r due → u.tagInUse ch r.tag = false → r.tag ≠ 255 → formFails ch r = false →
    AnsweredGone ch r (u.holdsController ch) t

section Departed

variable (hn : (u.work.map (fun e => e.order)).Nodup) (hp : (u.posted.map (fun p => p.order)).Nodup) (hd : DueOwn u)

include hn hp hd

omit hn hp in
theorem emptied_volumeTold {w : State} (hended : VolumeWorkEnded u w) : Emptied (volumeTold w) where
  volume := rfl
  posted := by
    show w.posted = []
    rw [hended.frame]
  live := hended.noneLive
  dues := volumeTold_dueOwn (hended.steps.dues hd)

/-- What is left of `u` as the requests are retaken and the step settles. -/
theorem gone_settled : Gone u (settle (retakeStage .B (retakeStage .A (volumeTold (volumeWorkGone u))))) := by
  have hended := volumeWorkGone_ended hn hp
  have hseen := volumeWorkGone_seen u
  have hports := (volumeWorkGone_ports hp).trans (volumeTold_ports (volumeWorkGone u))
  generalize volumeWorkGone u = w at hended hseen hports
  have hempty : Emptied (volumeTold w) := emptied_volumeTold hd hended
  have hqueue : ∀ ch, ((volumeTold w).port ch).queue = (u.port ch).queue := fun ch =>
    (volumeTold_port w ch).1.trans (hended.steps.queue ch)
  have hctl : ∀ ch, (volumeTold w).holdsController ch = u.holdsController ch := fun ch => by
    show (w.ctlClaim.holder == some ch) = _
    rw [hended.frame]
    rfl
  obtain ⟨hgiven, hans⟩ := settle_retaken hempty
  generalize settle (retakeStage .B (retakeStage .A (volumeTold w))) = t at hgiven hans
  have hentry : ∀ n y, w.entry n = some y → t.entry n = some y ∨ Reply.completion y.completion ∈ (t.port y.channel).queue :=
    fun n y hy => (hgiven.entries n y hy).imp id fun h => h.2
  have hport : ∀ ch, t.port ch = { u.port ch with
      events := (u.port ch).events ||| (workGoneEvents u ch ||| EventKind.volumeChange.bit)
      queue := (t.port ch).queue, due := (t.port ch).due, stage := (t.port ch).stage } := fun ch => by
    rw [hgiven.port ch, hports.port ch]
  refine ⟨?_, ⟨?_, ?_, fun p hmem => ?_⟩, fun e he => hempty.live e (hgiven.work.subset he),
    fun e he hl hdis => hentry _ _ (hended.finished e he hl hdis),
    fun e he hfin => hentry _ _ (hended.steps.kept _ _ (entry_of_nodup hn he) hfin), hport, fun ch => ?_, fun ch r due hst htag h255 hform => ?_⟩
  · rw [hgiven.frame]
    unfold volumeTold volumeEmptied
    rw [hended.frame]
    simp only [raiseBoth, hseen]
  · rw [hgiven.frame]
    exact hempty.posted
  · rw [hgiven.frame]
    exact hended.logs
  · rw [hgiven.port, (volumeTold_ports w).port]
    exact hasEvent_or _ _ _ (hended.told p hmem)
  · exact hqueue ch ▸ hgiven.queue ch
  · obtain ⟨due', hst'⟩ := hports.waiting ch r due hst
    exact hctl ch ▸ hans ch r due' hst' (hports.tags ch r.tag htag) h255 hform

/-- The requests retaken leave the sequencer. -/
theorem retaken_seq : (retakeStage .B (retakeStage .A (volumeTold (volumeWorkGone u)))).seq = { u.seq with defects := [], overflow := false } := by
  have hended := volumeWorkGone_ended hn hp
  generalize volumeWorkGone u = w at hended
  have hempty : Emptied (volumeTold w) := emptied_volumeTold hd hended
  have hA := given_retakeStage hempty .A
  rw [(given_retakeStage (hA.emptied hempty) .B).frame, hA.frame]
  show { w.seq with defects := [], overflow := false } = _
  rw [hended.frame]

omit hn hp hd in
theorem settle_depart (hv : s.volume.state ≠ .absent) (hn : ((departing s).work.map (fun e => e.order)).Nodup)
    (hp : ((departing s).posted.map (fun p => p.order)).Nodup) (hd : DueOwn (departing s)) : Gone (departing s) (settle (depart s)) := by
  rw [depart_eq hv]
  exact gone_settled hn hp hd

end Departed

/-! ## The transfer cut -/

/-- The access cut, and an outstanding command with it. -/
def seqCut (s : State) : State :=
  updSeq (fun q => { q with
    access := none, target := none, phase := .none, gate := false, cylinder := if s.commandOutstanding then none else q.cylinder }) s

theorem seqDeparts_eq (s : State) : seqDeparts s =
    if s.seq.state = .offline ∨ s.seq.state = .stopping ∨ s.seq.state = .noCartridge then seqCut s else issueStop (seqCut s) := rfl

theorem seqDeparts_frame (s : State) : seqDeparts s = { s with seq := (seqDeparts s).seq } := by
  rw [seqDeparts_eq]
  split <;> rfl

/-- With no access in progress a departure cuts none. -/
theorem departing_idle (h : s.seq.access = none) : departing s = { s with seq := (seqDeparts s).seq, ctlBuffer := .free } := by
  unfold departing
  rw [h]
  dsimp only
  rw [seqDeparts_frame]

theorem seqDeparts_state (s : State) : (seqDeparts s).seq.state =
    if s.seq.state = .offline ∨ s.seq.state = .stopping ∨ s.seq.state = .noCartridge then s.seq.state else .stopping := by
  rw [seqDeparts_eq]
  split <;> rfl

/-- A FINISHED entry has ended in a departure with the outcome it had. -/
theorem Gone.endedSo (h : Gone u t) {y : Entry} (hy : y ∈ u.work) (hfin : y.state = .finished) {code : Code} (hcode : y.outcome = some code)
    (horder : y.order = e.order) (hch : y.channel = e.channel) (htag : y.tag = e.tag) : Ended e code t := by
  rcases h.finished y hy hfin with hkept | hmem
  · exact .inl ⟨y, mem_of_entry hkept, horder, hfin, hcode⟩
  · refine .inr ⟨y.completion, hch ▸ hmem, htag, ?_⟩
    show y.outcome.getD .done = code
    rw [hcode]
    rfl

end Sys2Proof.Machine
end

section
/-! PROOFS. How a step settles where an access ends: a sweep stopped (R171 to R173), the store of STORING (R159, R160); and what an access that
fails with its seek comes to (R117). -/

namespace Sys2Proof.Machine

open Sys2Proof.Safety

variable {s : State} {a : Access} {sw : Sweep} {i : Nat}

/-! ## A sweep that ends -/

/-- The current item of a sweep that PROTECT stops is PROTECTED, those after it are PARTIAL (R172). -/
theorem fillResults_protect (sw : Sweep) : sw.fillResults (some .protect) =
    sw.items.mapIdx (fun i it => (it.slot, it.result.getD (if i = sw.current.getD 0 then .prot else .partly))) := by
  unfold Sweep.fillResults
  congr 1
  funext i it
  cases it.result <;> rfl

/-- A sweep ended in a MOUNTED volume, and the step settled. -/
theorem settle_endSweep (hsw : s.sweep = some sw) (hl : RepliesLawful s) (hv : s.volume.state = .mounted) {cause : Option StopCause}
    {result : Nat → SweepItem → SweepResult} (hres : sw.fillResults cause = sw.items.mapIdx (fun i it => (it.slot, result i it))) :
    SameButReservations (sweepOver sw (sweepOutcome cause) result s) (settle (endSweep cause s)) := by
  have hvol : (endSweep cause s).volume.state = .mounted := by
    rw [endSweep_frame]
    exact hv
  rw [← placeBoth_endSweep hsw hl hres]
  exact settle_bare (by simp [hvol]) (by simp [hvol])

theorem settle_sweepHalted (hsw : s.sweep = some sw) (hl : RepliesLawful s) (hv : s.volume.state = .mounted) :
    SameButReservations (sweepHalted sw s) (settle (endSweep (some .halt) s)) :=
  settle_endSweep hsw hl hv (fillResults_halt sw)

theorem settle_sweepProtected (hsw : s.sweep = some sw) (hl : RepliesLawful s) (hv : s.volume.state = .mounted) :
    SameButReservations (sweepProtected sw s) (settle (endSweep (some .protect) s)) :=
  settle_endSweep hsw hl hv (fillResults_protect sw)

/-! ## The end of the store (R159, R160) -/

/-- In RELEASING, with the drive free, STOP is issued as the step settles. -/
theorem settle_releasing (hl : RepliesLawful s) (hfree : s.driveFree = true) (hv : s.volume.state = .releasing) :
    SameButReservations (issueStop s) (settle s) := by
  obtain ⟨w, hw, hsame⟩ := topUpBoth_work s
  have hlaw : RepliesLawful { s with work := w } := hl
  have hstop : settle s = issueStop { s with work := w } := by
    unfold settle
    rw [drainExpiry_eq (by simp [hv]), hw, placeBoth_of_lawful hlaw, drainCheck_eq (by simp [hv])]
    exact if_pos ⟨hv, hfree⟩
  rw [hstop]
  exact ⟨rfl, hsame⟩

/-- The store of STORING ends, and the step settles. -/
theorem settle_storeEnds (hl : RepliesLawful s) : SameButReservations (issueStop (storeEnds s)) (settle (storeEnds s)) :=
  settle_releasing hl rfl rfl

/-! ## A seek that has failed (R117) -/

theorem seekFails_entry {n : Nat} (h : a.owner = .entry n) : seekFails a s = endRun a .seekError s := by
  simp [seekFails, h]

theorem seekFails_posted {n : Nat} (h : a.owner = .posted n) : seekFails a s = endRun a .seekError s := by
  simp [seekFails, h]

/-- What a failed seek leaves of a sweep's step: the sector of a clearing step is as the last one done (R24). -/
def asLastDone (a : Access) (s : State) : State :=
  match a.kind, a.slot with
  | .clearStep, some k => fillAsLastDone a.sector k s
  | _, _ => s

theorem asLastDone_eq (a : Access) (s : State) : asLastDone a s = { s with extents := (asLastDone a s).extents } := by
  unfold asLastDone
  split <;> rfl

theorem seekFails_sweep (h : a.owner = .sweep) : seekFails a s = stepSeekError (asLastDone a (endAccess s)) := by
  unfold seekFails asLastDone
  rw [h]
  cases hk : a.kind
  case clearStep => cases hslot : a.slot <;> simp [withSlot, hslot]
  all_goals rfl

theorem stepSeekError_partial (hsw : s.sweep = some sw) (hc : sw.cause = none) : stepSeekError s = giveResult .partly s := by
  simp [stepSeekError, hsw, hc]

theorem stepSeekError_stopped (hsw : s.sweep = some sw) {cause : StopCause} (hc : sw.cause = some cause) :
    stepSeekError s = endSweep (some cause) s := by
  simp [stepSeekError, stopAfterStep, hsw, hc]

end Sys2Proof.Machine
end

section
/-! PROOFS. O42: the second seek timeout of an access, reported to its owner once the drive has restored (R117). -/

namespace Sys2Proof.Machine

open Sys2Proof.Safety

variable {s : State} {a : Access}

/-- With a sector under way a PROTECT stop waits on for the sector's end (R144, R146). -/
theorem stopNow_underWay (h : a.stops = [] ∨ (a.stops = [.protect] ∧ a.underWay = true)) : a.stopNow = none := by
  rcases h with h | ⟨h, hunder⟩
  · exact stopNow_none h
  · simp [Access.stopNow, hunder, h]

theorem secondTimeout_reported (hs : s.seq.state = .restoring) (hacc : s.seq.accepted = true) (htwo : s.seq.seekTimeouts = 2)
    (ha : s.seq.access = some a) (hstops : a.stops = [] ∨ (a.stops = [.protect] ∧ a.underWay = true))
    (hdrain : s.volume.drainExpired = false) (hmount : a.kind = .labelRead ∨ a.kind = .probe → s.volume.state = .mounting) :
    exec .seekDone s = .next (settle (seekFails a (updSeq Sequencer.arrived s))) := by
  have hmount' : (updSeq Sequencer.arrived s).mountWasCut a = false := mountWasCut_false hmount
  have hnone : (updSeq Sequencer.arrived s).stopAtCommandEnd a = none := by
    have hdrain' : (updSeq Sequencer.arrived s).drainStops a = false := by simp [State.drainStops, hdrain]
    rw [State.stopAtCommandEnd, hmount', stopNow_underWay hstops, hdrain']
    rfl
  have hrestored : (s.seq.state == .restoring) = true := beq_iff_eq.2 hs
  have htwo' : (updSeq Sequencer.arrived s).seq.seekTimeouts ≥ 2 := htwo.ge
  rw [seekDone_access (.inr hs) hacc ha, accessGoesOn, hnone]
  dsimp only
  rw [if_pos ⟨hrestored, htwo'⟩]

/-- The same, of an access that is none of a mount's. -/
theorem secondTimeout_unmounted (hs : s.seq.state = .restoring) (hacc : s.seq.accepted = true) (htwo : s.seq.seekTimeouts = 2)
    (ha : s.seq.access = some a) (hstops : a.stops = [] ∨ (a.stops = [.protect] ∧ a.underWay = true))
    (hdrain : s.volume.drainExpired = false) (hlabel : a.kind ≠ .labelRead) (hprobe : a.kind ≠ .probe) :
    exec .seekDone s = .next (settle (seekFails a (updSeq Sequencer.arrived s))) :=
  secondTimeout_reported hs hacc htwo ha hstops hdrain fun h => h.elim (absurd · hlabel) (absurd · hprobe)

/-! ## What each owner makes of it -/

section Reported

variable {v u : State} (hu : endAccess v = u) (hl : RepliesLawful u)

include hu hl

theorem settle_seekFails_entry (ho : OrdersLawful u) (hv : u.volume.state = .mounted) {e : Entry} (he : e ∈ u.work)
    (hown : a.owner = .entry e.order) :
    SameButReservations
      (entryEnded { e with done := e.done + a.done } .seekError (updEntry e.order (fun x => { x with done := e.done + a.done }) u))
      (settle (seekFails a v)) := by
  rw [seekFails_entry hown, endRun_entry hown, hu]
  exact settle_credited ho hl hv he a.done .seekError

theorem settle_seekFails_posted (ho : OrdersLawful u) (hv : u.volume.state = .mounted) {p : Posted} (hp : p ∈ u.posted)
    (hown : a.owner = .posted p.order) (hwatch : ∀ e ∈ u.work, e.state ≠ .watching) :
    SameButReservations (postedFaulted p .mediumError u) (settle (seekFails a v)) := by
  have hfaulted : endRun a .seekError v = postedFaulted p .mediumError u := by
    rw [← faultPosted_quiet (drainEnding_mounted hv) hwatch (postedWrite_of_mem ho hp), ← hu]
    simp [endRun, hown, creditRun, postedCause]
  rw [seekFails_posted hown, hfaulted]
  exact settle_of_mounted (postedFaulted_repliesLawful hl p .mediumError) (by rw [postedFaulted_volume]; exact hv)

theorem settle_seekFails_sweep (hv : u.volume.state = .mounted) (hown : a.owner = .sweep) {sw : Sweep} {i : Nat} (hsw : u.sweep = some sw)
    (hi : sw.current = some i) :
    (sw.cause = none → SameButReservations (itemDone sw i .partly (asLastDone a u)) (settle (seekFails a v)))
      ∧ (sw.cause = some .halt → SameButReservations (sweepHalted sw (asLastDone a u)) (settle (seekFails a v)))
      ∧ (sw.cause = some .protect → SameButReservations (sweepProtected sw (asLastDone a u)) (settle (seekFails a v))) := by
  have hframe := asLastDone_eq a u
  have hsw' : (asLastDone a u).sweep = some sw := by rw [hframe]; exact hsw
  have hl' : RepliesLawful (asLastDone a u) := by rw [hframe]; exact hl
  have hv' : (asLastDone a u).volume.state = .mounted := by rw [hframe]; exact hv
  rw [seekFails_sweep hown, hu]
  refine ⟨fun hc => ?_, fun hc => ?_, fun hc => ?_⟩
  · rw [stepSeekError_partial hsw' hc]
    exact settle_giveResult hsw' hi hl' hv' .partly
  · rw [stepSeekError_stopped hsw' hc]
    exact settle_sweepHalted hsw' hl' hv'
  · rw [stepSeekError_stopped hsw' hc]
    exact settle_sweepProtected hsw' hl' hv'

theorem settle_seekFails_label (hv : v.volume.state = .mounting) (hown : a.owner = .volume) (hk : a.kind = .labelRead) :
    SameButReservations (mounted { u with volume := { u.volume with label := some .unlabelled } }) (settle (seekFails a v)) := by
  have hfound : seekFails a v = labelFound none u := by
    rw [← hu, ← mountAccessEnds_eq hv (labelFound none)]
    simp [seekFails, hown, hk]
  rw [hfound]
  exact Proofs.settle_unlabelled hl fun _ h => nomatch h

theorem settle_seekFails_probe (hv : v.volume.state = .mounting) (hown : a.owner = .volume) (hk : a.kind = .probe) {k : Slot} {lo hi : Nat}
    (hm : v.volume.mount = .search k lo hi) :
    SameButReservations (searchOn (k.val + 1) (updFill k (fun f => { f with mark := 0, state := .unknown }) u)) (settle (seekFails a v)) := by
  have hfound : seekFails a v = probeFound none (endAccess v) := by
    rw [← mountAccessEnds_eq hv (probeFound none)]
    simp [seekFails, hown, hk]
  rw [hfound, Proofs.probeFound_none (s := endAccess v) hv (driveFree_endAccess v) hm, hu]
  have hv' : (updFill k (fun f => { f with mark := 0, state := .unknown }) u).volume.state = .mounting := by rw [← hu]; exact hv
  exact settle_searchOn (s := updFill k (fun f => { f with mark := 0, state := .unknown }) u) hl hv' (k.val + 1)

theorem settle_seekFails_store (hown : a.owner = .volume) (hk : a.kind = .labelWrite) :
    SameButReservations (issueStop (enterReleasing u)) (settle (seekFails a v)) := by
  have hstore : seekFails a v = storeEnds v := by simp [seekFails, hown, hk]
  have hlv : RepliesLawful v := by rw [← hu] at hl; exact hl
  rw [hstore, ← hu]
  exact settle_storeEnds hlv

end Reported

/-! ## A seek error that a departure follows -/

theorem restoreTimeout_lost (hs : s.seq.state = .restoring) (htimer : s.seq.restoreTimer = some 0) (htwo : s.seq.seekTimeouts = 2)
    (ha : s.seq.access = some a) (hstops : a.stops = []) (hdrain : s.volume.drainExpired = false) {n : Nat} (hown : a.owner = .entry n)
    (hlabel : a.kind ≠ .labelRead) (hprobe : a.kind ≠ .probe) :
    exec .restoreTimeout s = .next (settle (depart (enterOffline (endRun a .seekError s)))) := by
  have hnone : s.stopAtCommandEnd a = none := stopAtCommandEnd_none hstops hdrain fun h => h.elim (absurd · hlabel) (absurd · hprobe)
  show execRestoreTimeout s = _
  unfold execRestoreTimeout
  rw [if_pos ⟨hs, htimer⟩, ha]
  dsimp only
  rw [if_pos ⟨htwo.ge, by rw [hnone]; rfl, by rw [hown]; nofun⟩, olderGone, hown]
  dsimp only
  rw [seekFails_entry hown]

/-- The entry whose run a departure finds failed has ended so; the drive is OFFLINE, its volume gone. -/
theorem entryLost {e : Entry} (hown : a.owner = .entry e.order) (he : e ∈ s.work) (hv : s.volume.state ≠ .absent) (ho : OrdersLawful s)
    (hl : RepliesLawful s) {t : State} (ht : t = settle (depart (enterOffline (endRun a .seekError s)))) :
    (e.discard = false → Ended e .seekError t) ∧ t.seq.state = .offline ∧ t.volume.state = .absent := by
  obtain ⟨horders, -, -⟩ := ho
  obtain ⟨hnwork, hnposted, -⟩ := List.nodup_append.1 horders
  have hcredited := entry_updEntry (s := endAccess s) (m := e.order) (f := fun x => { x with done := x.done + a.done }) (fun _ => rfl) e.order
  have hworkOrders := updEntry_orders (n := e.order) (f := fun x => { x with done := x.done + a.done }) (fun _ => rfl) (endAccess s)
  rw [if_pos rfl, show (endAccess s).entry e.order = some e from entry_of_nodup hnwork he, Option.map_some] at hcredited
  have hdues := dueOwn_endEntry (s := updEntry e.order (fun x => { x with done := x.done + a.done }) (endAccess s)) hl e.order .seekError
  have hframe := endEntry_frame e.order .seekError (updEntry e.order (fun x => { x with done := x.done + a.done }) (endAccess s))
  have hsub := endEntry_orders e.order .seekError (updEntry e.order (fun x => { x with done := x.done + a.done }) (endAccess s))
  have hself := fun hs => endEntry_entry_self (e := { e with done := e.done + a.done }) (code := .seekError) hcredited hs
  rw [← endRun_entry hown] at hdues hframe hsub hself
  generalize endRun a .seekError s = v at ht hdues hframe hsub hself
  have hidle : (enterOffline v).seq.access = none := by
    show v.seq.access = none
    rw [hframe]
    rfl
  have hcut := departing_idle hidle
  have hgone : Gone (departing (enterOffline v)) t := by
    rw [hworkOrders] at hsub
    rw [ht]
    refine settle_depart ?_ ?_ ?_ ?_
    · show v.volume.state ≠ .absent
      rw [hframe]
      exact hv
    · rw [hcut]
      exact hnwork.sublist hsub
    · rw [hcut]
      show (v.posted.map (fun p => p.order)).Nodup
      rw [hframe]
      exact hnposted
    · rw [hcut]
      exact hdues
  refine ⟨fun hdiscard => ?_, ?_, ?_⟩
  · have hfin := mem_of_entry (hself (by simp [Entry.leavesSilently, hdiscard]))
    have hmem : Entry.finishedWith .seekError { e with done := e.done + a.done } ∈ (departing (enterOffline v)).work := hcut ▸ hfin
    exact hgone.endedSo hmem rfl rfl rfl rfl rfl
  · rw [hgone.frame, hcut]
    show (seqDeparts (enterOffline v)).seq.state = .offline
    rw [seqDeparts_state]
    rfl
  · rw [hgone.frame]

end Sys2Proof.Machine

namespace Sys2Proof.Proofs

open Sys2Proof.Machine Sys2Proof.Safety

/-- Settles O42, by the owner that learns of the timeout, and by the departure that a RESTORE's own timeout makes. -/
theorem secondSeekTimeout : Obligations.SecondSeekTimeout := by
  refine ⟨fun a s hs hacc htwo ha hstops hdrain ho hl => ?reported,
    fun a e s hs htimer htwo ha hstops hdrain hown he hlabel hprobe hv ho hl => ?lost⟩
  case reported =>
    intro q u
    have hu : endAccess (updSeq Sequencer.arrived s) = u := by
      simp [endAccess, updSeq, Sequencer.arrived, u, q, ended, hs]
    have hmount := secondTimeout_reported hs hacc htwo ha hstops hdrain
    have hother := secondTimeout_unmounted hs hacc htwo ha hstops hdrain
    refine ⟨fun e he hown hlabel hprobe hv => ⟨_, hother hlabel hprobe, settle_seekFails_entry (u := u) hu hl ho hv he hown⟩,
      fun p hp hown hlabel hprobe hv hwatch => ⟨_, hother hlabel hprobe, settle_seekFails_posted (u := u) hu hl ho hv hp hown hwatch⟩,
      fun sw i hown hlabel hprobe hv hsw hi => ?sweep,
      fun hown hk hv => ⟨_, hmount fun _ => hv, settle_seekFails_label (u := u) hu hl hv hown hk⟩,
      fun k lo hi hown hk hv hm => ⟨_, hmount fun _ => hv, settle_seekFails_probe (u := u) hu hl hv hown hk hm⟩,
      fun hown hk hv => ⟨_, hother (by simp [hk]) (by simp [hk]), ?store⟩⟩
    case sweep =>
      intro asLast v comes
      obtain ⟨hnext, hhalted, hprotected⟩ := settle_seekFails_sweep (u := u) hu hl hv hown hsw hi
      exact ⟨fun hc => ⟨_, hother hlabel hprobe, hnext hc⟩, fun hc => ⟨_, hother hlabel hprobe, hhalted hc⟩,
        fun hc => ⟨_, hother hlabel hprobe, hprotected hc⟩⟩
    case store =>
      exact settle_seekFails_store (u := u) hu hl hown hk
  case lost =>
    exact ⟨_, restoreTimeout_lost hs htimer htwo ha hstops hdrain hown hlabel hprobe, entryLost hown he hv ho hl rfl⟩

end Sys2Proof.Proofs
end

section
/-! PROOFS. O35: the four departures, each a volume gone with its transfer cut short (R114, R118, R142, R155). -/

namespace Sys2Proof.Machine

open Sys2Proof.Safety

variable {s t u v : State} {a : Access} {e : Entry} {q : Sequencer}

/-! ## A transfer cut short (R9, R93) -/

/-- The access in progress torn at its sector and its run credited. -/
def cutShort (s : State) : State :=
  match s.seq.access with
  | some a => creditRun a (tear (reportTornAppend s))
  | none => s

theorem reportTornAppend_frame (s : State) : reportTornAppend s = { s with work := (reportTornAppend s).work } := by
  unfold reportTornAppend
  split
  · split
    · unfold reportSector
      split <;> rfl
    · rfl
  · rfl

theorem creditRun_frame (a : Access) (s : State) : creditRun a s = { s with work := (creditRun a s).work } := by
  unfold creditRun
  split <;> rfl

theorem cutShort_some (ha : s.seq.access = some a) : cutShort s = creditRun a (tear (reportTornAppend s)) := by
  unfold cutShort
  rw [ha]

theorem cutShort_frame (s : State) : cutShort s = { s with work := (cutShort s).work, medium := cutMedium s } := by
  cases ha : s.seq.access with
  | none =>
    have hmedium : cutMedium s = s.medium := by simp [cutMedium, ha]
    rw [hmedium, cutShort, ha]
  | some a =>
    rw [cutShort_some ha, creditRun_frame, tear_eq, reportTornAppend_frame]
    rfl

/-- Entries of the work changed in nothing but what is done of them and reported. -/
def sameEntries (s t : State) : Prop :=
  t.work.map (fun e => (e.order, e.channel, e.tag)) = s.work.map (fun e => (e.order, e.channel, e.tag))

theorem sameEntries_updEntry (n : Nat) {f : Entry → Entry} (hf : ∀ x, ((f x).order, (f x).channel, (f x).tag) = (x.order, x.channel, x.tag))
    (s : State) : sameEntries s (updEntry n f s) := by
  show (s.work.map (fun x => if x.order = n then f x else x)).map _ = _
  rw [List.map_map]
  refine List.map_congr_left fun x _ => ?_
  dsimp only [Function.comp]
  split
  · exact hf x
  · rfl

theorem cutShort_entries (s : State) : sameEntries s (cutShort s) := by
  cases ha : s.seq.access with
  | none =>
    rw [cutShort, ha]
    rfl
  | some a =>
    rw [cutShort_some ha, tear_eq]
    have hreported : sameEntries s (reportTornAppend s) := by
      rw [reportTornAppend, ha]
      dsimp only
      split
      · unfold reportSector
        split
        · exact sameEntries_updEntry _ (by intro _; rfl) s
        · rfl
      · rfl
    unfold creditRun
    split
    · exact (sameEntries_updEntry _ (by intro _; rfl) { reportTornAppend s with medium := cutMedium (reportTornAppend s) }).trans hreported
    · exact hreported

theorem sameEntries.orders (h : sameEntries s t) : t.work.map (fun e => e.order) = s.work.map (fun e => e.order) := by
  have hfirst := congrArg (List.map Prod.fst) h
  rwa [List.map_map, List.map_map] at hfirst

theorem sameEntries.tags (h : sameEntries s t) : ∀ x ∈ t.work, ∃ y ∈ s.work, y.channel = x.channel ∧ y.tag = x.tag := by
  intro x hx
  obtain ⟨y, hy, heq⟩ := List.mem_map.1 (h ▸ List.mem_map_of_mem (f := fun e : Entry => (e.order, e.channel, e.tag)) hx)
  obtain ⟨-, hch, htag⟩ := by simpa using heq
  exact ⟨y, hy, hch, htag⟩

/-- The owner's entry with the sector that the cut tears reported to it. -/
theorem reportTornAppend_owner (hn : (s.work.map (fun e => e.order)).Nodup) (he : e ∈ s.work) (ha : s.seq.access = some a)
    (hown : a.owner = .entry e.order) (hkind : a.kind = .appendRun ↔ e.kind = .append) :
    (reportTornAppend s).entry e.order = some { e with
      conditions := if e.kind = .append ∧ a.kind = .appendRun ∧ a.pass = .work ∧ s.seq.phase = .data then
        addCondition (e.count - e.writeBuffers.length) .torn e.conditions else e.conditions } := by
  have hentry := entry_of_nodup hn he
  unfold reportTornAppend
  rw [ha]
  dsimp only
  by_cases htorn : a.kind = .appendRun ∧ a.pass = .work ∧ s.seq.phase = .data
  · have hk := hkind.1 htorn.1
    rw [if_pos htorn, if_pos ⟨hk, htorn⟩, reportSector, hown]
    dsimp only
    rw [reportCondition, entry_updEntry (by intro _; rfl), if_pos rfl, hentry, Option.map_some]
    simp only [State.sectorIndex, hown, hentry, hk]
  · rw [if_neg htorn, if_neg fun h => htorn h.2]
    exact hentry

/-- Another's entry stands. -/
theorem reportTornAppend_other (ha : s.seq.access = some a) (hown : a.owner ≠ .entry e.order) :
    (reportTornAppend s).entry e.order = s.entry e.order := by
  unfold reportTornAppend
  rw [ha]
  dsimp only
  split
  · unfold reportSector
    split
    · next n hn =>
      rw [reportCondition, entry_updEntry (by intro _; rfl), if_neg fun h => hown (by rw [hn, h])]
    · rfl
  · rfl

theorem entry_cutShort (hn : (s.work.map (fun e => e.order)).Nodup) (he : e ∈ s.work)
    (hkind : ∀ a, s.seq.access = some a → a.owner = .entry e.order → (a.kind = .appendRun ↔ e.kind = .append)) :
    (cutShort s).entry e.order = some (lastOf s e) := by
  have hentry := entry_of_nodup hn he
  cases ha : s.seq.access with
  | none =>
    rw [cutShort, lastOf, ha]
    exact hentry
  | some a =>
    rw [cutShort_some ha, tear_eq, lastOf, ha]
    dsimp only
    by_cases hown : a.owner = .entry e.order
    · have hreported := reportTornAppend_owner hn he ha hown (hkind a ha hown)
      rw [if_pos hown, creditRun_entry hown, entry_updEntry (by intro _; rfl), if_pos rfl]
      exact congrArg (Option.map _) hreported
    · have hreported := (reportTornAppend_other ha hown).trans hentry
      rw [if_neg hown]
      unfold creditRun
      split
      · next n hn' =>
        rw [entry_updEntry (by intro _; rfl), if_neg fun h => hown (by rw [hn', h])]
        exact hreported
      · exact hreported

theorem lastOf_kept (s : State) (e : Entry) : (lastOf s e).order = e.order ∧ (lastOf s e).channel = e.channel
    ∧ (lastOf s e).live = e.live ∧ (lastOf s e).discard = e.discard := by
  unfold lastOf
  split
  · split <;> exact ⟨rfl, rfl, rfl, rfl⟩
  · exact ⟨rfl, rfl, rfl, rfl⟩

/-! ## The departure from the state before it -/

/-- A state whose transfer has been cut short, as its departure has left the sequencer. -/
structure CutOff (s u : State) (q : Sequencer) : Prop where
  eq : u = { cutShort s with seq := q, ctlBuffer := .free }
  access : q.access = none
  gate : q.gate = false
  phase : q.phase = .none

variable (hcut : CutOff s u q)

include hcut

theorem CutOff.frame : u = { s with work := (cutShort s).work, medium := cutMedium s, seq := q, ctlBuffer := .free } := by
  rw [hcut.eq, cutShort_frame]

theorem CutOff.ports : u.ports = s.ports ∧ u.posted = s.posted ∧ u.sweep = s.sweep ∧ u.work = (cutShort s).work := by
  rw [hcut.frame]
  exact ⟨rfl, rfl, rfl, rfl⟩

theorem CutOff.port (ch : Channel) : u.port ch = s.port ch := by
  rw [hcut.frame]
  rfl

theorem CutOff.nodup (ho : OrdersLawful s) : (u.work.map (fun e => e.order)).Nodup ∧ (u.posted.map (fun p => p.order)).Nodup := by
  obtain ⟨horders, -, -⟩ := ho
  obtain ⟨hwork, hposted, -⟩ := List.nodup_append.1 horders
  obtain ⟨-, hp, -, hw⟩ := hcut.ports
  rw [hp, hw, (cutShort_entries s).orders]
  exact ⟨hwork, hposted⟩

theorem CutOff.dues (hl : RepliesLawful s) : DueOwn u :=
  dueOwn_of_lawful fun ch => by
    rw [hcut.port]
    exact hl ch

variable (hgone : Gone u t)

include hgone

theorem CutOff.portsDeparted : PortsDeparted s t := by
  obtain ⟨hports, hposted, hsweep, hwork⟩ := hcut.ports
  intro ch p q'
  have hport := hgone.port ch
  rw [hcut.port] at hport
  have htold : (t.port ch).events = (s.port ch).events ||| (workGoneEvents u ch ||| EventKind.volumeChange.bit) := congrArg Port.events hport
  have hevents : q'.events = p.events ||| EventKind.volumeChange.bit ||| (if s.sweep.isSome then EventKind.sweepEnd.bit else 0)
      ||| (if s.posted.any (fun x => decide (x.channel = ch)) then EventKind.postedFault.bit else 0) := by
    refine htold.trans ?_
    rw [workGoneEvents, faultEvents, hposted, hsweep]
    ac_rfl
  have hqueue := hgone.queue ch
  rw [hcut.port] at hqueue
  refine ⟨?_, hevents, hqueue, fun r due hst htag h255 hform => ?_⟩
  · rw [← htold] at hport
    exact hport
  · have htag' : u.tagInUse ch r.tag = false := by
      refine tagInUse_kept (fun x hx => (cutShort_entries s).tags x (hwork ▸ hx)) (fun sw hsw => hsweep ▸ hsw) (fun d hd => .inl ?_) htag
      rwa [hcut.port] at hd
    have hctl : u.holdsController ch = s.holdsController ch := by
      rw [hcut.frame]
      rfl
    obtain ⟨hneeds, hflush⟩ := hgone.answered ch r due (by rw [hcut.port]; exact hst) htag' h255 hform
    refine ⟨fun hk => ⟨_, rfl, rfl, hneeds ?_⟩, fun hk => ⟨_, rfl, rfl, hflush hk⟩⟩
    rw [hctl]
    exact hk.imp_right (.imp_right (.imp_right (.imp_right holdsController_of)))

theorem CutOff.departed : Departed s t := by
  have hseq : t.seq = { q with defects := [], overflow := false } := by
    rw [hgone.frame, hcut.eq]
  refine ⟨?_, by rw [hseq]; exact hcut.access, by rw [hseq]; exact hcut.gate, by rw [hseq]; exact hcut.phase, by rw [hseq], by rw [hseq],
    hgone.noneLive, hcut.portsDeparted hgone⟩
  have hframe := hgone.frame
  rw [hframe, hcut.frame]

theorem CutOff.workGone (ho : OrdersLawful s) : WorkGone s t := by
  intro e he hl hd hkind y
  obtain ⟨horder, hch, hlive, hdiscard⟩ := lastOf_kept s e
  obtain ⟨hnodup, -, -⟩ := List.nodup_append.1 ho.1
  obtain ⟨-, -, -, hwork⟩ := hcut.ports
  have hy : y ∈ u.work := hwork ▸ mem_of_entry (entry_cutShort hnodup he hkind)
  rcases hgone.ended y hy (hlive.trans hl) (hdiscard.trans hd) with hkept | hmem
  · exact .inl ⟨_, mem_of_entry hkept, horder, rfl, rfl, rfl, rfl⟩
  · refine .inr ?_
    rw [← hch]
    exact hmem

theorem CutOff.postedGone : PostedGone s t := by
  have hgone' := hgone.posted
  rw [hcut.frame] at hgone'
  exact hgone'

omit hcut hgone

/-! ## The four commands -/

theorem seqDeparts_cut (s : State) :
    (seqDeparts s).seq.access = none ∧ (seqDeparts s).seq.gate = false ∧ (seqDeparts s).seq.phase = .none := by
  rw [seqDeparts_eq]
  split <;> exact ⟨rfl, rfl, rfl⟩

theorem seqCut_cylinder (h : s.seq.cylinder = none) : (seqCut s).seq.cylinder = none := by
  show (if s.commandOutstanding then none else s.seq.cylinder) = none
  rw [h, ite_self]

theorem cutOff_of_cutShort {f : Sequencer → Sequencer} (h : cutShort v = updSeq f (cutShort s)) :
    CutOff s (departing v) (seqDeparts (updSeq f (cutShort s))).seq := by
  obtain ⟨haccess, hgate, hphase⟩ := seqDeparts_cut (updSeq f (cutShort s))
  refine ⟨?_, haccess, hgate, hphase⟩
  show { seqDeparts (cutShort v) with ctlBuffer := .free } = _
  rw [h, seqDeparts_frame]
  rfl

/-- A volume that is not ABSENT departs, and the step settles. -/
theorem settle_departed (hv : v.volume.state ≠ .absent) (hcut : CutOff s (departing v) q) (ho : OrdersLawful s) (hl : RepliesLawful s) :
    let t := settle (depart v)
    Departed s t ∧ WorkGone s t ∧ PostedGone s t ∧ t.seq = { q with defects := [], overflow := false } := by
  obtain ⟨hn, hp⟩ := hcut.nodup ho
  have hgone := settle_depart hv hn hp (hcut.dues hl)
  refine ⟨hcut.departed hgone, hcut.workGone hgone ho, hcut.postedGone hgone, ?_⟩
  rw [hgone.frame, hcut.eq]

theorem creditRun_updSeq (a : Access) (f : Sequencer → Sequencer) (s : State) :
    creditRun a (updSeq f s) = updSeq f (creditRun a s) := by
  unfold creditRun
  split <;> rfl

/-- Outside every phase a cut tears nothing and reports nothing. -/
theorem tear_reportTornAppend_still (h : s.seq.phase = .none) : tear (reportTornAppend s) = s := by
  have hreport : reportTornAppend s = s := by
    unfold reportTornAppend
    split
    · exact if_neg fun hk => by simp [h] at hk
    · rfl
  rw [hreport, tear_eq, cutMedium_eq (by simp [h]) (by simp [h])]

/-- The sequencer leaves its phase before its run is credited. -/
theorem cutShort_updSeq {f : Sequencer → Sequencer} (hphase : ∀ q, (f q).phase = .none) (haccess : ∀ q, (f q).access = q.access) :
    cutShort (updSeq f (tear (reportTornAppend s))) = updSeq f (cutShort s) := by
  have hstill := tear_reportTornAppend_still (s := updSeq f (tear (reportTornAppend s))) (hphase _)
  have hacc : (updSeq f (tear (reportTornAppend s))).seq.access = s.seq.access := by
    refine (haccess _).trans ?_
    rw [tear_eq, reportTornAppend_frame]
  cases ha : s.seq.access with
  | none =>
    have hsame : tear (reportTornAppend s) = s := by simp [tear, reportTornAppend, ha]
    rw [cutShort, hacc, ha, cutShort, ha, hsame]
  | some a => rw [cutShort_some (hacc.trans ha), hstill, cutShort_some ha, creditRun_updSeq]

theorem exec_readyInactive (h : s.ownerActive .ready = true) : exec .readyInactive (takenBy .owner s) =
    .next (settle (depart (enterNoCartridge (tear (reportTornAppend (actedOn .ready false s)))))) :=
  congrArg Host.Outcome.next ((lineChange_owner ..).trans (ownerTakes_change (by simp [h])))

theorem exec_doorOpen (h : s.ownerActive .door = false) :
    exec .doorOpen (takenBy .owner s) = .next (settle (depart (actedOn .door true s))) :=
  congrArg Host.Outcome.next ((lineChange_owner ..).trans (ownerTakes_change (by simp [h])))

theorem exec_restoreTimeout (hs : s.seq.state = .restoring) (htimer : s.seq.restoreTimer = some 0) (htwo : s.seq.seekTimeouts < 2) :
    exec .restoreTimeout s = .next (settle (depart (enterOffline s))) := by
  show execRestoreTimeout s = _
  unfold execRestoreTimeout
  rw [if_pos ⟨hs, htimer⟩]
  split
  · rw [if_neg fun h => absurd h.1 (by omega)]
  · rfl

/-- The departure has issued STOP already. -/
theorem exec_faultPersistenceExpiry (hs : s.seq.state = .notSafe) (htimer : s.seq.faultTimer = some 0)
    (hstop : (depart s).seq.state = .stopping) : exec .faultPersistenceExpiry s = .next (settle (depart s)) := by
  show execFaultPersistenceExpiry s = _
  unfold execFaultPersistenceExpiry
  rw [if_pos ⟨hs, htimer⟩]
  dsimp only
  rw [if_neg (by rw [hstop]; nofun)]

theorem depart_state (hv : v.volume.state ≠ .absent) (hcut : CutOff s (departing v) q) (ho : OrdersLawful s) (hl : RepliesLawful s) :
    (depart v).seq.state = q.state := by
  obtain ⟨hn, hp⟩ := hcut.nodup ho
  rw [depart_eq hv, retaken_seq hn hp (hcut.dues hl), hcut.eq]

end Sys2Proof.Machine

namespace Sys2Proof.Proofs

open Sys2Proof.Machine Sys2Proof.Safety

/-- Settles O35: before each of the four the transfer is cut short alike, and the sequencer's state says where the departure leaves it. -/
theorem departures : Obligations.Departures := by
  intro s hv ho hl
  have hdirect : ∀ u : State, CutOff u (departing u) (seqDeparts (updSeq id (cutShort u))).seq := fun u => cutOff_of_cutShort rfl
  have hstate : ∀ u : State, (seqDeparts (updSeq id (cutShort u))).seq.state =
      if u.seq.state = .offline ∨ u.seq.state = .stopping ∨ u.seq.state = .noCartridge then u.seq.state else .stopping := fun u => by
    rw [seqDeparts_state, cutShort_frame]
    rfl
  refine ⟨fun hready => ?ready, fun hdoor => ?door, fun hs hphase htimer htwo => ?restore, fun hs htimer => ?fault⟩
  case ready =>
    have hcut : CutOff (actedOn .ready false s) (departing (enterNoCartridge (tear (reportTornAppend (actedOn .ready false s))))) _ :=
      cutOff_of_cutShort (cutShort_updSeq (fun _ => rfl) fun _ => rfl)
    have hv' : (enterNoCartridge (tear (reportTornAppend (actedOn .ready false s)))).volume.state ≠ .absent := by
      rw [tear_eq, reportTornAppend_frame]
      exact hv
    obtain ⟨hdeparted, hwork, hposted, hseq⟩ := settle_departed hv' hcut ho hl
    refine ⟨_, exec_readyInactive hready, hdeparted, hwork, hposted, ?_⟩
    rw [hseq, seqDeparts_eq, if_pos (.inr (.inr rfl))]
    have hcylinder := seqCut_cylinder (s := enterNoCartridge (cutShort (actedOn .ready false s))) rfl
    exact ⟨rfl, hcylinder, rfl, rfl⟩
  case door =>
    obtain ⟨hdeparted, hwork, hposted, hseq⟩ := settle_departed (v := actedOn .door true s) hv (hdirect _) ho hl
    refine ⟨_, exec_doorOpen hdoor, hdeparted, hwork, hposted, ?_⟩
    rw [hseq]
    refine (hstate _).trans ?_
    show (if s.seq.state = .offline ∨ s.seq.state = .stopping ∨ s.seq.state = .noCartridge then s.seq.state else .stopping) = _
    by_cases hstop : s.seq.state = .stopping
    · simp [hstop]
    · simp [hstop]
  case restore =>
    have hshort := cutShort_updSeq (s := s) (f := fun q => { q with
      state := .offline, cylinder := none, accepted := false, restoreTimer := none, target := none, phase := .none, gate := false })
      (fun _ => rfl) fun _ => rfl
    rw [tear_reportTornAppend_still hphase] at hshort
    have hcut := cutOff_of_cutShort (v := enterOffline s) hshort
    obtain ⟨hdeparted, hwork, hposted, hseq⟩ := settle_departed (v := enterOffline s) hv hcut ho hl
    refine ⟨_, exec_restoreTimeout hs htimer htwo, hdeparted, hwork, hposted, ?_⟩
    rw [hseq, seqDeparts_eq, if_pos (.inl rfl)]
    have hcylinder := seqCut_cylinder (s := enterOffline (cutShort s)) rfl
    exact ⟨rfl, hcylinder⟩
  case fault =>
    have hcut := hdirect s
    have hstop : (seqDeparts (updSeq id (cutShort s))).seq.state = .stopping := by simp [hstate, hs]
    obtain ⟨hdeparted, hwork, hposted, hseq⟩ := settle_departed hv hcut ho hl
    refine ⟨_, exec_faultPersistenceExpiry hs htimer ((depart_state hv hcut ho hl).trans hstop), hdeparted, hwork, hposted, ?_⟩
    rw [hseq]
    exact hstop

end Sys2Proof.Proofs
end

section
/-! PROOFS. The address check of a working passage (R121, R122, R127, R129): the gate opened, the passage let go by, the attempt failed. -/

namespace Sys2Proof.Machine

open Sys2Proof.Safety

variable {s : State} {a b : Access} {h : HeaderImage}

/-! ## A header, and what it shows -/

theorem headerSeen_wrong (hw : AddressWrong a h) (q : Sequencer) : headerSeen a h q = { q with mismatches := min 2 (q.mismatches + 1) } := by
  rw [headerSeen, if_neg (not_right_of_wrong hw), if_pos hw]

theorem headerSeen_unreadable (hbad : h.check ≠ headerCheck h.cylinder h.head h.sector h.state) (q : Sequencer) : headerSeen a h q = q := by
  rw [headerSeen, if_neg fun hr => hbad hr.1, if_neg fun hw => hbad hw.1]

theorem headerSeen_mismatches (hr : ¬ AddressRight a h) (q : Sequencer) :
    headerSeen a h q = { q with mismatches := if AddressWrong a h then min 2 (q.mismatches + 1) else q.mismatches } := by
  rw [headerSeen, if_neg hr]

/-- The address check of an access noted as passed. -/
abbrev Access.passed (a : Access) : Access := { a with checkPassed := true }

/-- The state with the address check noted as passed. -/
def State.passedCheck (a : Access) (s : State) : State := { s with seq := { s.seq with mismatches := 0, access := some a.passed } }

theorem noteCheck_passed (ha : s.seq.access = some a) (st : HeaderState) : noteCheck (.passed st) s = s.passedCheck a := by
  simp only [noteCheck, updAccess, updSeq, ha, Option.map_some]
  rfl

/-! ## The gate (R121) -/

theorem gateAllowed_iff : s.gateAllowed = true ↔
    s.lineActive .fault = false ∧ s.ownerActive .fault = false ∧ s.powerPeriod ≠ some .immediate ∧ s.powerTaken ≠ some .immediate := by
  simp [State.gateAllowed, and_assoc]

theorem openGate_opens (hb : s.seq.access = some b) (hg : s.gateAllowed = true) :
    openGate a s = { s with seq := { s.seq with gate := true, phase := .header, access := some { b with underWay := true } } } := by
  rw [openGate, if_pos hg]
  simp only [updAccess, updSeq, hb, Option.map_some]

theorem openGate_passes (hb : s.seq.access = some b) (hg : ¬ s.gateAllowed = true) :
    openGate a s =
      { s with seq := { s.seq with
          state := .searching, head := a.sector % 24 / 12, target := some (a.sector % 12), phase := .none, gate := false
          access := some { b with unsync := 0 } } } := by
  rw [openGate, if_neg hg, startSearch]
  simp only [updAccess, updSeq, hb, Option.map_some]
  rfl

/-! ## The passage at its address check -/

section Checked

variable (ht : s.seq.state = .transferring) (hp : s.seq.phase = .headerCheck) (ha : s.seq.access = some a)

include ht hp ha

theorem headerReadComplete_eq (h : HeaderImage) :
    exec (.headerReadComplete h) s = .next (headerChecked a (checkAddress a h) (noteCheck (checkAddress a h) s)) := by
  show execHeaderReadComplete h s = _
  rw [execHeaderReadComplete, inPhase_eq ht hp ha]

variable (hpass : a.pass = .work)

include hpass

/-- A writing passage at the right address comes to its gate, the check noted. -/
theorem headerRead_right_writes (hr : AddressRight a h) (hw : a.kind.writes = true) :
    exec (.headerReadComplete h) s = .next (openGate a (s.passedCheck a)) := by
  rw [headerReadComplete_eq ht hp ha, checkAddress_of_right hr, noteCheck_passed ha]
  unfold headerChecked
  rw [hpass]
  dsimp only
  rw [if_pos hw]

/-- A header failure that is waived comes to the gate as well. -/
theorem headerRead_waived (hbad : h.check ≠ headerCheck h.cylinder h.head h.sector h.state) (hw : a.kind.writes = true)
    (hwaives : a.waives = true) : exec (.headerReadComplete h) s = .next (openGate a s) := by
  rw [headerReadComplete_eq ht hp ha, checkAddress_of_unreadable hbad]
  unfold headerChecked
  rw [hpass]
  dsimp only
  rw [if_pos (by rw [hw, hwaives]; rfl)]
  rfl

/-- A failed check, unless it is a header failure waived at a write, is a failed attempt. -/
theorem headerRead_fails (hr : ¬ AddressRight a h) (hnot : AddressWrong a h ∨ a.kind.writes = false ∨ a.waives = false) :
    exec (.headerReadComplete h) s = .next (settle (checkFails a { s with seq := headerSeen a h s.seq })) := by
  rw [headerReadComplete_eq ht hp ha, noteCheck_not_right hr]
  rcases hnot with hwrong | hreads | hwaives
  · rw [headerChecked_fails hpass hr (.inl hwrong)]
  · rw [headerChecked_not_right hr hpass hreads]
    unfold checkFails
    rw [hpass]
    dsimp only
    rw [hreads]
    rfl
  · rw [headerChecked_fails hpass hr (.inr hwaives)]

/-- A WRITTEN sector at the right address goes on to its data. -/
theorem headerRead_written (hr : AddressRight a h) (hk : a.kind = .readRun ∨ a.kind = .scanStep ∨ a.kind = .labelRead)
    (hst : h.state = .written) :
    exec (.headerReadComplete h) s = .next
      { s with seq := { s.seq with mismatches := 0, phase := .dataRead, access := some { a with checkPassed := true } } } := by
  have hreads : a.kind.writes = false := by rcases hk with hk | hk | hk <;> simp [hk, AccessKind.writes]
  have hheader : ∀ t : State, readHeader a .written t = updSeq (fun q => { q with phase := .dataRead }) t := by
    intro t
    unfold readHeader
    rcases hk with hk | hk | hk <;> rw [hk]
  rw [headerReadComplete_right ht hp ha hpass hreads hr, hst, hheader, noteCheck_passed ha]
  rfl

end Checked

/-! ## The one further attempt (R129) -/

/-- The last allowed attempt's check has failed: one further attempt, behind a restore unless one was made for the sector. -/
theorem checkFails_further (hp : a.pass = .work) (hw : a.kind.writes = true) (hfurther : a.further = false)
    (hlast : s.writeRetries a ≤ a.failed) :
    checkFails a s = if a.restored ∨ s.seq.mismatches ≥ 2 then nextPassage (countFailure true s) else issueRestore (countFailure true s) := by
  unfold checkFails
  rw [hp]
  dsimp only
  rw [if_pos hw, checkAttemptFails, if_neg (by omega), hfurther]
  rfl

theorem furtherAttempt_restored (ha : s.seq.access = some a) (hp : a.pass = .work) (hw : a.kind.writes = true) (hfurther : a.further = false)
    (hlast : s.writeRetries a ≤ a.failed) (hrestored : a.restored = true) :
    checkFails a s = { s with seq := retried { a with failed := a.failed + 1, further := true } s.seq } := by
  rw [checkFails_further hp hw hfurther hlast, if_pos (.inl hrestored), nextPassage_of_failure true ha]

/-- With no restore made for the sector, the further attempt has one: a recalibration where the mismatches call for it. -/
theorem furtherAttempt_restores (ha : s.seq.access = some a) (hp : a.pass = .work) (hw : a.kind.writes = true) (hfurther : a.further = false)
    (hlast : s.writeRetries a ≤ a.failed) (hrestored : a.restored = false) :
    checkFails a s =
      { s with seq := { s.seq with
          mismatches := if 2 ≤ s.seq.mismatches then 0 else s.seq.mismatches
          access := some { a with failed := a.failed + 1, further := true, restored := true }
          state := .restoring, cylinder := none, accepted := false, seekTimer := none, restoreTimer := some 600
          target := none, phase := .none, gate := false } } := by
  rw [checkFails_further hp hw hfurther hlast]
  by_cases htwo : 2 ≤ s.seq.mismatches
  · rw [if_pos (.inr htwo), nextPassage_of_failure true ha, retried, if_pos htwo, if_pos htwo]
  · rw [if_neg (by simp [hrestored]; omega), if_neg htwo]
    simp only [issueRestore, countFailure, updAccess, updSeq, ha, Option.map_some]

end Sys2Proof.Machine
end

section
/-! PROOFS. O44: HEADER_READ_COMPLETE, what the working passage comes to. -/

namespace Sys2Proof.Machine

open Sys2Proof.Safety

variable {s : State} {a : Access} {h : HeaderImage}

/-- The attempts that a failed check leaves, and the one further attempt, where the step settles in a MOUNTED volume. -/
theorem headerRead_attempt (ht : s.seq.state = .transferring) (hp : s.seq.phase = .headerCheck) (ha : s.seq.access = some a)
    (hpass : a.pass = .work) (hl : RepliesLawful s) (hv : s.volume.state = .mounted) (hr : ¬ AddressRight a h)
    (hnot : AddressWrong a h ∨ a.kind.writes = false ∨ a.waives = false) {q : Sequencer}
    (hfails : checkFails a { s with seq := headerSeen a h s.seq } = { s with seq := q }) :
    ∃ t, exec (.headerReadComplete h) s = .next t ∧ SameButReservations { s with seq := q } t :=
  ⟨_, headerRead_fails ht hp ha hpass hr hnot, by
    rw [hfails]
    exact settle_of_sameBut (s := { s with seq := q }) (sameBut_refl _) hl hv⟩

/-- The address check of a working passage. -/
theorem headerRead_checked (ht : s.seq.state = .transferring) (hp : s.seq.phase = .headerCheck) (ha : s.seq.access = some a)
    (hpass : a.pass = .work) (hl : RepliesLawful s) (hv : s.volume.state = .mounted) (hlabel : a.kind ≠ .labelRead) (hprobe : a.kind ≠ .probe)
    (hleft : a.failed < (if a.kind.writes = true then s.writeRetries a else s.readRetries a)) (hr : ¬ AddressRight a h)
    (hnot : AddressWrong a h ∨ a.kind.writes = false ∨ a.waives = false) :
    ∃ t, exec (.headerReadComplete h) s = .next t
      ∧ SameButReservations { s with seq := retried { a with failed := a.failed + 1, further := false } (headerSeen a h s.seq) } t :=
  headerRead_attempt ht hp ha hpass hl hv hr hnot
    (checkFails_again (s := { s with seq := headerSeen a h s.seq }) ha hpass hlabel hprobe hleft)

end Sys2Proof.Machine
end

section
/-! PROOFS. HEADER_READ_COMPLETE on a BLANK or VOID sector of a READ's run (R7, R89, R124): zero words, and the condition reported. -/

namespace Sys2Proof.Machine

open Sys2Proof.Safety

variable {s : State} {a : Access} {h : HeaderImage} {e : Entry}

/-- What an unwritten sector reports. -/
def unwrittenCondition (h : HeaderImage) : Condition := if h.state = .blank then .blank else .void

theorem readHeader_unwritten (hk : a.kind = .readRun ∨ a.kind = .scanStep) (hst : h.state ≠ .written) :
    readHeader a h.state s = settle (sectorRead a (List.replicate 256 0) (some (unwrittenCondition h)) s) := by
  rw [← zeroSector_toList, unwrittenCondition]
  unfold readHeader
  cases hstate : h.state with
  | written => exact absurd hstate hst
  | blank => rcases hk with hk | hk <;> rw [hk] <;> rfl
  | void => rcases hk with hk | hk <;> rw [hk] <;> rfl

theorem headerRead_unwritten (ht : s.seq.state = .transferring) (hp : s.seq.phase = .headerCheck) (ha : s.seq.access = some a)
    (hpass : a.pass = .work) (hk : a.kind = .readRun ∨ a.kind = .scanStep) (hr : AddressRight a h) (hst : h.state ≠ .written) :
    exec (.headerReadComplete h) s =
      .next (settle (sectorRead a.passed (List.replicate 256 0) (some (unwrittenCondition h)) (s.passedCheck a))) := by
  have hreads : a.kind.writes = false := by rcases hk with hk | hk <;> simp [hk, AccessKind.writes]
  rw [headerReadComplete_right ht hp ha hpass hreads hr, noteCheck_passed ha, readHeader_unwritten hk hst]
  rfl

/-- The entry with an unwritten sector's zero words and what it reports. -/
def Entry.unwritten (a : Access) (h : HeaderImage) (e : Entry) : Entry :=
  e.given (List.replicate 256 0) (addCondition (a.sector - e.first) (unwrittenCondition h) e.conditions)

theorem headerRead_zeroed (ht : s.seq.state = .transferring) (hp : s.seq.phase = .headerCheck) (ha : s.seq.access = some a)
    (hpass : a.pass = .work) (hk : a.kind = .readRun) (hown : a.owner = .entry e.order) (he : e ∈ s.work) (hek : e.kind = .read)
    (hr : AddressRight a h) (hst : h.state ≠ .written) (ho : OrdersLawful s) :
    exec (.headerReadComplete h) s =
      .next (settle (sectorEnds a.passed.readOne (withEntry (e.unwritten a h) (readCounted a.passed (s.passedCheck a).seq s)))) := by
  rw [headerRead_unwritten ht hp ha hpass (.inl hk) hr hst,
    sectorRead_entry (s := s.passedCheck a) ho he hek (a := a.passed) hown hk rfl rfl]
  rfl

/-- The outcome of a READ whose last sector is unwritten (R90). -/
theorem unwritten_outcome (a : Access) (h : HeaderImage) (e : Entry) (hm : ¬ Reported .mediumError (e.unwritten a h).conditions)
    (hc : ¬ Reported .checkMismatch (e.unwritten a h).conditions) (hv : ¬ Reported .void (e.unwritten a h).conditions) :
    readOutcome (e.unwritten a h).conditions = .blank := by
  have hmem : Reported (unwrittenCondition h) (e.unwritten a h).conditions := ⟨_, mem_addCondition _ _ _⟩
  refine readOutcome_blank hm hc hv ?_
  by_cases hblank : h.state = .blank
  · rwa [unwrittenCondition, if_pos hblank] at hmem
  · rw [unwrittenCondition, if_neg hblank] at hmem
    exact absurd hmem hv

end Sys2Proof.Machine
end

section
/-! PROOFS. A sector write that has failed its last attempt (R129): recorded, and the end of the entry whose run it ends. -/

namespace Sys2Proof.Machine

open Sys2Proof.Safety

variable {s t : State} {a c : Access} {h : HeaderImage} {e : Entry} {i : Nat}

/-! ## The last attempt -/

theorem countFailure_eq (further : Bool) (hc : s.seq.access = some c) :
    countFailure further s = { s with seq := { s.seq with access := some { c with failed := c.failed + 1, further := further } } } := by
  simp only [countFailure, updAccess, updSeq, hc, Option.map_some]

/-- The one further attempt has failed at its address check. -/
theorem checkFails_writeFails (hp : a.pass = .work) (hw : a.kind.writes = true) (hfurther : a.further = true)
    (hlast : s.writeRetries a ≤ a.failed) : checkFails a s = writeFails a .header (countFailure false s) := by
  unfold checkFails
  rw [hp]
  dsimp only
  rw [if_pos hw, checkAttemptFails, if_neg (by omega), if_pos hfurther]

/-- The last attempt has failed at its read-back. -/
theorem readBackFails_writeFails (hc : s.seq.access = some c) (hlast : s.writeRetries a ≤ a.failed) :
    readBackFails a s = writeFails a (if a.further = true then .header else .write)
      { s with seq := { s.seq with access := some { c with failed := c.failed + 1, further := false, pass := .work } } } := by
  unfold readBackFails
  dsimp only
  rw [if_neg (by omega), countFailure_eq false hc]
  rfl

/-! ## The entry whose run fails -/

/-- The entry with the sectors of its run done and the failed one reported. -/
def Entry.failedAt (i : Nat) (a : Access) (e : Entry) : Entry :=
  { e with done := e.done + a.done, conditions := addCondition i .mediumError e.conditions }

theorem ended_defectRecorded (cause : DefectCause) (clock : Millis) (x : Option Access) (q : Sequencer) :
    ended (defectRecorded a cause clock { q with access := x }) = ended (defectRecorded a cause clock q) := by
  rw [defectRecorded_access]
  rfl

section Entry

variable (ho : OrdersLawful s) (he : e ∈ s.work) (hown : a.owner = .entry e.order)

include ho he hown

theorem sectorIndex_write (hek : e.kind = .write) : s.sectorIndex a = a.sector - e.first := by
  simp [State.sectorIndex, hown, entry_of_mem ho he, hek]

theorem sectorIndex_mapStore (hek : e.kind = .mapStore) : s.sectorIndex a = 0 := by
  simp [State.sectorIndex, hown, entry_of_mem ho he, hek]

theorem endRun_reported (hi : s.sectorIndex a = i) :
    endRun a .mediumError (reportSector a .mediumError s) = endEntry e.order .mediumError (withEntry (e.failedAt i a) (endAccess s)) := by
  have hreport : reportSector a .mediumError s = withEntry { e with conditions := addCondition i .mediumError e.conditions } s := by
    simp only [reportSector, hown, reportCondition, hi]
    exact updEntry_of_mem ho he (f := fun x => { x with conditions := addCondition i .mediumError x.conditions }) rfl
  have hrun := endRun_withEntry (y := { e with conditions := addCondition i .mediumError e.conditions }) hown rfl .mediumError s
  rw [hreport, hrun]
  rfl

/-- The write of a WRITE's run, or of a MAP-STORE's label, has failed. -/
theorem writeFails_entry (hk : a.kind = .writeRun ∨ a.kind = .labelWrite) (hi : s.sectorIndex a = i) (cause : DefectCause) :
    writeFails a cause s = endEntry e.order .mediumError
      (withEntry (e.failedAt i a) (endAccess { s with seq := defectRecorded a cause s.clock s.seq })) := by
  have hrun := endRun_reported (s := { s with seq := defectRecorded a cause s.clock s.seq }) ho he hown (i := i) hi
  unfold writeFails
  rw [recordDefect_eq]
  rcases hk with hk | hk
  · rw [hk]
    exact hrun
  · rw [hk, hown]
    exact hrun

/-- The same, settled in a MOUNTED volume, whatever has been noted of the access. -/
theorem settle_writeFails (hl : RepliesLawful s) (hv : s.volume.state = .mounted) (hk : a.kind = .writeRun ∨ a.kind = .labelWrite)
    (hi : s.sectorIndex a = i) (cause : DefectCause) (q : Sequencer) (x : Option Access) :
    SameButReservations (entryEnded (e.failedAt i a) .mediumError (runStopped (e.failedAt i a) (defectRecorded a cause s.clock q) s))
      (settle (writeFails a cause { s with seq := { q with access := x } })) := by
  have hfails := writeFails_entry (s := { s with seq := { q with access := x } }) ho he hown hk (i := i) hi cause
  have hstopped : withEntry (e.failedAt i a)
      (endAccess { s with seq := defectRecorded a cause s.clock { q with access := x } }) =
      runStopped (e.failedAt i a) (defectRecorded a cause s.clock q) s := by
    rw [runStopped, ← ended_defectRecorded cause s.clock x q]
    rfl
  rw [hfails]
  refine settle_endEntry_of_sameBut (s := runStopped (e.failedAt i a) (defectRecorded a cause s.clock q) s) (e := e.failedAt i a)
    ?_ ?_ (repliesLawful_congr hl (fun _ => ⟨rfl, rfl⟩)) hv (mem_withEntry (s := endAccess s) he rfl) .mediumError
  · rw [← hstopped]
    exact sameBut_refl _
  · exact withEntry_ordersLawful (s := endAccess s) ho _

end Entry

end Sys2Proof.Machine
end

section
/-! PROOFS. O44: HEADER_READ_COMPLETE of a working passage (R121, R122, R124, R125, R127, R129). -/

namespace Sys2Proof.Proofs

open Sys2Proof.Machine Sys2Proof.Safety

/-- Settles O44, by what the header shows and what the passage is for: the gate or the data, an unwritten sector of a READ, the last attempt
at a WRITE's sector. -/
theorem headerReadComplete : Obligations.HeaderReadComplete := by
  refine ⟨fun h a s ht hp ha hpass => ?checked, fun h a e s ht hp ha hpass hk hown he hek hr hst hstop ho hl => ?unwritten,
    fun h a e s ht hp ha hpass hk hown he hek hfurther hlast hbad hv ho hl => ?failed⟩
  case checked =>
    intro allowed
    refine ⟨fun hr hw hgate => ?_, fun hr hw hgate => ?_, by simp [Access.waives, or_assoc],
      fun hbad hw hwaives => ⟨fun hgate => ?_, fun hgate => ?_⟩,
      fun hl hv hw hfurther hlast hbad => ?further, fun hr hk hst => headerRead_written ht hp ha hpass hr hk hst,
      fun hl hv hlabel hprobe hleft => ⟨fun hwrong => ?_, fun hbad hnot => ?_⟩⟩
    case further =>
      intro mismatches counted
      have hbad' : ¬ AddressRight a h ∧ (AddressWrong a h ∨ a.waives = false) := check_failed_cases hbad
      obtain ⟨hr, hnot⟩ := hbad'
      have hseen := headerSeen_mismatches hr s.seq
      have hattempt := fun {q : Sequencer} => headerRead_attempt (q := q) ht hp ha hpass hl hv hr (hnot.imp_right .inr)
      rw [hseen] at hattempt
      exact ⟨fun hrestored => hattempt (furtherAttempt_restores
          (s := { s with seq := { s.seq with mismatches := mismatches } }) ha hpass hw hfurther hlast hrestored),
        fun hrestored => hattempt (furtherAttempt_restored
          (s := { s with seq := { s.seq with mismatches := mismatches } }) ha hpass hw hfurther hlast hrestored)⟩
    · rw [headerRead_right_writes ht hp ha hpass hr hw, openGate_opens (s := s.passedCheck a) rfl (gateAllowed_iff.2 hgate)]
      rfl
    · rw [headerRead_right_writes ht hp ha hpass hr hw, openGate_passes (s := s.passedCheck a) rfl fun hg => hgate (gateAllowed_iff.1 hg)]
      rfl
    · rw [headerRead_waived ht hp ha hpass hbad hw hwaives, openGate_opens ha (gateAllowed_iff.2 hgate)]
    · rw [headerRead_waived ht hp ha hpass hbad hw hwaives, openGate_passes ha fun hg => hgate (gateAllowed_iff.1 hg)]
    · have hagain := headerRead_checked ht hp ha hpass hl hv hlabel hprobe hleft (not_right_of_wrong hwrong) (.inl hwrong)
      rwa [headerSeen_wrong hwrong] at hagain
    · have hagain := headerRead_checked ht hp ha hpass hl hv hlabel hprobe hleft (fun hr => hbad hr.1) (.inr hnot)
      rwa [headerSeen_unreadable hbad] at hagain
  case unwritten =>
    intro mounted unstopped q conditions zeroed next stoppedBy
    have hexec := headerRead_zeroed ht hp ha hpass hk hown he hek hr hst ho
    refine ⟨fun hend hun => ⟨_, hexec, ?_⟩, fun hend hlast hv => ?_, fun hend hmore hun => ⟨_, hexec, ?_⟩, fun hd hmore => ⟨_, hexec, ?_⟩⟩
    · have hnext := given_next (s := s) hl (y := e.unwritten a h) (a := a.passed) (s.passedCheck a).seq hend hun.1 hun.2 hstop
      rwa [show (s.passedCheck a).seq = { q with access := some a.passed } from rfl, retried_access] at hnext
    · exact ⟨_, _, hexec, readOutcome_mediumError, readOutcome_checkMismatch, readOutcome_void, unwritten_outcome a h e,
        given_last ho hl he (y := e.unwritten a h) rfl hek (a := a.passed) hown (s.passedCheck a).seq hend hlast hv rfl⟩
    · exact given_atBoundary ho hl he (y := e.unwritten a h) rfl hek (a := a.passed) hown (s.passedCheck a).seq hend hmore hun.1 hun.2
    · exact given_drained ho hl he (y := e.unwritten a h) rfl hek (a := a.passed) hown (s.passedCheck a).seq hmore hd
  case failed =>
    intro y
    obtain ⟨hr, hnot⟩ := check_failed_cases hbad
    have hwrites : a.kind.writes = true := by rw [hk]; rfl
    have hseen : ({ s with seq := headerSeen a h s.seq } : State).seq.access = some a := ha
    refine ⟨_, headerRead_fails ht hp ha hpass hr (hnot.imp_right .inr), ?_⟩
    rw [checkFails_writeFails (s := { s with seq := headerSeen a h s.seq }) hpass hwrites hfurther hlast, countFailure_eq false hseen]
    exact settle_writeFails ho he hown hl hv (.inl hk) (sectorIndex_write ho he hown hek) .header (headerSeen a h s.seq) _

end Sys2Proof.Proofs
end

section
/-! PROOFS. READ_BACK_COMPLETE of a written sector and of a label (R128, R129): what shows it as written, and what each outcome comes to. -/

namespace Sys2Proof.Machine

open Sys2Proof.Safety

variable {s : State} {a : Access} {h : HeaderImage} {f : FieldImage} {e : Entry} {ws : List Word} {rest : List (List Word)} {l : Label}

/-! ## What a read-back shows (R128) -/

theorem readBackPasses_written (hk : a.kind ≠ .clearStep) : readBackPasses a h f s = true ↔
    AddressRight a h ∧ h.state = .written ∧ f.check = crc f.data.toList ∧ f.data.toList = s.writeData a := by
  by_cases hr : AddressRight a h
  · rw [readBackPasses, checkAddress_of_right hr]
    simp [hk, hr, fieldGood, and_assoc]
  · rcases checkAddress_not_right hr with hc | ⟨hc, -⟩ <;> simp [readBackPasses, hc, hr]

theorem readBackPasses_blank (hk : a.kind = .clearStep) : readBackPasses a h f s = true ↔ AddressRight a h ∧ h.state = .blank := by
  by_cases hr : AddressRight a h
  · rw [readBackPasses, checkAddress_of_right hr]
    exact ⟨fun hst => ⟨hr, by simpa [hk] using hst⟩, fun ⟨_, hst⟩ => by simp [hk, hst]⟩
  · rcases checkAddress_not_right hr with hc | ⟨hc, -⟩ <;> simp [readBackPasses, hc, hr]

theorem checkedBy_right (hr : AddressRight a h) (s : State) : s.checkedBy a h = s.passedCheck a := by
  rw [State.checkedBy, headerSeen_right hr, Access.checked, if_pos hr]
  rfl

section Shown

variable (ht : s.seq.state = .transferring) (hph : s.seq.phase = .readBack) (ha : s.seq.access = some a)

include ht hph ha

/-- A read-back that shows the sector as written counts its write. -/
theorem readBack_passes (hpasses : readBackPasses a h f (s.passedCheck a) = true) (hr : AddressRight a h) :
    exec (.readBackComplete h f) s = .next (settle (writeCounts a.passed (s.passedCheck a))) := by
  show execReadBackComplete h f s = _
  rw [execReadBackComplete, inPhase_eq ht hph ha]
  dsimp only
  rw [noteCheck_eq ha]
  have hchecked := checkedBy_right hr s
  rw [State.checkedBy] at hchecked
  rw [hchecked, if_pos hpasses]
  rfl

/-- Any other is a failed attempt. -/
theorem readBack_fails (hfails : ¬ readBackPasses a h f (s.checkedBy a h) = true) :
    exec (.readBackComplete h f) s = .next (settle (readBackFails (a.checked h) (s.checkedBy a h))) := by
  show execReadBackComplete h f s = _
  rw [execReadBackComplete, inPhase_eq ht hph ha]
  dsimp only
  rw [noteCheck_eq ha]
  exact congrArg Host.Outcome.next (congrArg settle (if_neg hfails))

/-- With attempts left the sector is written again at its next passage. -/
theorem readBack_again (hfails : ¬ readBackPasses a h f (s.checkedBy a h) = true) (hleft : a.failed < s.writeRetries a) :
    exec (.readBackComplete h f) s = .next (settle
      { s with
        seq := retried
          { a with checkPassed := if AddressRight a h then true else a.checkPassed, failed := a.failed + 1, further := false, pass := .work }
          (headerSeen a h s.seq) }) := by
  rw [readBack_fails ht hph ha hfails, readBackFails_again (s := s.checkedBy a h) (a := a.checked h) rfl hleft]
  refine congrArg Host.Outcome.next (congrArg settle ?_)
  exact congrArg (fun q => { s with seq := q }) (retried_access _ _ _)

/-- After the last one the write has failed. -/
theorem readBack_lastFails (hfails : ¬ readBackPasses a h f (s.checkedBy a h) = true) (hlast : s.writeRetries a ≤ a.failed) :
    ∃ x : Access, exec (.readBackComplete h f) s = .next (settle (writeFails a (if a.further = true then .header else .write)
      { s with seq := { headerSeen a h s.seq with access := some x } })) := by
  rw [readBack_fails ht hph ha hfails, readBackFails_writeFails (s := s.checkedBy a h) (a := a.checked h) rfl hlast]
  exact ⟨_, rfl⟩

end Shown

/-! ## A WRITE's sector counted -/

/-- The state with a sector counted after its read-back, under FORCE off the defect list. -/
def countedBack (force : Bool) (a : Access) (s : State) : State :=
  { s.passedCheck a with seq := sectorCounted force a.passed (s.passedCheck a).seq }

theorem endAccess_countedBack (force : Bool) (a : Access) (s : State) :
    endAccess (countedBack force a s) = { s with ctlBuffer := .free, seq := ended (afterForce force a { s.seq with mismatches := 0 }) } := by
  cases force <;> rfl

theorem writeData_entry (hp : a.pass = .readBack) (hk : a.kind = .writeRun) (ho : OrdersLawful s) (he : e ∈ s.work)
    (hown : a.owner = .entry e.order) (hb : e.writeBuffers = ws :: rest) : s.writeData a = ws := by
  have hbuf : s.ownerBuffers a = e.writeBuffers := by
    rw [State.ownerBuffers, hown]
    dsimp only
    rw [entry_of_mem ho he]
    rfl
  rw [State.writeData, if_neg (by simp [hp, hk]), if_neg (by simp [hk]), hbuf, hb]
  rfl

/-- READ_BACK_COMPLETE of a WRITE's run that passes, up to what the sector's end leads to. -/
theorem readBack_counts (ht : s.seq.state = .transferring) (hph : s.seq.phase = .readBack) (ha : s.seq.access = some a)
    (hp : a.pass = .readBack) (hk : a.kind = .writeRun) (ho : OrdersLawful s) (he : e ∈ s.work) (hown : a.owner = .entry e.order)
    (hb : e.writeBuffers = ws :: rest) (hr : AddressRight a h) (hst : h.state = .written) (hcrc : f.check = crc f.data.toList)
    (hws : f.data.toList = ws) :
    exec (.readBackComplete h f) s = .next (settle (sectorEnds a.passed.readOne
      (withEntry { e with writeBuffers := rest } (countedBack e.flags.force a s)))) := by
  have hdata : (s.passedCheck a).writeData a = ws := writeData_entry (s := s.passedCheck a) hp hk ho he hown hb
  have hpasses := (readBackPasses_written (s := s.passedCheck a) (f := f) (by simp [hk])).2 ⟨hr, hst, hcrc, hws.trans hdata.symm⟩
  rw [readBack_passes ht hph ha hpasses hr, writeCounts_entry (s := s.passedCheck a) ho he (a := a.passed) rfl hk hown hb]
  rfl

/-- The run goes on with its next sector. -/
theorem countedBack_next (ho : OrdersLawful s) (hl : RepliesLawful s) (he : e ∈ s.work) (hend : a.sector + 1 < a.runEnd)
    (hv : s.volume.state = .mounted) (hun : Unstopped a s) :
    SameButReservations
      { s with
        work := s.work.map (fun x => if x.order = e.order then { x with writeBuffers := rest } else x)
        seq := retried (turned { a with done := a.done + 1 } (a.sector + 1)) (afterForce e.flags.force a { s.seq with mismatches := 0 }) }
      (settle (sectorEnds a.passed.readOne (withEntry { e with writeBuffers := rest } (countedBack e.flags.force a s)))) := by
  obtain ⟨hstop, hx⟩ := hun
  rw [sectorEnds_mid (a := a.passed.readOne) hend, midRun_turn (a := a.passed.readOne)
    (s := withEntry { e with writeBuffers := rest } (countedBack e.flags.force a s)) (nextStop_none hstop) hx rfl]
  have hwork : (withEntry { e with writeBuffers := rest } s).work =
      s.work.map (fun x => if x.order = e.order then { x with writeBuffers := rest } else x) :=
    congrArg State.work (updEntry_of_mem ho he (f := fun x => { x with writeBuffers := rest }) rfl).symm
  have hseq : ∀ b : Access, retried b (withEntry { e with writeBuffers := rest } (countedBack e.flags.force a s)).seq =
      retried b (afterForce e.flags.force a { s.seq with mismatches := 0 }) := fun b =>
    retried_sectorCounted e.flags.force b a.passed (some a.passed) { s.seq with mismatches := 0 }
  rw [hseq, ← hwork]
  exact settle_of_sameBut (sameBut_refl _) (repliesLawful_congr hl (fun _ => ⟨rfl, rfl⟩)) hv

/-! ## A label's write (R159, R161, R162) -/

theorem writeData_label (hp : a.pass = .readBack) (hk : a.kind = .labelWrite) (hc : s.ctlBuffer = .label l) :
    s.writeData a = (Config.labelWords l).toList := by
  rw [State.writeData, if_neg (by simp [hp, hk]), if_pos hk, hc]

theorem writeCounts_mapStore (hk : a.kind = .labelWrite) {n : Nat} (hown : a.owner = .entry n) (hc : s.ctlBuffer = .label l) :
    writeCounts a s = endEntry n .done (endAccess { s with
      volume := { s.volume with
        label := some .valid, serial := some l.serial, mapModified := a.mapLoadSeen && s.volume.mapModified } }) := by
  unfold writeCounts
  rw [hk]
  dsimp only
  rw [hown]
  dsimp only
  rw [mapStoreDone, hc]

/-- The state with a MAP-STORE's label written and its access ended. -/
def labelStored (a : Access) (l : Label) (s : State) : State :=
  { s with
    ctlBuffer := .free, seq := ended { s.seq with mismatches := 0 }
    volume := { s.volume with label := some .valid, serial := some l.serial, mapModified := a.mapLoadSeen && s.volume.mapModified } }

theorem writeCounts_store (hk : a.kind = .labelWrite) (hown : a.owner = .volume) : writeCounts a s = storeDone s := by
  unfold writeCounts
  rw [hk]
  dsimp only
  rw [hown]

theorem writeFails_store (hk : a.kind = .labelWrite) (hown : a.owner = .volume) (cause : DefectCause) :
    writeFails a cause s = storeEnds { s with seq := defectRecorded a cause s.clock s.seq } := by
  unfold writeFails
  rw [recordDefect_eq, hk]
  dsimp only
  rw [hown]

/-- The store of STORING ends, whatever its label write has left in the sequencer and the volume, and the step settles (R159, R160). -/
theorem settle_store (hl : RepliesLawful s) (q : Sequencer) (x : Option Access) (v : Volume) :
    SameButReservations
      { s with
        ctlBuffer := .free
        seq := { ended q with state := .stopping, accepted := false, seekTimer := none, restoreTimer := none, faultTimer := none }
        volume := { v with state := .releasing } }
      (settle (storeEnds { s with seq := { q with access := x }, volume := v })) :=
  settle_storeEnds (s := { s with seq := { q with access := x }, volume := v }) (repliesLawful_congr hl (fun _ => ⟨rfl, rfl⟩))

/-- The same with the label's write failed. -/
theorem settle_storeFails (hk : a.kind = .labelWrite) (hown : a.owner = .volume) (hl : RepliesLawful s) (cause : DefectCause) (q : Sequencer)
    (x : Option Access) :
    SameButReservations
      { s with
        ctlBuffer := .free
        seq := { ended (defectRecorded a cause s.clock q) with
          state := .stopping, accepted := false, seekTimer := none, restoreTimer := none, faultTimer := none }
        volume := { s.volume with state := .releasing } }
      (settle (writeFails a cause { s with seq := { q with access := x } })) := by
  rw [writeFails_store hk hown, defectRecorded_access cause s.clock x q]
  generalize defectRecorded a cause s.clock q = d
  exact settle_store hl d x s.volume

/-- Where no drain is to end and no STOP to issue, a step that keeps the law of R177 settles in place. -/
theorem settle_inPlace (hd : s.volume.state ≠ .draining) (hr : s.volume.state ≠ .releasing) (hl : RepliesLawful s) :
    SameButReservations s (settle s) := by
  have hsettled := settle_bare hd hr
  rwa [placeBoth_of_lawful hl] at hsettled

end Sys2Proof.Machine
end

section
/-! PROOFS. O50: READ_BACK_COMPLETE of a WRITE's run and of a label write (R128, R129, R159, R161). -/

namespace Sys2Proof.Proofs

open Sys2Proof.Machine Sys2Proof.Safety

/-- Settles O50, by whether the read-back shows what was written: for a WRITE's run by what waits at the sector's end, for a label by whose
write it is. -/
theorem readBackComplete : Obligations.ReadBackComplete := by
  refine ⟨fun h f a e ws rest s ht hph ha hp hk hown he hek hb ho hl => ?run, fun h f a l s ht hph ha hp hk hc ho hl => ?label⟩
  case run =>
    intro mounted good passed y u cause
    have hexec := fun hgood : good =>
      readBack_counts ht hph ha hp hk ho he hown hb hgood.1 hgood.2.1 hgood.2.2.1 hgood.2.2.2
    have hover := endAccess_countedBack e.flags.force a s
    have hlaws : OrdersLawful (countedBack e.flags.force a s) := ho
    have hreplies : RepliesLawful (countedBack e.flags.force a s) := hl
    have hmem : e ∈ (countedBack e.flags.force a s).work := he
    have hfails : ¬ good → ¬ readBackPasses a h f (s.checkedBy a h) = true := fun hno hpass => hno (by
      rw [readBackPasses_written (by simp [hk]), writeData_entry (s := s.checkedBy a h) hp hk ho he hown hb] at hpass
      exact hpass)
    refine ⟨fun hgood hend hm hun => ⟨_, hexec hgood, countedBack_next ho hl he hend hm hun⟩,
      fun hgood hend hmore hm hun => ⟨_, hexec hgood, ?_⟩,
      fun hgood hend hlast => ⟨fun hm => ⟨_, hexec hgood, ?_⟩, fun _ hdis hq => ⟨_, hexec hgood, ?_⟩⟩,
      fun hgood hmore => ⟨fun hm _ _ => ⟨_, hexec hgood, ?_⟩, fun hd => ⟨_, hexec hgood, ?_⟩⟩,
      fun hno hleft hm => ⟨_, readBack_again ht hph ha (hfails hno) hleft, ?_⟩, fun hno hlast hm => ?failed⟩
    case failed =>
      obtain ⟨x, hlastExec⟩ := readBack_lastFails ht hph ha (hfails hno) hlast
      exact ⟨_, hlastExec, settle_writeFails ho he hown hl hm (.inl hk) (sectorIndex_write ho he hown hek) cause (headerSeen a h s.seq) (some x)⟩
    · have hends := sectorEnds_atBoundary hlaws hreplies hmem (y := { e with writeBuffers := rest }) rfl hek (a := a.passed.readOne) hown
        hend hmore hm hun.1 hun.2
      rwa [hover] at hends
    · have hends := sectorEnds_done hlaws hreplies hmem (y := { e with writeBuffers := rest }) rfl hek (a := a.passed.readOne) hown
        hend hlast hm
      rwa [hover] at hends
    · exact sectorEnds_done_draining hlaws hreplies hmem (y := { e with writeBuffers := rest }) rfl hek (a := a.passed.readOne) hown
        hend hlast hdis hq
    · have hends := sectorEnds_stopped hlaws hreplies hmem (y := { e with writeBuffers := rest }) rfl hek (a := a.passed.readOne) hown hk
        hmore hm
      rwa [hover] at hends
    · obtain ⟨⟨hstop, hv, hx⟩, hprotect⟩ := hd
      have hends := sectorEnds_drained hlaws hreplies hmem (y := { e with writeBuffers := rest }) rfl hek (a := a.passed.readOne) hown
        hmore hstop hv hx (by rw [show (countedBack e.flags.force a s).ownerActive .protect = false from hprotect]; nofun)
      rwa [hover] at hends
    · exact settle_of_mounted (repliesLawful_congr hl (fun _ => ⟨rfl, rfl⟩)) hm
  case label =>
    intro good cause stopping
    have hkind : a.kind ≠ .clearStep := by simp [hk]
    have hpasses : good → readBackPasses a h f (s.passedCheck a) = true := fun hgood => by
      rw [readBackPasses_written hkind, writeData_label (s := s.passedCheck a) hp hk hc]
      exact hgood
    have hfails : ¬ good → ¬ readBackPasses a h f (s.checkedBy a h) = true := fun hno hpass => hno (by
      rw [readBackPasses_written hkind, writeData_label (s := s.checkedBy a h) hp hk hc] at hpass
      exact hpass)
    refine ⟨fun e he hown hek hm => ⟨fun hgood => ?_, fun hno hlast => ?_⟩, fun hown _ => ⟨fun hgood => ?_, fun hno hlast => ?_⟩,
      fun hno hleft hv => ⟨_, readBack_again ht hph ha (hfails hno) hleft, ?_⟩⟩
    · refine ⟨_, readBack_passes ht hph ha (hpasses hgood) hgood.1, ?_⟩
      rw [writeCounts_mapStore (s := s.passedCheck a) (a := a.passed) hk hown hc]
      have hstored := settle_endEntry_of_sameBut (s := labelStored a l s) (sameBut_refl _) ho hl hm he .done
      exact hstored
    · obtain ⟨x, hlastExec⟩ := readBack_lastFails ht hph ha (hfails hno) hlast
      exact ⟨_, hlastExec, settle_writeFails ho he hown hl hm (.inr hk) (sectorIndex_mapStore ho he hown hek) cause (headerSeen a h s.seq) (some x)⟩
    · refine ⟨_, readBack_passes ht hph ha (hpasses hgood) hgood.1, ?_⟩
      rw [writeCounts_store (a := a.passed) hk hown]
      exact settle_store hl { s.seq with mismatches := 0 } (some a.passed) { s.volume with label := some .valid, mapModified := false }
    · obtain ⟨x, hlastExec⟩ := readBack_lastFails ht hph ha (hfails hno) hlast
      exact ⟨_, hlastExec, settle_storeFails hk hown hl cause (headerSeen a h s.seq) (some x)⟩
    · refine settle_inPlace (s := { s with seq := _ }) ?_ ?_ hl
      · rcases hv with hv | hv <;> simp [hv]
      · rcases hv with hv | hv <;> simp [hv]

end Sys2Proof.Proofs
end

section
/-! PROOFS. The end of a sweep's step in a MOUNTED volume (R167, R169 to R173), in the words of the claims: the sweep that goes on, the item that
has its result, the stop that is taken. -/

namespace Sys2Proof.Machine

open Sys2Proof.Safety

variable {s u v : State} {sw w : Sweep} {i m : Nat} {it : SweepItem} {c : Instr} {r : SweepResult} {cause : StopCause} {k : Slot}

/-- A command leaves a state, reservations apart. -/
def Comes (c : Instr) (s u : State) : Prop := ∃ t, exec c s = .next t ∧ SameButReservations u t

/-! ## A sweep stopped -/

/-- A sweep ended by a halt, or by PROTECT. -/
def stoppedSweep : StopCause → Sweep → State → State
  | .protect => sweepProtected
  | _ => sweepHalted

theorem settle_stoppedSweep (hcause : cause ≠ .departure) (hsw : s.sweep = some sw) (hl : RepliesLawful s) (hv : s.volume.state = .mounted) :
    SameButReservations (stoppedSweep cause sw s) (settle (endSweep (some cause) s)) := by
  cases cause with
  | halt => exact settle_sweepHalted hsw hl hv
  | protect => exact settle_sweepProtected hsw hl hv
  | departure => exact absurd rfl hcause

/-- A sweep whose items differ in no result, slot or place: what its end reports is the same. -/
structure SameResults (sw w : Sweep) : Prop where
  eq : w = { sw with items := w.items, sector := w.sector }
  items : w.items.map (fun x => (x.slot, x.result)) = sw.items.map (fun x => (x.slot, x.result))

theorem SameResults.refl (sw : Sweep) : SameResults sw sw := ⟨rfl, rfl⟩

theorem SameResults.length (h : SameResults sw w) : w.items.length = sw.items.length := by
  simpa using congrArg List.length h.items

theorem mapIdx_results (g : Nat → Option SweepResult → SweepResult) (l : List SweepItem) :
    l.mapIdx (fun i x => (x.slot, g i x.result)) = (l.map (fun x => (x.slot, x.result))).mapIdx (fun i p => (p.1, g i p.2)) := by
  apply List.ext_getElem?
  intro j
  simp only [List.getElem?_mapIdx, List.getElem?_map, Option.map_map]
  rfl

theorem any_slot (k : Slot) (l : List SweepItem) :
    l.any (fun x => decide (x.slot = k)) = (l.map (fun x => (x.slot, x.result))).any (fun p => decide (p.1 = k)) := by
  rw [List.any_map]
  rfl

/-- What the end of a sweep leaves looks at its items' slots and results alone. -/
theorem sweepOver_same (h : SameResults sw w) (outcome : Code) (g : Nat → Option SweepResult → SweepResult) (s : State) (x : Option Sweep) :
    sweepOver w outcome (fun i y => g i y.result) { s with sweep := x } = sweepOver sw outcome (fun i y => g i y.result) s := by
  have hitems : w.items.mapIdx (fun i x => (x.slot, g i x.result)) = sw.items.mapIdx (fun i x => (x.slot, g i x.result)) := by
    rw [mapIdx_results, mapIdx_results, h.items]
  have hany : ∀ k : Slot, w.items.any (fun y => decide (y.slot = k)) = sw.items.any (fun y => decide (y.slot = k)) := fun k => by
    rw [any_slot, any_slot, h.items]
  have heq := h.eq
  unfold sweepOver
  simp only [hitems, hany]
  rw [heq]

theorem stoppedSweep_same (h : SameResults sw w) (cause : StopCause) (s : State) (x : Option Sweep) :
    stoppedSweep cause w { s with sweep := x } = stoppedSweep cause sw s := by
  have hcurrent : w.current = sw.current := by rw [h.eq]
  have hhalted := sweepOver_same h .done (fun _ y => y.getD .partly) s x
  have hprotected := sweepOver_same h .writeProtected (fun i y => y.getD (if i = sw.current.getD 0 then .prot else .partly)) s x
  cases cause with
  | protect =>
    show sweepProtected w _ = sweepProtected sw s
    unfold sweepProtected
    rw [hcurrent]
    exact hprotected
  | halt => exact hhalted
  | departure => exact hhalted

theorem itemDone_sweep (w : Sweep) (i : Nat) (r : SweepResult) (s : State) (x : Option Sweep) :
    itemDone w i r { s with sweep := x } = itemDone w i r s := by
  unfold itemDone
  split <;> rfl

/-! ## A step that has ended -/

theorem updCurrent_eq (hi : sw.current = some i) (f : SweepItem → SweepItem) : sw.updCurrent f = { sw with items := sw.items.modify i f } := by
  rw [Sweep.updCurrent, hi]

/-- Where a step has ended in a command: the sweep as it then stands, and the sweep whose results it has. -/
structure StepOver (sw w : Sweep) (i : Nat) (v : State) : Prop where
  sweep : v.sweep = some w
  current : sw.current = some i
  within : i < sw.items.length
  same : SameResults sw w
  replies : RepliesLawful v
  mounted : v.volume.state = .mounted

theorem StepOver.stands (h : StepOver sw w i v) : w.cause = sw.cause ∧ w.current = some i := by
  rw [h.same.eq]
  exact ⟨rfl, h.current⟩

section Ended

variable (h : StepOver sw w i v)

include h

/-- With no stop waiting and no result yet the sweep stands as the step has left it. -/
theorem StepOver.goesOn (hc : sw.cause = none) : SameButReservations v (settle (stepEnded none v)) := by
  have hnone : stepEnded none v = v := by simp [stepEnded, h.sweep, h.stands.1, hc]
  rw [hnone]
  exact settle_of_mounted h.replies h.mounted

theorem StepOver.result (hc : sw.cause = none) (r : SweepResult) : SameButReservations (itemDone w i r v) (settle (stepEnded (some r) v)) := by
  have hgiven : stepEnded (some r) v = giveResult r v := by simp [stepEnded, h.sweep, h.stands.1, hc]
  rw [hgiven]
  exact settle_giveResult h.sweep h.stands.2 h.replies h.mounted r

theorem StepOver.stopped (hcause : cause ≠ .departure) (hc : sw.cause = some cause) {o : Option SweepResult}
    (hnot : o = none ∨ i + 1 ≠ sw.items.length) : SameButReservations (stoppedSweep cause sw v) (settle (stepEnded o v)) := by
  have hstops : stepEnded o v = endSweep (some cause) v := by
    have hlast : o ≠ none → w.current ≠ some (w.items.length - 1) := by
      intro ho hw
      rw [h.stands.2, h.same.length] at hw
      have hlen := hnot.resolve_left ho
      have heq := Option.some.inj hw
      have hlt := h.within
      omega
    unfold stepEnded stopAfterStep
    simp only [h.sweep, h.stands.1, hc, Option.isSome_some, if_true]
    cases o with
    | none => rfl
    | some r => exact if_neg (hlast nofun)
  have hsame := stoppedSweep_same h.same cause v (some w)
  rw [show { v with sweep := some w } = v by rw [← h.sweep]] at hsame
  rw [hstops, ← hsame]
  exact settle_stoppedSweep hcause h.sweep h.replies h.mounted

/-- The last step of the last item: its result stands. -/
theorem StepOver.stoppedLast (hcause : cause ≠ .departure) (hc : sw.cause = some cause) (hlast : i + 1 = sw.items.length) (r : SweepResult) :
    SameButReservations (stoppedSweep cause (w.resulted i r) v) (settle (stepEnded (some r) v)) := by
  have hend : w.current = some (w.items.length - 1) := by
    rw [h.stands.2, h.same.length, ← hlast]
    rfl
  have hstops : stepEnded (some r) v = endSweep (some cause) { v with sweep := some (w.resulted i r) } := by
    unfold stepEnded stopAfterStep
    simp only [h.sweep, h.stands.1, hc, Option.isSome_some, if_true, hend]
    rw [updCurrent_eq h.stands.2]
    rfl
  rw [hstops, ← stoppedSweep_same (.refl _) cause v (some (w.resulted i r))]
  exact settle_stoppedSweep hcause rfl h.replies h.mounted

end Ended

end Sys2Proof.Machine
end

section
/-! PROOFS. Clearing and scanning steps, done and failed (R169, R170), each with what its end leads to. -/

namespace Sys2Proof.Machine

open Sys2Proof.Safety

variable {s u v : State} {sw w : Sweep} {i m size : Nat} {it : SweepItem} {c : Instr} {r : SweepResult} {cause : StopCause} {k : Slot}

/-! ## The sweep as a step leaves it -/

/-- The sweep with a failed item. -/
def Sweep.failing (sw : Sweep) (i : Nat) : Sweep := { sw with items := sw.items.modify i (fun x => { x with failed := true }) }

theorem sameResults_failing (sw : Sweep) (i : Nat) : SameResults sw (sw.failing i) := by
  refine ⟨rfl, List.ext_getElem? fun j => ?_⟩
  simp only [Sweep.failing, List.getElem?_map, List.getElem?_modify]
  cases sw.items[j]? with
  | none => rfl
  | some x =>
    by_cases hij : i = j
    · simp [hij]
    · simp [hij]

theorem SameResults.sector (h : SameResults sw w) (o : Option Nat) : SameResults sw { w with sector := o } where
  eq := by
    have heq := h.eq
    rw [heq]
  items := h.items

/-- The state of a step that is over, its sweep standing as before the step. -/
structure SweepAt (sw : Sweep) (i : Nat) (it : SweepItem) (u : State) : Prop where
  sweep : u.sweep = some sw
  current : sw.current = some i
  item : sw.items[i]? = some it
  replies : RepliesLawful u
  mounted : u.volume.state = .mounted

section At

variable (h : SweepAt sw i it u)

include h

theorem SweepAt.within : i < sw.items.length := (List.getElem?_eq_some_iff.1 h.item).1

theorem SweepAt.stepOver (hsame : SameResults sw w) : StepOver sw w i { u with sweep := some w } :=
  ⟨rfl, h.current, h.within, hsame, h.replies, h.mounted⟩

theorem SweepAt.updFill (k : Slot) (f : Fill → Fill) : SweepAt sw i it (updFill k f u) := ⟨h.sweep, h.current, h.item, h.replies, h.mounted⟩

theorem SweepAt.self : { u with sweep := some sw } = u := by rw [← h.sweep]

theorem SweepAt.failItem : failItem u = { u with sweep := some (sw.failing i) } := by
  unfold Machine.failItem
  rw [h.sweep, Option.map_some, updCurrent_eq h.current]
  rfl

theorem SweepAt.passResult : u.passResult = it.passResult := by
  simp [State.passResult, h.sweep, Sweep.currentItem, h.current, h.item]

theorem SweepAt.passResult_failing : State.passResult { u with sweep := some (sw.failing i) } = .failedSectors := by
  simp [State.passResult, Sweep.currentItem, Sweep.failing, h.current, h.item, SweepItem.passResult]

end At

theorem setSweepSector_eq (m : Nat) (w : Sweep) (u : State) :
    setSweepSector m { u with sweep := some w } = { u with sweep := some { w with sector := some m } } := rfl

/-! ## What a step's end comes to -/

/-- The ways a step of a sweep ends: `ends` says that its item's pass is complete, with result `r`, `w` and `w'` are the sweep as the step
leaves it then and otherwise. -/
theorem comes_stepEnded {ends : Prop} {w w' : Sweep} (h : SweepAt sw i it v) (hw : SameResults sw w) (hw' : SameResults sw w')
    (hfin : ends → exec c s = .next (settle (stepEnded (some r) { v with sweep := some w })))
    (hun : ¬ ends → exec c s = .next (settle (stepEnded none { v with sweep := some w' }))) :
    (sw.cause = none → ¬ ends → Comes c s { v with sweep := some w' })
      ∧ (sw.cause = none → ends → Comes c s (itemDone w i r v))
      ∧ ∀ cause, cause ≠ .departure → sw.cause = some cause →
        (¬ (ends ∧ i + 1 = sw.items.length) → Comes c s (stoppedSweep cause sw v))
          ∧ (ends ∧ i + 1 = sw.items.length → Comes c s (stoppedSweep cause (w.resulted i r) v)) := by
  have hover := h.stepOver hw
  have hover' := h.stepOver hw'
  refine ⟨fun hc hno => ⟨_, hun hno, hover'.goesOn hc⟩, fun hc hends => ⟨_, hfin hends, ?_⟩,
    fun cause hcause hc => ⟨fun hnot => ?_, fun ⟨hends, hlast⟩ => ⟨_, hfin hends, ?_⟩⟩⟩
  · rw [← itemDone_sweep w i r v (some w)]
    exact hover.result hc r
  · by_cases hends : ends
    · refine ⟨_, hfin hends, ?_⟩
      rw [← stoppedSweep_same (.refl sw) cause v (some w)]
      exact hover.stopped hcause hc (.inr fun hlast => hnot ⟨hends, hlast⟩)
    · refine ⟨_, hun hends, ?_⟩
      rw [← stoppedSweep_same (.refl sw) cause v (some w')]
      exact hover'.stopped hcause hc (.inl rfl)
  · rw [← stoppedSweep_same (.refl (w.resulted i r)) cause v (some w)]
    exact hover.stoppedLast hcause hc hlast r

/-! ## Clearing and scanning steps (R169, R170) -/

section Steps

variable (h : SweepAt sw i it u)

include h

theorem clearingStepDone_complete (hm : m = 0) : clearingStepDone k m u = stepEnded (some it.passResult)
    { updFill k (fun f => { f with mark := 0, state := .known }) u with sweep := some sw } := by
  have hv := h.updFill k (fun f => { f with mark := 0, state := .known })
  rw [clearingStepDone, if_pos hm, hv.self]
  exact congrArg (fun r => stepEnded (some r) (passComplete k u)) hv.passResult

theorem clearingStepDone_below (hm : m ≠ 0) :
    clearingStepDone k m u = stepEnded none { u with sweep := some { sw with sector := some (m - 1) } } := by
  rw [clearingStepDone, if_neg hm, ← setSweepSector_eq, h.self]

theorem clearingStepFailed_append {f : Fill} (hf : u.fill k = some f) : clearingStepFailed k m u = stepEnded (some .failedSectors)
    { updFill k (fun f => { f with mark := m + 1 }) u with sweep := some (sw.failing i) } := by
  have hfill : State.fill { u with sweep := some (sw.failing i) } k = some f := hf
  rw [clearingStepFailed, h.failItem, hfill]
  rfl

theorem clearingStepFailed_last (hf : u.fill k = none) (hm : m = 0) :
    clearingStepFailed k m u = stepEnded (some .failedSectors) { u with sweep := some (sw.failing i) } := by
  have hfill : State.fill { u with sweep := some (sw.failing i) } k = none := hf
  rw [clearingStepFailed, h.failItem, hfill]
  exact if_pos hm

theorem clearingStepFailed_below (hf : u.fill k = none) (hm : m ≠ 0) :
    clearingStepFailed k m u = stepEnded none { u with sweep := some { sw.failing i with sector := some (m - 1) } } := by
  have hfill : State.fill { u with sweep := some (sw.failing i) } k = none := hf
  rw [clearingStepFailed, h.failItem, hfill]
  exact if_neg hm

theorem comes_cleared (hexec : exec c s = .next (settle (clearingStepDone k m u))) :
    let v := if m = 0 then updFill k (fun f => { f with mark := 0, state := .known }) u else u
    (sw.cause = none → m ≠ 0 → Comes c s { u with sweep := some { sw with sector := some (m - 1) } })
      ∧ (sw.cause = none → m = 0 → Comes c s (itemDone sw i it.passResult v))
      ∧ ∀ cause, cause ≠ .departure → sw.cause = some cause →
        (¬ (m = 0 ∧ i + 1 = sw.items.length) → Comes c s (stoppedSweep cause sw v))
          ∧ (m = 0 ∧ i + 1 = sw.items.length → Comes c s (stoppedSweep cause (sw.resulted i it.passResult) v)) := by
  by_cases hm : m = 0
  · have hv := h.updFill k (fun f => { f with mark := 0, state := .known })
    rw [clearingStepDone_complete h hm] at hexec
    rw [if_pos hm]
    obtain ⟨-, hnext, hstop⟩ := comes_stepEnded hv (.refl sw) (.refl sw) (fun _ => hexec) fun hno => absurd hm hno
    exact ⟨fun _ hne => absurd hm hne, hnext, hstop⟩
  · rw [clearingStepDone_below h hm] at hexec
    rw [if_neg hm]
    exact comes_stepEnded h (.refl sw) ((SameResults.refl sw).sector _) (fun hz => absurd hz hm) fun _ => hexec

theorem comes_uncleared {o : Option Fill} (ho : u.fill k = o) (hexec : exec c s = .next (settle (clearingStepFailed k m u))) :
    let v := if o.isSome = true then updFill k (fun f => { f with mark := m + 1 }) u else u
    let ends : Prop := o.isSome = true ∨ m = 0
    (sw.cause = none → ¬ ends → Comes c s { u with sweep := some { sw.failing i with sector := some (m - 1) } })
      ∧ (sw.cause = none → ends → Comes c s (itemDone (sw.failing i) i .failedSectors v))
      ∧ ∀ cause, cause ≠ .departure → sw.cause = some cause →
        (¬ (ends ∧ i + 1 = sw.items.length) → Comes c s (stoppedSweep cause sw v))
          ∧ (ends ∧ i + 1 = sw.items.length → Comes c s (stoppedSweep cause ((sw.failing i).resulted i .failedSectors) v)) := by
  have hsame := sameResults_failing sw i
  intro v ends
  cases o with
  | some f =>
    have hends : ends := .inl rfl
    have hv := h.updFill k (fun f => { f with mark := m + 1 })
    rw [clearingStepFailed_append h ho] at hexec
    obtain ⟨-, hnext, hstop⟩ := comes_stepEnded (ends := ends) hv hsame hsame (fun _ => hexec) fun hno => absurd hends hno
    exact ⟨fun _ hno => absurd hends hno, hnext, hstop⟩
  | none =>
    refine comes_stepEnded h hsame (hsame.sector _) (fun hends => ?_) fun hno => ?_
    · rw [hexec, clearingStepFailed_last h ho (hends.resolve_left nofun)]
    · rw [hexec, clearingStepFailed_below h ho fun hm => hno (.inr hm)]

/-- A scanning step, `failed` or not, within its extent. -/
theorem comes_scanned {failed : Bool} (hm : m + 1 ≤ size) (hexec : exec c s = .next (settle (scanningStepEnded m size failed u))) :
    let w := if failed = true then sw.failing i else sw
    let r := if failed = true then SweepResult.failedSectors else it.passResult
    (sw.cause = none → m + 1 < size → Comes c s { u with sweep := some { w with sector := some (m + 1) } })
      ∧ (sw.cause = none → m + 1 = size → Comes c s (itemDone w i r u))
      ∧ ∀ cause, cause ≠ .departure → sw.cause = some cause →
        (¬ (m + 1 = size ∧ i + 1 = sw.items.length) → Comes c s (stoppedSweep cause sw u))
          ∧ (m + 1 = size ∧ i + 1 = sw.items.length → Comes c s (stoppedSweep cause (w.resulted i r) u)) := by
  intro w r
  have hsame : SameResults sw w := by
    show SameResults sw (if failed = true then sw.failing i else sw)
    split
    · exact sameResults_failing sw i
    · exact .refl sw
  have hitem : (if failed = true then failItem u else u) = { u with sweep := some w } := by
    cases failed with
    | true => exact h.failItem
    | false => exact h.self.symm
  have hresult : State.passResult { u with sweep := some w } = r := by
    cases failed with
    | true => exact h.passResult_failing
    | false =>
      exact (congrArg State.passResult h.self).trans h.passResult
  have hended : scanningStepEnded m size failed u = if m + 1 < size then stepEnded none { u with sweep := some { w with sector := some (m + 1) } }
      else stepEnded (some r) { u with sweep := some w } := by
    unfold scanningStepEnded
    dsimp only
    rw [hitem, hresult]
    rfl
  rw [hended] at hexec
  have hcomes := comes_stepEnded (ends := m + 1 = size) h hsame (hsame.sector (some (m + 1)))
    (fun hends => by rw [hexec, if_neg (by omega)]) fun hno => by rw [hexec, if_pos (by omega)]
  exact ⟨fun hc hlt => hcomes.1 hc (by omega), hcomes.2⟩

end Steps

end Sys2Proof.Machine
end

section
/-! PROOFS. What the commands of the drive come to at the end of a sweep's step (R124, R125, R127, R128, R129, R169). -/

namespace Sys2Proof.Machine

open Sys2Proof.Safety

variable {s : State} {a : Access} {h : HeaderImage} {f : FieldImage} {k : Slot}

/-- The state with the access of a step ended. -/
def stepLeft (q : Sequencer) (s : State) : State := { s with ctlBuffer := .free, seq := ended q }

/-! ## Clearing steps -/

section Clear

variable (hk : a.kind = .clearStep) (hslot : a.slot = some k)

include hk hslot

theorem writeCounts_clear (s : State) : writeCounts a s = clearingStepDone k a.sector (stepLeft (defectRemoved a s.seq) s) := by
  unfold writeCounts
  rw [hk]
  dsimp only
  rw [removeDefect_eq, withSlot, hslot]
  rfl

theorem writeFails_clear (cause : DefectCause) (q : Sequencer) (x : Option Access) (s : State) :
    writeFails a cause { s with seq := { q with access := x } } =
      clearingStepFailed k a.sector (stepLeft (defectRecorded a cause s.clock q) s) := by
  have hleft : endAccess { s with seq := defectRecorded a cause s.clock { q with access := x } } =
      stepLeft (defectRecorded a cause s.clock q) s := by
    rw [stepLeft, ← ended_defectRecorded cause s.clock x q]
    rfl
  unfold writeFails
  rw [recordDefect_eq, hk]
  dsimp only
  rw [withSlot, hslot]
  exact congrArg (clearingStepFailed k a.sector) hleft

variable (ht : s.seq.state = .transferring) (ha : s.seq.access = some a)

include ht ha

/-- DATA_PHASE_COMPLETE of a clearing step without verify: the sector stands BLANK over zeros. -/
theorem dataPhase_clears (hph : s.seq.phase = .data) (hp : a.pass = .work) (hv : a.verify = false) (hplace : placeOf a < 7680) :
    exec .dataPhaseComplete s = .next (settle (clearingStepDone k a.sector
      { stepLeft (defectRemoved a { s.seq with gate := false, phase := .none }) s with
        medium := mediumSet (placeOf a)
          { header := .whole (headerOn (placeOf a) .blank), data := .whole (List.replicate 256 0) (crc (List.replicate 256 0)) }
          s.medium })) := by
  have hwords : s.writeData a = List.replicate 256 0 := by
    rw [State.writeData, if_pos (.inr hk)]
    exact zeroSector_toList
  have hhead : a.headerWritten = .blank := by rw [Access.headerWritten, if_neg (by simp [hp]), if_pos hk]
  have hput : ∀ st d, putData a.address st d s =
      { s with medium := mediumSet (placeOf a) { header := .whole (headerOn (placeOf a) st), data := d } s.medium } :=
    fun _ _ => if_pos hplace
  show execDataPhaseComplete s = _
  rw [execDataPhaseComplete, inPhase_eq ht hph ha]
  dsimp only
  rw [afterData, if_neg (by simp [hp]), if_neg (by simp [hv]),
    writeCounts_clear (a := { a with checkPassed := true, tornResume := false }) hk hslot, dataWritten, hwords, hhead, hput]
  rfl

theorem readBack_clears (hph : s.seq.phase = .readBack) (hr : AddressRight a h) (hst : h.state = .blank) :
    exec (.readBackComplete h f) s =
      .next (settle (clearingStepDone k a.sector (stepLeft (defectRemoved a { s.seq with mismatches := 0 }) s))) := by
  rw [readBack_passes ht hph ha ((readBackPasses_blank hk).2 ⟨hr, hst⟩) hr, writeCounts_clear (a := a.passed) hk hslot]
  rfl

theorem readBack_clearFails (hph : s.seq.phase = .readBack) (hno : ¬ (AddressRight a h ∧ h.state = .blank))
    (hlast : s.writeRetries a ≤ a.failed) :
    exec (.readBackComplete h f) s = .next (settle (clearingStepFailed k a.sector
      (stepLeft (defectRecorded a (if a.further = true then .header else .write) s.clock (headerSeen a h s.seq)) s))) := by
  obtain ⟨x, hexec⟩ := readBack_lastFails (f := f) ht hph ha (fun hpass => hno ((readBackPasses_blank hk).1 hpass)) hlast
  rw [hexec, writeFails_clear hk hslot]

theorem headerRead_clearFails (hph : s.seq.phase = .headerCheck) (hp : a.pass = .work) (hfurther : a.further = true)
    (hlast : s.writeRetries a ≤ a.failed) (hwrong : AddressWrong a h) :
    exec (.headerReadComplete h) s =
      .next (settle (clearingStepFailed k a.sector (stepLeft (defectRecorded a .header s.clock (headerSeen a h s.seq)) s))) := by
  have hwrites : a.kind.writes = true := by rw [hk]; rfl
  rw [headerRead_fails ht hph ha hp (not_right_of_wrong hwrong) (.inl hwrong),
    checkFails_writeFails (s := { s with seq := headerSeen a h s.seq }) hp hwrites hfurther hlast,
    countFailure_eq (s := { s with seq := headerSeen a h s.seq }) false ha, writeFails_clear hk hslot]
  rfl

end Clear

/-! ## Scanning steps -/

section Scan

variable (hk : a.kind = .scanStep)

include hk

theorem sectorRead_scan (ws : List Word) (o : Option Condition) (s : State) :
    sectorRead a ws o s = scanningStepEnded a.sector a.size false (endAccess s) := by
  unfold sectorRead
  rw [hk]

theorem readAttemptFails_scan (hlast : s.readRetries a ≤ a.failed) (cause : DefectCause) :
    readAttemptFails a cause s = scanningStepEnded a.sector a.size true (stepLeft (defectRecorded a cause s.clock s.seq) s) := by
  have hmount : s.mountWasCut a = false := mountWasCut_false (by simp [hk])
  rw [readAttemptFails, hmount, if_neg (by simp), if_neg (by omega), readFails, recordDefect_eq, hk]
  rfl

variable (ht : s.seq.state = .transferring) (ha : s.seq.access = some a) (hp : a.pass = .work)

include ht ha

theorem dataRead_scans (hph : s.seq.phase = .dataRead) (hf : f.check = crc f.data.toList) :
    exec (.dataReadComplete f) s = .next (settle (scanningStepEnded a.sector a.size false (stepLeft s.seq s))) := by
  have hgood : goodField a f s = scanningStepEnded a.sector a.size false (stepLeft s.seq s) := by
    unfold goodField
    rw [hk]
    exact sectorRead_scan hk ..
  rw [dataReadComplete_eq ht hph ha, if_pos hf, hgood]

theorem dataRead_scanFails (hph : s.seq.phase = .dataRead) (hf : f.check ≠ crc f.data.toList) (hlast : s.readRetries a ≤ a.failed) :
    exec (.dataReadComplete f) s =
      .next (settle (scanningStepEnded a.sector a.size true (stepLeft (defectRecorded a .read s.clock s.seq) s))) := by
  rw [dataReadComplete_eq ht hph ha, if_neg hf, readAttemptFails_scan hk hlast]

include hp

theorem headerRead_scans (hph : s.seq.phase = .headerCheck) (hr : AddressRight a h) (hst : h.state ≠ .written) :
    exec (.headerReadComplete h) s =
      .next (settle (scanningStepEnded a.sector a.size false (stepLeft { s.seq with mismatches := 0 } s))) := by
  rw [headerRead_unwritten ht hph ha hp (.inr hk) hr hst, sectorRead_scan (a := a.passed) hk]
  rfl

theorem headerRead_scanFails (hph : s.seq.phase = .headerCheck) (hr : ¬ AddressRight a h) (hlast : s.readRetries a ≤ a.failed) :
    exec (.headerReadComplete h) s =
      .next (settle (scanningStepEnded a.sector a.size true (stepLeft (defectRecorded a .header s.clock (headerSeen a h s.seq)) s))) := by
  have hreads : a.kind.writes = false := by simp [hk, AccessKind.writes]
  rw [headerReadComplete_eq ht hph ha, noteCheck_not_right hr, headerChecked_not_right hr hp hreads,
    readAttemptFails_scan (s := { s with seq := headerSeen a h s.seq }) hk hlast]
  rfl

end Scan

end Sys2Proof.Machine
end

section
/-! PROOFS. A sweep's step cut by FAULT, or a clearing step by POWER in IMMEDIATE mode (R23, R133, R140, R145). -/

namespace Sys2Proof.Machine

open Sys2Proof.Safety

variable {s b : State} {a : Access} {sw : Sweep} {k : Slot} {rest : List ShutdownMode} {early : Nat}

/-- With no stop waiting a step that was not made leaves the sweep where it stood. -/
theorem stepUnmade_running (hsw : s.sweep = some sw) (hc : sw.cause = none) : stepUnmade s = s := by
  simp [stepUnmade, stepEnded, hsw, hc]

/-- The state as a step's cut leaves it, the fill state apart. -/
def stepCut (s : State) : State := endAccess { s with medium := cutMedium s }

section Cut

variable (hslot : a.slot = some k) (hsw : b.sweep = some sw) (hc : sw.cause = none)

include hslot in
theorem powerCut_clear (hk : a.kind = .clearStep) :
    powerCut a b = stepUnmade (endAccess (clearCut a.sector k { b with medium := cutMedium b })) := by
  simp only [powerCut, hk, withSlot, hslot, tear_eq]

theorem faultCut_clear (hk : a.kind = .clearStep) : faultCut a b = powerCut a b := by
  simp only [faultCut, powerCut, hk]

include hsw hc

theorem faultCut_scan (hk : a.kind = .scanStep) : faultCut a b = stepCut b := by
  have hcut : faultCut a b = stepUnmade (stepCut b) := by
    simp only [faultCut, hk, tear_eq, stepCut]
  rw [hcut]
  exact stepUnmade_running hsw hc

include hslot

/-- A clearing step cut off the sector at fill mark - 1 of a KNOWN extent. -/
theorem powerCut_elsewhere (hk : a.kind = .clearStep) (hnot : ¬ (b.fill k).map (fun f => (f.state, f.mark)) = some (.known, a.sector + 1)) :
    powerCut a b = stepCut b := by
  have hclear : clearCut a.sector k { b with medium := cutMedium b } = { b with medium := cutMedium b } := by
    rw [clearCut_eq]
    exact if_neg hnot
  rw [powerCut_clear hslot hk, hclear]
  exact stepUnmade_running hsw hc

/-- A clearing step cut on that sector, with no APPEND on its extent (R23). -/
theorem powerCut_atMark (hk : a.kind = .clearStep) (hknown : (b.fill k).map (fun f => (f.state, f.mark)) = some (.known, a.sector + 1))
    (hwork : ∀ e ∈ b.work, ¬ (e.kind = .append ∧ e.slot = some k)) (hposted : ∀ p ∈ b.posted, ¬ (p.kind = .append ∧ p.slot = k)) :
    powerCut a b = updFill k (fun f => { f with state := .unknown }) (stepCut b) := by
  have hclear : clearCut a.sector k { b with medium := cutMedium b } =
      updFill k (fun f => { f with state := .unknown }) { b with medium := cutMedium b } := by
    rw [clearCut_eq, ← fillBecomesUnknown_alone (s := { b with medium := cutMedium b }) hwork hposted]
    exact if_pos hknown
  rw [powerCut_clear hslot hk, hclear]
  exact stepUnmade_running hsw hc

end Cut

/-! ## The commands that cut it -/

/-- The sequencer takes POWER in IMMEDIATE mode. -/
theorem takeBeginning_immediate
    (hmode : (s.powerOwed = .immediate :: rest ∧ early = s.powerEarly)
      ∨ (s.powerOwed = [] ∧ rest = [] ∧ s.settings.powerMode = .immediate ∧ early = s.powerEarly + 1)) :
    s.shutdownMode = .immediate ∧ takeBeginning s = { s with powerTaken := some .immediate, powerOwed := rest, powerEarly := early } := by
  rcases hmode with ⟨howed, rfl⟩ | ⟨howed, rfl, hset, rfl⟩
  · simp [takeBeginning, State.shutdownMode, howed]
  · simp [takeBeginning, State.shutdownMode, howed, hset]

/-- POWER_ACTIVE in IMMEDIATE mode cuts a write that no command holds up. -/
theorem powerActive_cuts (hp : s.ownerActive .power = false)
    (hmode : (s.powerOwed = .immediate :: rest ∧ early = s.powerEarly)
      ∨ (s.powerOwed = [] ∧ rest = [] ∧ s.settings.powerMode = .immediate ∧ early = s.powerEarly + 1))
    (hout : s.commandOutstanding = false) (ha : s.seq.access = some a) (hw : a.kind.writes = true) :
    exec .powerActive (takenBy .owner s) =
      .next (settle (updSeq (fun q => { q with gate := false }) (powerCut a (powerTakenNow rest early s)))) := by
  obtain ⟨himmediate, htake⟩ := takeBeginning_immediate (s := actedOn .power true s) hmode
  have hcut : onWriteAccess askCut (powerTakenNow rest early s) = powerCut a (powerTakenNow rest early s) := by
    unfold onWriteAccess
    rw [show (powerTakenNow rest early s).seq.access = some a from ha]
    dsimp only
    rw [if_pos hw, askCut]
    exact if_neg (by rw [show (powerTakenNow rest early s).commandOutstanding = false from hout]; nofun)
  show execPowerActive _ = _
  rw [execPowerActive, lineChange_owner, ownerTakes_change (by simp [hp])]
  unfold shutDown
  dsimp only
  rw [himmediate, htake]
  exact congrArg (fun t => Host.Outcome.next (settle (updSeq (fun q => { q with gate := false }) t))) hcut

theorem stopNow_cut (h : a.stops = [.cut]) : a.stopNow = some .cut := by
  unfold Access.stopNow Access.nextStop Access.protectFirst
  split <;> simp [h]

/-- A cut that waited for its command is made as the command ends (R133). -/
theorem seekDone_cuts (hout : s.seq.state = .seeking ∨ s.seq.state = .restoring) (haccepted : s.seq.accepted = true)
    (ha : s.seq.access = some a) (hk : a.kind = .clearStep) (hstops : a.stops = [.cut]) :
    exec .seekDone s = .next (settle (powerCut a (updSeq Sequencer.arrived s))) := by
  have hstop : (updSeq Sequencer.arrived s).stopAtCommandEnd a = some (powerCut a (updSeq Sequencer.arrived s)) := by
    rw [State.stopAtCommandEnd, mountWasCut_false (by simp [hk]), stopNow_cut hstops]
    rfl
  exact seekDone_stopped hout haccepted ha hstop

end Sys2Proof.Machine
end

section
/-! PROOFS. O51: the end of a sweep's step, and the step cut. -/

namespace Sys2Proof.Machine

open Sys2Proof.Safety

variable {s b : State} {a : Access} {sw : Sweep} {k : Slot} {c : Instr} {G : State → State}

/-- What a cut of a sweep's step leaves, where the command settles after it. -/
theorem comes_stepCut (hexec : exec c s = .next (settle (G (powerCut a b)))) (hk : a.kind = .clearStep) (hslot : a.slot = some k)
    (hsw : b.sweep = some sw) (hc : sw.cause = none) (hG : ∀ t : State, RepliesLawful t → t.volume.state = .mounted →
      RepliesLawful (G t) ∧ (G t).volume.state = .mounted) (hl : RepliesLawful b) (hv : b.volume.state = .mounted) :
    (¬ (b.fill k).map (fun f => (f.state, f.mark)) = some (.known, a.sector + 1) → Comes c s (G (stepCut b)))
      ∧ ((b.fill k).map (fun f => (f.state, f.mark)) = some (.known, a.sector + 1) →
          (∀ e ∈ b.work, ¬ (e.kind = .append ∧ e.slot = some k)) ∧ (∀ p ∈ b.posted, ¬ (p.kind = .append ∧ p.slot = k)) →
          Comes c s (G (updFill k (fun f => { f with state := .unknown }) (stepCut b)))) := by
  refine ⟨fun hnot => ⟨_, hexec, ?_⟩, fun hknown halone => ⟨_, hexec, ?_⟩⟩
  · obtain ⟨hl', hv'⟩ := hG (stepCut b) hl hv
    rw [powerCut_elsewhere hslot hsw hc hk hnot]
    exact settle_of_mounted hl' hv'
  · obtain ⟨hl', hv'⟩ := hG (updFill k (fun f => { f with state := .unknown }) (stepCut b)) hl hv
    rw [powerCut_atMark hslot hsw hc hk hknown halone.1 halone.2]
    exact settle_of_mounted hl' hv'

theorem updSeq_settles (F : Sequencer → Sequencer) (t : State) (hl : RepliesLawful t) (hv : t.volume.state = .mounted) :
    RepliesLawful (updSeq F t) ∧ (updSeq F t).volume.state = .mounted := ⟨hl, hv⟩

end Sys2Proof.Machine

namespace Sys2Proof.Proofs

open Sys2Proof.Machine Sys2Proof.Safety

/-- Settles O51, by the command at which a step of a sweep ends, and by the cause that cuts one. -/
theorem sweepStepEnds : Obligations.SweepStepEnds := by
  refine ⟨fun a sw i it x s ht ha hown hslot hsw hi hit hx hplace ho hl hv => ?ended, fun a sw k s ha hown hslot hsw hc ho hl hv => ?cut⟩
  case ended =>
    intro q passed failed resulted zeros left comes cleared uncleared scanned
    have hat : ∀ q' : Sequencer, SweepAt sw i it (stepLeft q' s) := fun _ => ⟨hsw, hi, hit, hl, hv⟩
    have hfill : ∀ q' : Sequencer, (stepLeft q' s).fill it.slot = x.fill := fun q' => by
      show (s.extent it.slot).bind _ = _
      rw [hx]
      rfl
    have hcleared : ∀ (c : Instr) (u : State), SweepAt sw i it u → exec c s = .next (settle (clearingStepDone it.slot a.sector u)) →
        cleared c u := fun c u hu hexec => by
      obtain ⟨hbelow, hnext, hstop⟩ := comes_cleared hu hexec
      exact ⟨hbelow, hnext, fun hc => (hstop .halt nofun hc).1, fun hc => (hstop .halt nofun hc).2,
        fun hc => (hstop .protect nofun hc).1, fun hc => (hstop .protect nofun hc).2⟩
    have huncleared : ∀ (c : Instr) (q' : Sequencer), exec c s = .next (settle (clearingStepFailed it.slot a.sector (stepLeft q' s))) →
        uncleared c (left q') := fun c q' hexec => by
      obtain ⟨hbelow, hnext, hstop⟩ := comes_uncleared (hat q') (hfill q') hexec
      exact ⟨hbelow, hnext, fun hc => (hstop .halt nofun hc).1, fun hc => (hstop .halt nofun hc).2,
        fun hc => (hstop .protect nofun hc).1, fun hc => (hstop .protect nofun hc).2⟩
    have hscanned : ∀ (c : Instr) (f : Bool) (q' : Sequencer),
        exec c s = .next (settle (scanningStepEnded a.sector a.size f (stepLeft q' s))) →
        scanned c (if f = true then sw.failing i else sw) (if f = true then .failedSectors else it.passResult) (left q') :=
      fun c f q' hexec => by
        have hwithin := fun hm : a.sector + 1 ≤ a.size => comes_scanned (hat q') hm hexec
        exact ⟨fun hc hm => (hwithin hm.le).1 hc hm, fun hc hm => (hwithin hm.le).2.1 hc hm,
          fun hc hm => ((hwithin hm).2.2 .halt nofun hc).1, fun hc hw => ((hwithin hw.1.le).2.2 .halt nofun hc).2 hw⟩
    refine ⟨fun hph hk hp hverify => ?_, fun h f hph hk hp => ?_, fun h hph hk hp hfurther hlast hwrong => ?_,
      fun h hph hk hp => ⟨fun hr hst => ?_, fun hr hlast => ?_⟩,
      fun f hph hk hp => ⟨fun hf => ?_, fun hf hlast => ?_⟩⟩
    · exact hcleared _ _ ⟨hsw, hi, hit, hl, hv⟩ (dataPhase_clears hk hslot ht ha hph hp hverify hplace)
    · refine ⟨fun hgood => hcleared _ _ (hat _) (readBack_clears hk hslot ht ha hph hgood.1 hgood.2), fun hno hleft => ?_,
        fun hno hlast => huncleared _ _ (readBack_clearFails hk hslot ht ha hph hno hlast)⟩
      exact ⟨_, readBack_again ht hph ha (fun hpass => hno ((readBackPasses_blank hk).1 hpass)) hleft,
        settle_of_mounted (repliesLawful_congr hl (fun _ => ⟨rfl, rfl⟩)) hv⟩
    · exact huncleared _ _ (headerRead_clearFails hk hslot ht ha hph hp hfurther hlast hwrong)
    · exact hscanned _ false _ (headerRead_scans hk ht ha hp hph hr hst)
    · exact hscanned _ true _ (headerRead_scanFails hk ht ha hp hph hr hlast)
    · exact hscanned _ false _ (dataRead_scans hk ht ha hph hf)
    · exact hscanned _ true _ (dataRead_scanFails hk ht ha hph hf hlast)
  case cut =>
    intro known alone leaves
    refine ⟨fun hfault hstops hkind hstate => ?fault, fun rest early hpower hk hseek hrestore hmode => ?power,
      fun hk hstops hout haccepted => ?command⟩
    case fault =>
      have htakes : s.seq.state.takesFault = true := by
        rw [takesFault_iff]
        simp only [List.mem_cons, List.not_mem_nil, or_false] at hstate
        rcases hstate with h | h | h | h <;> simp [h]
      have hexec := faultActive_cut hfault htakes ha hstops
      rcases hkind with hk | hk
      · rw [faultCut_clear hk] at hexec
        obtain ⟨hkept, hunknown⟩ := comes_stepCut hexec hk hslot hsw hc (updSeq_settles _) hl hv
        exact ⟨fun h => hkept (h.resolve_left (by simp [hk])), fun _ => hunknown⟩
      · rw [faultCut_scan (b := actedOn .fault true s) hsw hc hk] at hexec
        exact ⟨fun _ => ⟨_, hexec, settle_of_mounted (s := updSeq Sequencer.cutOff (stepCut (actedOn .fault true s))) hl hv⟩,
          fun h => absurd h (by simp [hk])⟩
    case power =>
      have hout : s.commandOutstanding = false :=
        Bool.eq_false_iff.2 fun h => ((commandOutstanding_iff s).1 h).elim hseek hrestore
      have hexec := powerActive_cuts hpower hmode hout ha (by rw [hk]; rfl)
      obtain ⟨hkept, hunknown⟩ := comes_stepCut hexec hk hslot hsw hc (updSeq_settles _) hl hv
      exact ⟨fun h => hkept (h.resolve_left (by simp [hk])), fun _ => hunknown⟩
    case command =>
      have hexec := seekDone_cuts hout haccepted ha hk hstops
      obtain ⟨hkept, hunknown⟩ := comes_stepCut (G := id) hexec hk hslot hsw hc (fun _ hl hv => ⟨hl, hv⟩) hl hv
      exact ⟨fun h => hkept (h.resolve_left (by simp [hk])), fun _ => hunknown⟩

end Sys2Proof.Proofs
end
